-- ==== Sys2Proof/Word.lean ====
section
/-! DEFINITION. The word type of the ports: one byte as the RS-485 link carries it (10_port_protocol.md, section 10.1). -/

namespace Sys2Proof

/-- One byte on the link (10, section 10.1: 8 data bits). -/
abbrev Byte := BitVec 8

end Sys2Proof
end

