-- ==== Sys2Proof/Config.lean ====
section
/-! DEFINITION. The free values of the model: what the spec leaves open where the part goes on. -/

namespace Sys2Proof

/-- The value that injecting or holding seconds take when one more second is counted at 4,294,967,295.
01, section 1.8 gives the field's range and R22 adds 1 at each second; no rule says what follows the top
(log entry 10). The argument is the state's counter of free values. -/
opaque Config.freeSeconds : Nat → BitVec 32

end Sys2Proof
end

