-- ==== Sys2Proof/Syntax.lean ====
section
/-! DEFINITION. The commands of the block: one constructor of `Instr` per row of spec/opcode_table.json, with
the operands each carries. A request carries its port, its tag and its body; an event carries the port, line,
gauge or field input it concerns. -/

namespace Sys2Proof

/-- The six serial ports (R167). -/
inductive Port where
  | p0 | p1 | p2 | p3 | c0 | c1
deriving DecidableEq, Repr

/-- The eight manifold lines L0 to L7 (02). -/
abbrev LineId := Fin 8

/-- The four uplift gauges; index 0 is G1 (08, section 8.1). -/
abbrev GaugeId := Fin 4

/-- A stage key: hole and stage number (01, section 1.1). Keys carried by a request may lie outside the ranges. -/
structure StageKey where
  hole : Nat
  stage : Nat
deriving DecidableEq, Repr

/-- The body of a request: its fields, or the bytes of a body whose length is not the one section 10.6 gives
for the kind (R170, step 3). -/
inductive Body (α : Type) where
  | args (a : α)
  | wrongLength (bytes : List Byte)
deriving DecidableEq, Repr

/-- CLAIM's body (section 10.6): line and stage key. -/
structure ClaimArgs where
  line : Nat
  key : StageKey
deriving DecidableEq, Repr

/-- PUMP_STATUS's body: running flag and stroke rate. -/
structure PumpStatusArgs where
  running : Nat
  stroke : Nat
deriving DecidableEq, Repr

/-- STAGE_READ's body: selector (0 by key, 1 by position), key, position. -/
structure StageReadArgs where
  selector : Nat
  key : StageKey
  position : Nat
deriving DecidableEq, Repr

/-- STAGE_WRITE's body: progress-clear flag and stage record bytes 0 to 51. The two lists are carried as a
count and four slots each. -/
structure StageWriteArgs where
  clear : Nat
  key : StageKey
  order : Nat
  top : Nat
  bottom : Nat
  pMax : Nat
  vMax : Nat
  jMax : Nat
  qRef : Nat
  tRef : Nat
  band : Nat
  margin : Nat
  fractureDrop : Nat
  fractureRise : Nat
  startClass : Nat
  thickStep : Nat
  riseThreshold : Nat
  policy : Nat
  overridden : Nat
  neighbourCount : Nat
  neighbourSlots : List Nat
  prereqCount : Nat
  prereqSlots : List StageKey
deriving DecidableEq, Repr

/-- STAGE_DECIDE's body: key, action code, new P_max present, new P_max. The four rows of the table share it. -/
structure DecideArgs where
  key : StageKey
  action : Nat
  given : Nat
  pMax : Nat
deriving DecidableEq, Repr

/-- LINE_CONFIG's body: the line and its six settings. -/
structure LineConfigArgs where
  line : Nat
  present : Nat
  range : Nat
  weight : Nat
  hose : Nat
  friction : Nat
  watch : Nat
deriving DecidableEq, Repr

/-- LINE_WATCH's body: line, hole, and stage (0 when not given). -/
structure LineWatchArgs where
  line : Nat
  hole : Nat
  stage : Nat
deriving DecidableEq, Repr

/-- BATCH_REPORT's body. -/
structure BatchArgs where
  cls : Nat
  volume : Nat
  given : Nat
  mixedAt : Nat
deriving DecidableEq, Repr

/-- PART_CONFIG's body: every part setting (R174). -/
structure PartConfigArgs where
  travelTime : Nat
  acceptWindow : Nat
  keepalive : Nat
  holdLimit : Nat
  recordInterval : Nat
  ageLimit : Nat
  residueLimit : Nat
  levelTolerance : Nat
  tankCapacity : Nat
  derate : Nat
  lossCount : Nat
  warnThreshold : Nat
  stopThreshold : Nat
  hysteresis : Nat
  wide : Nat
  gauges : Nat
deriving DecidableEq, Repr

/-- READER_ENABLE's body: reader (C0 0, C1 1) and enable. -/
structure ReaderArgs where
  reader : Nat
  enable : Nat
deriving DecidableEq, Repr

/-- The body of READ_COMPLETIONS, READ_FAULTS and READ_CONNECTIONS: start index and count. -/
structure RangeArgs where
  start : Nat
  count : Nat
deriving DecidableEq, Repr

/-- What aborts a frame at once (R168): a length byte above 240, or a parity error. -/
inductive FramingCause where
  | length (n : Byte)
  | parity
deriving DecidableEq, Repr

/-- The request kinds of section 10.4. -/
inductive RequestKind where
  | claim | start | pause | pumpStatus | release
  | status | stageRead | lineRead | readAlerts | alertMask
  | stageWrite | stageRelease | stageWithdraw | stageDecide | stageDelete
  | lineConfig | lineWatch | lineUnwatch | lineIsolate | lineReturn | holdAll | releaseAll
  | batchReport | tankDump | upliftZero | upliftClear
  | partConfig | readerEnable | readRecords | readCompletions | readFaults | readConnections
  | clearCounters | clearLatches | setTime | exerciseStep | reset
deriving DecidableEq, Repr

/-- The commands: one constructor per row of spec/opcode_table.json.
A request row stands for the far end's whole frame of that kind on port `p`, its CRC agreeing (log entry 5). -/
inductive Instr where
  | claim (p : Port) (tag : Byte) (b : Body ClaimArgs)
  | start (p : Port) (tag : Byte) (b : Body Unit)
  | pause (p : Port) (tag : Byte) (b : Body Unit)
  | pumpStatus (p : Port) (tag : Byte) (b : Body PumpStatusArgs)
  | release (p : Port) (tag : Byte) (b : Body Unit)
  | status (p : Port) (tag : Byte) (b : Body Unit)
  | stageRead (p : Port) (tag : Byte) (b : Body StageReadArgs)
  | lineRead (p : Port) (tag : Byte) (b : Body Nat)
  | readAlerts (p : Port) (tag : Byte) (b : Body Unit)
  | alertMask (p : Port) (tag : Byte) (b : Body Nat)
  | stageWrite (p : Port) (tag : Byte) (b : Body StageWriteArgs)
  | stageRelease (p : Port) (tag : Byte) (b : Body StageKey)
  | stageWithdraw (p : Port) (tag : Byte) (b : Body StageKey)
  | stageDecideContinue (p : Port) (tag : Byte) (b : Body DecideArgs)
  | stageDecideClose (p : Port) (tag : Byte) (b : Body DecideArgs)
  | stageDecideAbandon (p : Port) (tag : Byte) (b : Body DecideArgs)
  | stageDecideResume (p : Port) (tag : Byte) (b : Body DecideArgs)
  | stageDelete (p : Port) (tag : Byte) (b : Body StageKey)
  | lineConfig (p : Port) (tag : Byte) (b : Body LineConfigArgs)
  | lineWatch (p : Port) (tag : Byte) (b : Body LineWatchArgs)
  | lineUnwatch (p : Port) (tag : Byte) (b : Body Nat)
  | lineIsolate (p : Port) (tag : Byte) (b : Body Nat)
  | lineReturn (p : Port) (tag : Byte) (b : Body Nat)
  | holdAll (p : Port) (tag : Byte) (b : Body Unit)
  | releaseAll (p : Port) (tag : Byte) (b : Body Unit)
  | batchReport (p : Port) (tag : Byte) (b : Body BatchArgs)
  | tankDump (p : Port) (tag : Byte) (b : Body Unit)
  | upliftZero (p : Port) (tag : Byte) (b : Body Unit)
  | upliftClear (p : Port) (tag : Byte) (b : Body Unit)
  | partConfig (p : Port) (tag : Byte) (b : Body PartConfigArgs)
  | readerEnable (p : Port) (tag : Byte) (b : Body ReaderArgs)
  | readRecords (p : Port) (tag : Byte) (b : Body Unit)
  | readCompletions (p : Port) (tag : Byte) (b : Body RangeArgs)
  | readFaults (p : Port) (tag : Byte) (b : Body RangeArgs)
  | readConnections (p : Port) (tag : Byte) (b : Body RangeArgs)
  | clearCounters (p : Port) (tag : Byte) (b : Body Nat)
  | clearLatches (p : Port) (tag : Byte) (b : Body Nat)
  | setTime (p : Port) (tag : Byte) (b : Body Nat)
  | exerciseStep (p : Port) (tag : Byte) (b : Body Unit)
  | reset (p : Port) (tag : Byte) (b : Body Nat)
  | unknownKind (p : Port) (kind tag : Byte) (body : List Byte)
  | crcError (p : Port)
  | framingError (p : Port) (cause : FramingCause)
  /-- `next` is the byte that ended the gap (R168). -/
  | frameGapAbort (p : Port) (next : Byte)
  | overrun (p : Port)
  | answerSent (p : Port)
  | discardSilenceEnd (p : Port)
  /-- `current` is the pressure loop's current in µA, `meterFault` the flow meter's fault contact standing open,
  `openMade` and `closedMade` the two limit switches (R32, R70, R71). -/
  | lineSampleEvent (l : LineId) (current : Nat) (meterFault openMade closedMade : Bool)
  | flowPulse (l : LineId)
  | gaugeSampleEvent (g : GaugeId) (current : Nat)
  | levelSampleEvent (current : Nat)
  | estopSample (contactOpen : Bool)
  | clockSecond
  | valveTravelTimeElapsed (l : LineId)
  | holdTimeout (l : LineId)
  | acceptWindowExpiry (l : LineId)
  | keepaliveExpiry (l : LineId)
  | recordInterval (l : LineId)
  | levelComparison
  | groutAgeLimitReached
  | storeWriteFailed
  /-- `storeOk`: the store's self-check passes (R24). `batteryKept`: the battery-backed clock kept its time (R165).
  `elapsed`: the seconds for which power was off. -/
  | powerOn (storeOk batteryKept : Bool) (elapsed : Nat)
  | storeWriteCompleted
  | startByteReceived (p : Port)
deriving DecidableEq, Repr

end Sys2Proof
end

