-- ==== Sys2Proof/Decode.lean ====
section
/-! DEFINITION. Decoding. `decodeTableWord` over the table's bits (the table gives no row any), and the port
protocol's frame: request kinds (section 10.4), request bodies (section 10.6), the CRC (R168), in both directions. -/

namespace Sys2Proof

/-- The port code of R175: P0 to P3 as 0 to 3, C0 4 and C1 5. -/
def Port.code : Port → Nat
  | .p0 => 0 | .p1 => 1 | .p2 => 2 | .p3 => 3 | .c0 => 4 | .c1 => 5

/-- C0 and C1 are console ports (R167). -/
def Port.isConsole : Port → Bool
  | .c0 | .c1 => true
  | .p0 | .p1 | .p2 | .p3 => false

/-- Every request kind, in the order of section 10.4. -/
def RequestKind.all : List RequestKind :=
  [.claim, .start, .pause, .pumpStatus, .release, .status, .stageRead, .lineRead, .readAlerts, .alertMask,
   .stageWrite, .stageRelease, .stageWithdraw, .stageDecide, .stageDelete,
   .lineConfig, .lineWatch, .lineUnwatch, .lineIsolate, .lineReturn, .holdAll, .releaseAll,
   .batchReport, .tankDump, .upliftZero, .upliftClear] ++
  [.partConfig, .readerEnable, .readRecords, .readCompletions, .readFaults, .readConnections,
   .clearCounters, .clearLatches, .setTime, .exerciseStep, .reset]

/-- The kind codes of section 10.4. -/
def RequestKind.code : RequestKind → Byte
  | .claim => 0x01 | .start => 0x02 | .pause => 0x03 | .pumpStatus => 0x04 | .release => 0x05
  | .status => 0x08 | .stageRead => 0x09 | .lineRead => 0x0A | .readAlerts => 0x0B | .alertMask => 0x0C
  | .stageWrite => 0x10 | .stageRelease => 0x11 | .stageWithdraw => 0x12 | .stageDecide => 0x13
  | .stageDelete => 0x14
  | .lineConfig => 0x18 | .lineWatch => 0x19 | .lineUnwatch => 0x1A | .lineIsolate => 0x1B
  | .lineReturn => 0x1C | .holdAll => 0x1D | .releaseAll => 0x1E
  | .batchReport => 0x20 | .tankDump => 0x21 | .upliftZero => 0x24 | .upliftClear => 0x25
  | .partConfig => 0x28 | .readerEnable => 0x29 | .readRecords => 0x2A | .readCompletions => 0x2B
  | .readFaults => 0x2C | .readConnections => 0x2D | .clearCounters => 0x2E | .clearLatches => 0x2F
  | .setTime => 0x30 | .exerciseStep => 0x31 | .reset => 0x32

/-- The kind a code stands for, if it is in the table of section 10.4. -/
def RequestKind.ofCode? (b : Byte) : Option RequestKind :=
  RequestKind.all.find? (fun k => k.code == b)

/-- Whether the role of the port takes the kind (section 10.4, role column). -/
def RequestKind.permits (k : RequestKind) (p : Port) : Bool :=
  match k with
  | .claim | .start | .pause | .pumpStatus | .release => !p.isConsole
  | .status | .stageRead | .lineRead | .readAlerts | .alertMask => true
  | .stageWrite | .stageRelease | .stageWithdraw | .stageDecide | .stageDelete
  | .lineConfig | .lineWatch | .lineUnwatch | .lineIsolate | .lineReturn | .holdAll | .releaseAll
  | .batchReport | .tankDump | .upliftZero | .upliftClear
  | .partConfig | .readerEnable | .readRecords | .readCompletions | .readFaults | .readConnections
  | .clearCounters | .clearLatches | .setTime | .exerciseStep | .reset => p.isConsole

/-- The body length N of each kind (section 10.6, table of request bodies). -/
def RequestKind.bodyLength : RequestKind → Nat
  | .claim => 4 | .start => 0 | .pause => 0 | .pumpStatus => 2 | .release => 0
  | .status => 0 | .stageRead => 5 | .lineRead => 1 | .readAlerts => 0 | .alertMask => 4
  | .stageWrite => 53 | .stageRelease => 3 | .stageWithdraw => 3 | .stageDecide => 7 | .stageDelete => 3
  | .lineConfig => 12 | .lineWatch => 4 | .lineUnwatch => 1 | .lineIsolate => 1 | .lineReturn => 1
  | .holdAll => 0 | .releaseAll => 0
  | .batchReport => 8 | .tankDump => 0 | .upliftZero => 0 | .upliftClear => 0
  | .partConfig => 22 | .readerEnable => 2 | .readRecords => 0 | .readCompletions => 2 | .readFaults => 2
  | .readConnections => 2 | .clearCounters => 1 | .clearLatches => 1 | .setTime => 4 | .exerciseStep => 0
  | .reset => 1

/-! ### Fields of a body: more than one byte is carried low byte first (R175) -/

/-- The byte at an offset, as a number; 0 beyond the end. -/
def u8 (b : List Byte) (i : Nat) : Nat := (b.getD i 0).toNat

/-- Two bytes, low byte first. -/
def u16 (b : List Byte) (i : Nat) : Nat := u8 b i + 256 * u8 b (i + 1)

/-- Four bytes, low byte first. -/
def u32 (b : List Byte) (i : Nat) : Nat := u16 b i + 65536 * u16 b (i + 2)

/-- A stage key: hole (2), stage (1). -/
def uKey (b : List Byte) (i : Nat) : StageKey := ⟨u16 b i, u8 b (i + 2)⟩

/-- One byte. -/
def e8 (n : Nat) : List Byte := [BitVec.ofNat 8 n]

/-- Two bytes, low byte first. -/
def e16 (n : Nat) : List Byte := [BitVec.ofNat 8 n, BitVec.ofNat 8 (n / 256)]

/-- Four bytes, low byte first. -/
def e32 (n : Nat) : List Byte := e16 n ++ e16 (n / 65536)

/-- A stage key: hole (2), stage (1). -/
def eKey (k : StageKey) : List Byte := e16 k.hole ++ e8 k.stage

/-! ### Request bodies, decoded -/

def decodeClaim (b : List Byte) : ClaimArgs := { line := u8 b 0, key := uKey b 1 }

def decodePumpStatus (b : List Byte) : PumpStatusArgs := { running := u8 b 0, stroke := u8 b 1 }

def decodeStageRead (b : List Byte) : StageReadArgs :=
  { selector := u8 b 0, key := uKey b 1, position := u8 b 4 }

/-- The progress-clear flag, then stage record bytes 0 to 51 (section 10.6, "Stage record as carried"). -/
def decodeStageWrite (b : List Byte) : StageWriteArgs :=
  { clear := u8 b 0, key := uKey b 1, order := u8 b 4, top := u16 b 5, bottom := u16 b 7, pMax := u16 b 9,
    vMax := u16 b 11, jMax := u32 b 13, qRef := u8 b 17, tRef := u16 b 18, band := u8 b 20, margin := u8 b 21,
    fractureDrop := u8 b 22, fractureRise := u8 b 23, startClass := u8 b 24, thickStep := u16 b 25,
    riseThreshold := u16 b 27, policy := u8 b 29, overridden := u8 b 30, neighbourCount := u8 b 31,
    neighbourSlots := [u16 b 32, u16 b 34, u16 b 36, u16 b 38], prereqCount := u8 b 40,
    prereqSlots := [uKey b 41, uKey b 44, uKey b 47, uKey b 50] }

def decodeDecide (b : List Byte) : DecideArgs :=
  { key := uKey b 0, action := u8 b 3, given := u8 b 4, pMax := u16 b 5 }

def decodeLineConfig (b : List Byte) : LineConfigArgs :=
  { line := u8 b 0, present := u8 b 1, range := u16 b 2, weight := u16 b 4, hose := u16 b 6,
    friction := u16 b 8, watch := u16 b 10 }

def decodeLineWatch (b : List Byte) : LineWatchArgs := { line := u8 b 0, hole := u16 b 1, stage := u8 b 3 }

def decodeBatch (b : List Byte) : BatchArgs :=
  { cls := u8 b 0, volume := u16 b 1, given := u8 b 3, mixedAt := u32 b 4 }

def decodePartConfig (b : List Byte) : PartConfigArgs :=
  { travelTime := u8 b 0, acceptWindow := u16 b 1, keepalive := u8 b 3, holdLimit := u8 b 4,
    recordInterval := u8 b 5, ageLimit := u8 b 6, residueLimit := u16 b 7, levelTolerance := u16 b 9,
    tankCapacity := u16 b 11, derate := u8 b 13, lossCount := u8 b 14, warnThreshold := u16 b 15,
    stopThreshold := u16 b 17, hysteresis := u8 b 19, wide := u8 b 20, gauges := u8 b 21 }

def decodeReader (b : List Byte) : ReaderArgs := { reader := u8 b 0, enable := u8 b 1 }

def decodeRange (b : List Byte) : RangeArgs := { start := u8 b 0, count := u8 b 1 }

/-! ### Request bodies, encoded -/

def encodeClaim (a : ClaimArgs) : List Byte := e8 a.line ++ eKey a.key

def encodePumpStatus (a : PumpStatusArgs) : List Byte := e8 a.running ++ e8 a.stroke

def encodeStageRead (a : StageReadArgs) : List Byte := e8 a.selector ++ eKey a.key ++ e8 a.position

def encodeStageWrite (a : StageWriteArgs) : List Byte :=
  e8 a.clear ++ eKey a.key ++ e8 a.order ++ e16 a.top ++ e16 a.bottom ++ e16 a.pMax ++ e16 a.vMax ++
  e32 a.jMax ++ e8 a.qRef ++ e16 a.tRef ++ e8 a.band ++ e8 a.margin ++ e8 a.fractureDrop ++
  e8 a.fractureRise ++ e8 a.startClass ++ e16 a.thickStep ++ e16 a.riseThreshold ++ e8 a.policy ++
  e8 a.overridden ++ e8 a.neighbourCount ++ a.neighbourSlots.flatMap e16 ++ e8 a.prereqCount ++
  a.prereqSlots.flatMap eKey

def encodeDecide (a : DecideArgs) : List Byte := eKey a.key ++ e8 a.action ++ e8 a.given ++ e16 a.pMax

def encodeLineConfig (a : LineConfigArgs) : List Byte :=
  e8 a.line ++ e8 a.present ++ e16 a.range ++ e16 a.weight ++ e16 a.hose ++ e16 a.friction ++ e16 a.watch

def encodeLineWatch (a : LineWatchArgs) : List Byte := e8 a.line ++ e16 a.hole ++ e8 a.stage

def encodeBatch (a : BatchArgs) : List Byte := e8 a.cls ++ e16 a.volume ++ e8 a.given ++ e32 a.mixedAt

def encodePartConfig (a : PartConfigArgs) : List Byte :=
  e8 a.travelTime ++ e16 a.acceptWindow ++ e8 a.keepalive ++ e8 a.holdLimit ++ e8 a.recordInterval ++
  e8 a.ageLimit ++ e16 a.residueLimit ++ e16 a.levelTolerance ++ e16 a.tankCapacity ++ e8 a.derate ++
  e8 a.lossCount ++ e16 a.warnThreshold ++ e16 a.stopThreshold ++ e8 a.hysteresis ++ e8 a.wide ++ e8 a.gauges

def encodeReader (a : ReaderArgs) : List Byte := e8 a.reader ++ e8 a.enable

def encodeRange (a : RangeArgs) : List Byte := e8 a.start ++ e8 a.count

/-! ### Requests -/

/-- A body of the length section 10.6 gives for the kind is read field by field; any other stays bytes. -/
def bodyOf {α : Type} (k : RequestKind) (read : List Byte → α) (b : List Byte) : Body α :=
  if b.length = k.bodyLength then .args (read b) else .wrongLength b

/-- STAGE_DECIDE is four rows of the table, told apart by the action code. A body of the wrong length, and an
action code the table of section 10.6 does not list, are given to the row of CONTINUE (log entry 22). -/
def decodeStageDecide (p : Port) (tag : Byte) (b : List Byte) : Instr :=
  match bodyOf .stageDecide decodeDecide b with
  | .wrongLength b => .stageDecideContinue p tag (.wrongLength b)
  | .args a =>
    if a.action = 1 then .stageDecideClose p tag (.args a)
    else if a.action = 2 then .stageDecideAbandon p tag (.args a)
    else if a.action = 3 then .stageDecideResume p tag (.args a)
    else .stageDecideContinue p tag (.args a)

/-- The command that a request with an agreeing CRC is: by its kind, UNKNOWN_KIND where section 10.4 has none. -/
def decodeRequest (p : Port) (kind tag : Byte) (b : List Byte) : Instr :=
  match RequestKind.ofCode? kind with
  | none => .unknownKind p kind tag b
  | some k =>
    match k with
    | .claim => .claim p tag (bodyOf k decodeClaim b)
    | .start => .start p tag (bodyOf k (fun _ => ()) b)
    | .pause => .pause p tag (bodyOf k (fun _ => ()) b)
    | .pumpStatus => .pumpStatus p tag (bodyOf k decodePumpStatus b)
    | .release => .release p tag (bodyOf k (fun _ => ()) b)
    | .status => .status p tag (bodyOf k (fun _ => ()) b)
    | .stageRead => .stageRead p tag (bodyOf k decodeStageRead b)
    | .lineRead => .lineRead p tag (bodyOf k (u8 · 0) b)
    | .readAlerts => .readAlerts p tag (bodyOf k (fun _ => ()) b)
    | .alertMask => .alertMask p tag (bodyOf k (u32 · 0) b)
    | .stageWrite => .stageWrite p tag (bodyOf k decodeStageWrite b)
    | .stageRelease => .stageRelease p tag (bodyOf k (uKey · 0) b)
    | .stageWithdraw => .stageWithdraw p tag (bodyOf k (uKey · 0) b)
    | .stageDecide => decodeStageDecide p tag b
    | .stageDelete => .stageDelete p tag (bodyOf k (uKey · 0) b)
    | .lineConfig => .lineConfig p tag (bodyOf k decodeLineConfig b)
    | .lineWatch => .lineWatch p tag (bodyOf k decodeLineWatch b)
    | .lineUnwatch => .lineUnwatch p tag (bodyOf k (u8 · 0) b)
    | .lineIsolate => .lineIsolate p tag (bodyOf k (u8 · 0) b)
    | .lineReturn => .lineReturn p tag (bodyOf k (u8 · 0) b)
    | .holdAll => .holdAll p tag (bodyOf k (fun _ => ()) b)
    | .releaseAll => .releaseAll p tag (bodyOf k (fun _ => ()) b)
    | .batchReport => .batchReport p tag (bodyOf k decodeBatch b)
    | .tankDump => .tankDump p tag (bodyOf k (fun _ => ()) b)
    | .upliftZero => .upliftZero p tag (bodyOf k (fun _ => ()) b)
    | .upliftClear => .upliftClear p tag (bodyOf k (fun _ => ()) b)
    | .partConfig => .partConfig p tag (bodyOf k decodePartConfig b)
    | .readerEnable => .readerEnable p tag (bodyOf k decodeReader b)
    | .readRecords => .readRecords p tag (bodyOf k (fun _ => ()) b)
    | .readCompletions => .readCompletions p tag (bodyOf k decodeRange b)
    | .readFaults => .readFaults p tag (bodyOf k decodeRange b)
    | .readConnections => .readConnections p tag (bodyOf k decodeRange b)
    | .clearCounters => .clearCounters p tag (bodyOf k (u8 · 0) b)
    | .clearLatches => .clearLatches p tag (bodyOf k (u8 · 0) b)
    | .setTime => .setTime p tag (bodyOf k (u32 · 0) b)
    | .exerciseStep => .exerciseStep p tag (bodyOf k (fun _ => ()) b)
    | .reset => .reset p tag (bodyOf k (u8 · 0) b)

/-- The bytes of a request body. -/
def Body.bytes {α : Type} (write : α → List Byte) : Body α → List Byte
  | .args a => write a
  | .wrongLength b => b

/-- What a request carries on the link: kind code, tag and body bytes. `none` for an event that is no request. -/
def encodeRequest : Instr → Option (Port × Byte × Byte × List Byte)
  | .claim p t b => some (p, RequestKind.claim.code, t, b.bytes encodeClaim)
  | .start p t b => some (p, RequestKind.start.code, t, b.bytes (fun _ => []))
  | .pause p t b => some (p, RequestKind.pause.code, t, b.bytes (fun _ => []))
  | .pumpStatus p t b => some (p, RequestKind.pumpStatus.code, t, b.bytes encodePumpStatus)
  | .release p t b => some (p, RequestKind.release.code, t, b.bytes (fun _ => []))
  | .status p t b => some (p, RequestKind.status.code, t, b.bytes (fun _ => []))
  | .stageRead p t b => some (p, RequestKind.stageRead.code, t, b.bytes encodeStageRead)
  | .lineRead p t b => some (p, RequestKind.lineRead.code, t, b.bytes e8)
  | .readAlerts p t b => some (p, RequestKind.readAlerts.code, t, b.bytes (fun _ => []))
  | .alertMask p t b => some (p, RequestKind.alertMask.code, t, b.bytes e32)
  | .stageWrite p t b => some (p, RequestKind.stageWrite.code, t, b.bytes encodeStageWrite)
  | .stageRelease p t b => some (p, RequestKind.stageRelease.code, t, b.bytes eKey)
  | .stageWithdraw p t b => some (p, RequestKind.stageWithdraw.code, t, b.bytes eKey)
  | .stageDecideContinue p t b | .stageDecideClose p t b | .stageDecideAbandon p t b
  | .stageDecideResume p t b => some (p, RequestKind.stageDecide.code, t, b.bytes encodeDecide)
  | .stageDelete p t b => some (p, RequestKind.stageDelete.code, t, b.bytes eKey)
  | .lineConfig p t b => some (p, RequestKind.lineConfig.code, t, b.bytes encodeLineConfig)
  | .lineWatch p t b => some (p, RequestKind.lineWatch.code, t, b.bytes encodeLineWatch)
  | .lineUnwatch p t b => some (p, RequestKind.lineUnwatch.code, t, b.bytes e8)
  | .lineIsolate p t b => some (p, RequestKind.lineIsolate.code, t, b.bytes e8)
  | .lineReturn p t b => some (p, RequestKind.lineReturn.code, t, b.bytes e8)
  | .holdAll p t b => some (p, RequestKind.holdAll.code, t, b.bytes (fun _ => []))
  | .releaseAll p t b => some (p, RequestKind.releaseAll.code, t, b.bytes (fun _ => []))
  | .batchReport p t b => some (p, RequestKind.batchReport.code, t, b.bytes encodeBatch)
  | .tankDump p t b => some (p, RequestKind.tankDump.code, t, b.bytes (fun _ => []))
  | .upliftZero p t b => some (p, RequestKind.upliftZero.code, t, b.bytes (fun _ => []))
  | .upliftClear p t b => some (p, RequestKind.upliftClear.code, t, b.bytes (fun _ => []))
  | .partConfig p t b => some (p, RequestKind.partConfig.code, t, b.bytes encodePartConfig)
  | .readerEnable p t b => some (p, RequestKind.readerEnable.code, t, b.bytes encodeReader)
  | .readRecords p t b => some (p, RequestKind.readRecords.code, t, b.bytes (fun _ => []))
  | .readCompletions p t b => some (p, RequestKind.readCompletions.code, t, b.bytes encodeRange)
  | .readFaults p t b => some (p, RequestKind.readFaults.code, t, b.bytes encodeRange)
  | .readConnections p t b => some (p, RequestKind.readConnections.code, t, b.bytes encodeRange)
  | .clearCounters p t b => some (p, RequestKind.clearCounters.code, t, b.bytes e8)
  | .clearLatches p t b => some (p, RequestKind.clearLatches.code, t, b.bytes e8)
  | .setTime p t b => some (p, RequestKind.setTime.code, t, b.bytes e32)
  | .exerciseStep p t b => some (p, RequestKind.exerciseStep.code, t, b.bytes (fun _ => []))
  | .reset p t b => some (p, RequestKind.reset.code, t, b.bytes e8)
  | .unknownKind p k t b => some (p, k, t, b)
  | .crcError _ | .framingError _ _ | .frameGapAbort _ _ | .overrun _ | .answerSent _ | .discardSilenceEnd _
  | .lineSampleEvent _ _ _ _ _ | .flowPulse _ | .gaugeSampleEvent _ _ | .levelSampleEvent _ | .estopSample _
  | .clockSecond | .valveTravelTimeElapsed _ | .holdTimeout _ | .acceptWindowExpiry _ | .keepaliveExpiry _
  | .recordInterval _ | .levelComparison | .groutAgeLimitReached | .storeWriteFailed | .powerOn _ _ _
  | .storeWriteCompleted | .startByteReceived _ => none

/-! ### The frame and its CRC (R168) -/

/-- One bit of the CRC: polynomial x^16+x^12+x^5+1, most significant bit first. -/
def crcShift (c : BitVec 16) : BitVec 16 :=
  if c.msb then (c <<< 1) ^^^ 0x1021#16 else c <<< 1

/-- One byte fed into the CRC. -/
def crcByte (c : BitVec 16) (b : Byte) : BitVec 16 :=
  let c := c ^^^ (b.zeroExtend 16 <<< 8)
  crcShift (crcShift (crcShift (crcShift (crcShift (crcShift (crcShift (crcShift c)))))))

/-- The CRC over the length, kind, tag and body bytes, from FFFFh, with no final inversion. -/
def crc (bytes : List Byte) : BitVec 16 := bytes.foldl crcByte 0xFFFF#16

/-- The two CRC bytes, low byte first. -/
def crcBytes (bytes : List Byte) : List Byte :=
  [(crc bytes).setWidth 8, (crc bytes >>> 8).setWidth 8]

/-- A frame: A5h, N, kind, tag, body, CRC (section 10.6, "Frame and header"). -/
def encodeFrame (kind tag : Byte) (body : List Byte) : List Byte :=
  let inner := BitVec.ofNat 8 body.length :: kind :: tag :: body
  0xA5 :: inner ++ crcBytes inner

/-- The command that a whole frame received without a gap, a parity error or a byte left over is: aborted when
its length byte is above 240, discarded when its CRC differs, and otherwise the request it carries.
`none` for bytes that are not one whole frame from a start byte on. -/
def decodeFrame (p : Port) (bytes : List Byte) : Option Instr :=
  match bytes with
  | s :: n :: rest =>
    if s ≠ 0xA5 then none
    else if 240 < n.toNat then some (.framingError p (.length n))
    else
      match rest with
      | kind :: tag :: more =>
        let body := more.take n.toNat
        if more.length ≠ n.toNat + 2 then none
        else if more.drop n.toNat = crcBytes (n :: kind :: tag :: body) then
          some (decodeRequest p kind tag body)
        else some (.crcError p)
      | _ => none
  | _ => none

/-- The command that a word spells by the table's bits. spec/opcode_table.json gives no row any bits
(every row's "fields" is empty and none has "fixed"), so no word spells a command. -/
def decodeTableWord (_nbits _w : Nat) : Option Instr := none

end Sys2Proof
end

