-- ==== Sys2Proof/Machine/State.lean ====
section
/-! DEFINITION. The state of the ZG-418: every table, record, queue, count, timer, flag and output of its ten
blocks (00_scope.md), as plain data, and the state after power-on of a part as delivered (log entry 1).
What the spec makes a function of other state at every moment (owner ports, the permit relay, the part mode, the
live flags, the tank class) is computed in Machine/Flags.lean and has no storage of its own (log entry 16). -/

namespace Sys2Proof.Machine

/-! ### How a command can stop -/

/-- No command of this block stops with a fault: the spec gives every request and every event an effect in every
state, and what it calls faults are entries of the fault history (R162). The type has no constructor. -/
inductive Fault where
deriving DecidableEq, Repr

/-- Why a command has no outcome. -/
inductive Refusal where
  /-- Raised by an arm of `exec` for a row that has no meaning yet. It stops the machine, so nothing false about
  the part can be proved from it: safe. -/
  | notModelled (mnemonic : String)
deriving DecidableEq, Repr

/-! ### The stage table (01) -/

/-- The stage states, in the order of section 1.2. -/
inductive StageStatus where
  | draft | ready | blocked | active | suspended | complete | abandoned
deriving DecidableEq, Repr

/-- The stage end causes, in the order of the table of section 1.1. -/
inductive EndCause where
  | refusal | volumeCap | intensityCap | closedByConsole | abandonedByConsole
  | keepaliveLost | releasedEarly | holdTimeout | powerLoss | lockdown | reset | valveFault
deriving DecidableEq, Repr

/-- The connection policy (section 1.1). -/
inductive Policy where
  | hold | note
deriving DecidableEq, Repr

/-- The pending decision (R15): absent when neither is there. -/
structure PendingDecision where
  fracture : Bool
  connection : Bool
deriving DecidableEq, Repr

/-- The progress record of a stage (section 1.8). -/
structure Progress where
  v : Nat
  maxPe : Nat
  maxClass : Nat
  unmetered : Nat
  overpressure : Nat
  connection : Nat
  injecting : Nat
  holding : Nat
  firstStart : Nat
  lastLine : LineId
deriving DecidableEq, Repr

/-- The console-written fields of a stage record, Key to Override (section 1.1). -/
structure StageFields where
  key : StageKey
  order : Nat
  top : Nat
  bottom : Nat
  pMax : Nat
  vMax : Nat
  jMax : Nat
  qRef : Nat
  tRef : Nat
  band : Nat
  margin : Nat
  fractureDrop : Nat
  fractureRise : Nat
  startClass : Nat
  thickStep : Nat
  riseThreshold : Nat
  policy : Policy
  neighbours : List Nat
  prereqs : List StageKey
  overridden : Bool
deriving DecidableEq, Repr

/-- A stage record (section 1.1). -/
structure Stage where
  fields : StageFields
  waiting : Bool
  status : StageStatus
  endCause : Option EndCause
  decision : PendingDecision
  progress : Option Progress
  startTime : Option Nat
  endTime : Option Nat
deriving DecidableEq, Repr

/-! ### Lines, grants and channels (02 to 07) -/

/-- The line states, in the order of section 2.3. -/
inductive LineState where
  | idle | watch | opening | armed | injecting | holding | closing | isolated
deriving DecidableEq, Repr

/-- What a valve is driven towards (section 2.1). -/
inductive ValvePos where
  | opened | closed
deriving DecidableEq, Repr

/-- What the two limit switches report (R32). -/
inductive Readback where
  | opened | closed | travel | invalid
deriving DecidableEq, Repr

/-- The travel record (R33). -/
structure Travel where
  target : ValvePos
  allowed : Nat
  elapsed : Nat
deriving DecidableEq, Repr

/-- The hold causes, in the order of their bits (R175). -/
inductive HoldCause where
  | console | pump | overpressure | fracture | connection | sensor | aged | uplift | estop
deriving DecidableEq, Repr

/-- The valve faults, codes 01 to 04 (R34 to R36). -/
inductive ValveFault where
  | noOpen | noClose | bothSwitches | uncommanded
deriving DecidableEq, Repr

/-- Why an ISOLATED line is isolated (section 2.1). -/
inductive IsolationReason where
  | fault (f : ValveFault)
  | console
  | notPresent
deriving DecidableEq, Repr

/-- The watch record (R44, section 6.7). -/
structure Watch where
  hole : Nat
  stage : Option Nat
  baseline : Option Nat
  settle : Nat
  armed : Bool
  rise : Nat
  rearm : Nat
deriving DecidableEq, Repr

/-- The computed values record (section 5.2). -/
structure Computed where
  pg : Nat
  q : Nat
  cls : Nat
  head : Nat
  friction : Nat
  pe : Nat
  vUsed : Nat
  v : Nat
  j : Nat
  derated : Bool
  ce : Nat
  cg : Nat
  refusalThreshold : Nat
  overpressureLimit : Nat
  stale : Bool
deriving DecidableEq, Repr

/-- The classes and the thickening record of a bound line (section 7.6). -/
structure Classes where
  demanded : Nat
  effective : Nat
  thickening : Nat
  pendingVolume : Nat
  pRef : Option Nat
deriving DecidableEq, Repr

/-- An entry of a transit queue (R135). -/
structure Transit where
  cls : Nat
  remaining : Nat
deriving DecidableEq, Repr

/-- The line settings (section 2.2). -/
structure LineSettings where
  present : Bool
  range : Nat
  weight : Nat
  hose : Nat
  friction : Nat
  watch : Nat
deriving DecidableEq, Repr

/-- A timer of a grant: its length and the time elapsed, in seconds (section 3.1). -/
structure Timer where
  length : Nat
  elapsed : Nat
deriving DecidableEq, Repr

/-- The phase of a grant (section 3.1). -/
inductive Phase where
  | live | ending
deriving DecidableEq, Repr

/-- The grant end reasons, in the order of section 3.1. -/
inductive EndReason where
  | refusal | volumeCap | intensityCap | closedByConsole | abandonedByConsole | holdTimeout | acceptExpired
  | keepaliveLost | released | upliftStop | estop | valveFault | lockdown | reset
deriving DecidableEq, Repr

/-- The pump report (R56). -/
structure PumpReport where
  running : Bool
  stroke : Nat
  time : Nat
deriving DecidableEq, Repr

/-- A grant record (section 3.1). Its line is the line that holds it, its stage key the line's bound stage (R49);
`GrantReport` carries both. -/
structure Grant where
  owner : Port
  phase : Phase
  startTaken : Bool
  accept : Option Timer
  keepalive : Option Timer
  endReason : Option EndReason
  report : Option PumpReport
deriving DecidableEq, Repr

/-- A grant record whole, with its line and its stage key, as LINE_READ shows it (section 3.1, R173). -/
structure GrantReport where
  line : LineId
  key : Option StageKey
  grant : Grant
deriving DecidableEq, Repr

/-- The decision record of a line (section 6.1). -/
structure DecisionRecord where
  refusal : Nat
  intensity : Nat
  raise : Nat
  clear : Nat
deriving DecidableEq, Repr

/-- The validity states of a channel (section 4.4), and OFF (R68). -/
inductive Validity where
  | valid | suspect | lost | regain1 | regain2 | off
deriving DecidableEq, Repr

/-- A saturating counter and its saturation-posted flag (R164). -/
structure Counter where
  count : Nat
  posted : Bool
deriving DecidableEq, Repr

/-- A channel record (section 4.1). -/
structure Channel where
  validity : Validity
  bad : Nat
  value : Int
  noValue : Bool
  ref : Option Int
  counter : Counter
deriving DecidableEq, Repr

/-- One line: the line record of section 2.1 with the grant (3.1), decision (6.1) and watch (6.7) records, the
classes and transit queue (7.6), the record timer (R158), and the line's two channels, flow window and history
ring (04). `inForce` are the settings as the latest sample event took them up (R29, log entry 17). -/
structure Line where
  state : LineState
  stage : Option StageKey
  command : ValvePos
  readback : Readback
  travel : Option Travel
  invalid : Nat
  causes : List HoldCause
  holdTimer : Option Nat
  isolation : Option IsolationReason
  watch : Option Watch
  startCheck : Bool
  settings : LineSettings
  inForce : LineSettings
  values : Option Computed
  classes : Option Classes
  transit : List Transit
  mixLag : Bool
  grant : Option Grant
  decision : Option DecisionRecord
  recordTimer : Option Nat
  window : List Nat
  pulses : Nat
  lastQ : Nat
  ring : List (Nat × Nat)
  pressure : Channel
  flow : Channel
deriving DecidableEq, Repr

/-- One uplift gauge: its channel and its gauge record (section 8.1). `judged`: it was judged at its latest
sample event (R142). -/
structure Gauge where
  channel : Channel
  baseline : Option Int
  u : Int
  warning : Bool
  warnCount : Nat
  clearCount : Nat
  stopCount : Nat
  judged : Bool
deriving DecidableEq, Repr

/-- The part settings (R174). -/
structure PartSettings where
  travelTime : Nat
  acceptWindow : Nat
  keepalive : Nat
  holdLimit : Nat
  recordInterval : Nat
  ageLimit : Nat
  residueLimit : Nat
  levelTolerance : Nat
  tankCapacity : Nat
  derate : Nat
  lossCount : Nat
  warnThreshold : Nat
  stopThreshold : Nat
  hysteresis : Nat
  wide : Bool
  gauges : Vector Bool 4
deriving DecidableEq, Repr

/-! ### Grout supply and uplift (07, 08) -/

/-- A batch (section 7.1). Volumes: `volume` in L, `remaining` in mL. -/
structure Batch where
  number : Nat
  cls : Nat
  volume : Nat
  remaining : Nat
  mixedAt : Nat
deriving DecidableEq, Repr

/-- The Grout Supply Unit. `levelPeriod` counts the seconds of the running 10 s level period (R129). -/
structure Grout where
  batches : List Batch
  nextBatch : Nat
  aged : Bool
  unaccounted : Nat
  noGrout : Bool
  mixOrder : Nat
  mismatch : Nat
  matched : Nat
  levelMismatch : Bool
  difference : Int
  levelPeriod : Nat
deriving DecidableEq, Repr

/-- The Uplift and Stop Unit, less its gauges. -/
structure StopUnit where
  warn : Bool
  degraded : Bool
  upliftStop : Bool
  estop : Bool
  openCount : Nat
  closedCount : Nat
  startCheck : Bool
  checkDone : Bool
  lockdown : Bool
deriving DecidableEq, Repr

/-- The part modes (R146), in the order of their codes (R175). -/
inductive Mode where
  | normal | upliftStop | estop | lockdown | exercise
deriving DecidableEq, Repr

/-! ### Alerts, records and faults (09) -/

/-- The alert kinds, in the order of section 9.1. -/
inductive AlertKind where
  | upliftStop | lockdown | estop | valveFault | fracture | overpressure | sensorLost | upliftWarn
  | connectionHold | keepaliveLost | aged | stageSuspended | noGroutAccount | storeFault | stageComplete
  | holdCleared | connectionNote | levelMismatch | blend | offOrder | mixOrder | mixLag | stageReady
  | recordSlip | counterSaturated
deriving DecidableEq, Repr

/-- An entry of an alert queue (section 9.3). The level is the kind's. -/
structure AlertEntry where
  kind : AlertKind
  time : Nat
  line : Option LineId
  key : Option StageKey
  detail : Option Int
  exercise : Bool
  repeats : Nat
deriving DecidableEq, Repr

/-- The fault codes (section 9.8). -/
inductive FaultCode where
  | valveNoOpen | valveNoClose | valveBothSwitches | valveUncommanded
  | pressureLost | flowLost | upliftGaugeLost | levelLost
  | keepaliveLost | holdTimeout | upliftStop | estop | storeWrite | powerLoss | rtcInvalid | lockdown
deriving DecidableEq, Repr

/-- The detail of a fault entry: the value its owning rule gives (R162), absent where the rule gives none. -/
inductive FaultDetail where
  | absent
  | value (n : Int)
  | readback (r : Readback)
  | causes (c : List HoldCause)
  | port (p : Port)
deriving DecidableEq, Repr

/-- The location of a fault entry (R162). -/
inductive FaultLocation where
  | line (l : LineId)
  | gauge (g : GaugeId)
  | port (p : Port)
  | stage (k : StageKey)
deriving DecidableEq, Repr

/-- The consequence classes, in the order of R162. -/
inductive Consequence where
  | record | derate | hold | isolate | suspend | stop | lockdown
deriving DecidableEq, Repr

/-- An entry of the fault history (R162). -/
structure FaultEntry where
  number : Nat
  code : FaultCode
  detail : FaultDetail
  time : Nat
  location : Option FaultLocation
  consequence : Consequence
deriving DecidableEq, Repr

/-- An injection record (R158). -/
structure InjectionRecord where
  number : Nat
  time : Nat
  key : StageKey
  line : LineId
  state : LineState
  pg : Nat
  pe : Nat
  ce : Nat
  cg : Nat
  q : Nat
  volume : Nat
  v : Nat
  j : Nat
  effective : Nat
  demanded : Nat
  causes : List HoldCause
  stale : Bool
deriving DecidableEq, Repr

/-- A reader of the record queue (R159): its position is given by the number of records it has not yet read,
which are the newest of the queue. -/
structure Reader where
  enabled : Bool
  unread : Nat
  slips : Counter
deriving DecidableEq, Repr

/-- A completion summary (R161). -/
structure Summary where
  key : StageKey
  endCause : EndCause
  startTime : Nat
  endTime : Nat
  volume : Nat
  v : Nat
  maxPe : Nat
  maxClass : Nat
  finalCe : Nat
  finalJ : Nat
  overpressure : Nat
  connection : Nat
  unmetered : Nat
  injecting : Nat
  holding : Nat
deriving DecidableEq, Repr

/-- A record of the connection log (R119). -/
structure ConnectionRecord where
  number : Nat
  time : Nat
  line : LineId
  hole : Nat
  stage : Option Nat
  baseline : Nat
  rise : Int
  candidates : List (LineId × StageKey)
  attributed : Bool
deriving DecidableEq, Repr

/-- The connection log and its next number (R119). -/
structure ConnectionLog where
  records : List ConnectionRecord
  nextNumber : Nat
deriving DecidableEq, Repr

/-- The record queue and its readers, the completion list, the fault history and the latched flags (09). -/
structure Records where
  records : List InjectionRecord
  nextRecord : Nat
  readerC0 : Reader
  readerC1 : Reader
  completions : List Summary
  faults : List FaultEntry
  nextFault : Nat
  latched : List FaultCode
deriving DecidableEq, Repr

/-- The part's clock and the site clock (R165). -/
structure Clock where
  partSeconds : Nat
  site : Nat
  valid : Bool
  pendingTime : Option Nat
deriving DecidableEq, Repr

/-! ### The non-volatile store (R23) -/

/-- A write to the non-volatile store, with what it carries. The removal of a stage takes its completion summary with it
(R8, R161; log entry 47). -/
inductive StoreWrite where
  | stage (s : Stage)
  | stageRemoved (k : StageKey)
  | line (l : LineId) (c : LineSettings)
  | part (c : PartSettings)
  | summary (m : Summary)
  | fault (e : FaultEntry)
  | readers (c0 c1 : Bool)
deriving DecidableEq, Repr

/-- The non-volatile copy. Settings are absent while they have never been written (R27, R174). -/
structure NvCopy where
  stages : List Stage
  lines : Vector (Option LineSettings) 8
  part : Option PartSettings
  completions : List Summary
  faults : List FaultEntry
  nextFault : Nat
  readerC0 : Bool
  readerC1 : Bool
deriving DecidableEq, Repr

/-- The Stage Program Store: the working table, the STORE_FAULT latch, the writes begun and not completed, and
the non-volatile copy. -/
structure Store where
  stages : List Stage
  fault : Bool
  writes : List StoreWrite
  nv : NvCopy
deriving DecidableEq, Repr

/-! ### Answers and ports (10) -/

/-- The status codes (R171). -/
inductive Status where
  | ok | unknownKind | notPermitted | badArgument | wrongState | lineHeld | stageNotReady | portHasGrant
  | noGrant | permitOpen | groutAged | noGrout | mixTooThick | tableFull | inUse | locked | storeFault
  | conditionPresent | exerciseActive | busy
deriving DecidableEq, Repr

/-- The directives (R57). -/
inductive Directive where
  | none | run | hold | quit
deriving DecidableEq, Repr

/-- The values flag (R56). -/
inductive ValuesFlag where
  | none | fresh | stale
deriving DecidableEq, Repr

/-- The answer to a granted or repeated CLAIM (R52, R53). -/
structure ClaimAnswer where
  line : LineId
  key : StageKey
  state : LineState
  directive : Directive
  effective : Nat
  acceptWindow : Nat
  keepalive : Nat
deriving DecidableEq, Repr

/-- The answer to a PUMP_STATUS (R56, R65). -/
structure PumpAnswer where
  line : LineId
  key : StageKey
  state : LineState
  directive : Directive
  endReason : Option EndReason
  valuesFlag : ValuesFlag
  cg : Nat
  ce : Nat
  pe : Nat
  q : Nat
  volume : Nat
  causes : List HoldCause
  effective : Nat
deriving DecidableEq, Repr

/-- What STATUS shows of one line (R172). -/
structure LineSummary where
  state : LineState
  owner : Option Port
  key : Option StageKey
  causes : List HoldCause
deriving DecidableEq, Repr

/-- The answer to STATUS (R172). -/
structure StatusReport where
  mode : Mode
  lockdown : Bool
  upliftStop : Bool
  estop : Bool
  exercise : Nat
  startCheck : Bool
  permitClosed : Bool
  warn : Bool
  degraded : Bool
  enables : Vector Bool 4
  gauges : Vector Gauge 4
  holdAll : Bool
  tankClass : Nat
  mixOrder : Nat
  batches : Nat
  accountedLitres : Nat
  unaccountedLitres : Nat
  oldestMinutes : Nat
  level : Channel
  difference : Int
  levelMismatch : Bool
  waiting : Nat
  waitingKeys : List StageKey
  lines : List LineSummary
  live : List FaultCode
  latched : List FaultCode
  time : Nat
  timeValid : Bool
  portCounters : List (Nat × Nat × Nat × Nat)
  readerSlips : Nat × Nat
deriving DecidableEq, Repr

/-- The contents of an answer after its header, as the owning rules list them. -/
inductive Contents where
  | header
  | claim (a : ClaimAnswer)
  | directive (d : Directive)
  | pump (a : PumpAnswer)
  | status (r : StatusReport)
  | stageRead (count position : Nat) (s : Stage)
  /-- The line record with the other records of the line, and its grant record whole (R173). -/
  | lineRead (l : Line) (grant : Option GrantReport)
  /-- `slip` is the port's slip flag as it stood before the read cleared it (R157). -/
  | alerts (entries : List AlertEntry) (slip : Bool)
  | mask (m : BitVec 32)
  | stageStatus (s : Option StageStatus)
  | batch (number held tankClass litres : Nat)
  | dump (removed litres : Nat)
  | baselines (b : List (Option Int))
  | readers (c0 c1 : Bool)
  | records (r : List InjectionRecord) (unread : Nat)
  | completions (held : Nat) (m : List Summary)
  | faults (held : Nat) (e : List FaultEntry)
  | connections (held : Nat) (r : List ConnectionRecord)
  | time (t : Nat)
deriving DecidableEq, Repr

/-- An answer frame: kind byte, tag, the header of R171 and the contents. -/
structure Answer where
  kind : Byte
  tag : Byte
  status : Status
  queued : Nat
  highest : Nat
  slip : Bool
  mode : Mode
  contents : Contents
deriving DecidableEq, Repr

/-- The receiver states (R167). -/
inductive Receiver where
  | awaitStart | receiving | answering | discarding
deriving DecidableEq, Repr

/-- The notice of a cut grant (R64). -/
structure CutNotice where
  line : LineId
  key : StageKey
  reason : EndReason
deriving DecidableEq, Repr

/-- One port: its receiver and counters (R167), its alert queue and mask (R154, R155), its cut notice (R64).
`sending`: an answer is not yet fully sent (R169). `answer`: the latest answer made (log entry 28). -/
structure PortRecord where
  receiver : Receiver
  sending : Bool
  answer : Option Answer
  crc : Counter
  framing : Counter
  overrun : Counter
  slip : Counter
  slipFlag : Bool
  mask : BitVec 32
  queue : List AlertEntry
  cut : Option CutNotice
deriving DecidableEq, Repr

/-! ### The state -/

/-- The state of the part, and the queue of commands waiting for it. -/
structure State where
  pending : List Instr
  store : Store
  lines : Vector Line 8
  holdAll : Bool
  gauges : Vector Gauge 4
  level : Channel
  settings : PartSettings
  grout : Grout
  stop : StopUnit
  ports : Vector PortRecord 6
  exercise : Nat
  record : Records
  connections : ConnectionLog
  clock : Clock
  free : Nat
deriving DecidableEq, Repr

/-! ### The state after power-on of a part as delivered -/

/-- The default part settings (R174). -/
def PartSettings.default : PartSettings :=
  { travelTime := 8, acceptWindow := 60, keepalive := 3, holdLimit := 20, recordInterval := 10, ageLimit := 90,
    residueLimit := 100, levelTolerance := 80, tankCapacity := 2000, derate := 80, lossCount := 3,
    warnThreshold := 50, stopThreshold := 100, hysteresis := 10, wide := false,
    gauges := #v[true, true, true, true] }

/-- The default line settings (section 2.2). -/
def LineSettings.default : LineSettings :=
  { present := true, range := 10000, weight := 50, hose := 40, friction := 20, watch := 100 }

/-- A counter at power-on (R164). -/
def Counter.zero : Counter := { count := 0, posted := false }

/-- A channel in service at power-on (R82). -/
def Channel.fresh : Channel :=
  { validity := .suspect, bad := 0, value := 0, noValue := true, ref := none, counter := Counter.zero }

/-- A present line at power-on (R27, R46), with its settings and the valve travel time in force. -/
def Line.fresh (c : LineSettings) (travelTime : Nat) : Line :=
  { state := .closing, stage := none, command := .closed, readback := .travel,
    travel := some ⟨.closed, travelTime, 0⟩, invalid := 0, causes := [], holdTimer := none, isolation := none,
    watch := none, startCheck := true, settings := c, inForce := c, values := none, classes := none,
    transit := [], mixLag := false, grant := none, decision := none, recordTimer := none, window := [],
    pulses := 0, lastQ := 0, ring := [], pressure := Channel.fresh, flow := Channel.fresh }

/-- A gauge at power-on (R137, R82). -/
def Gauge.fresh : Gauge :=
  { channel := Channel.fresh, baseline := none, u := 0, warning := false, warnCount := 0, clearCount := 0,
    stopCount := 0, judged := false }

/-- The Grout Supply Unit at power-on (R121, R126, R128 to R130). -/
def Grout.fresh : Grout :=
  { batches := [], nextBatch := 1, aged := false, unaccounted := 0, noGrout := false, mixOrder := 0,
    mismatch := 0, matched := 0, levelMismatch := false, difference := 0, levelPeriod := 0 }

/-- The Uplift and Stop Unit at power-on with a start check begun and UPLIFT_WARN forced (R137, R144, R151). -/
def StopUnit.fresh : StopUnit :=
  { warn := true, degraded := true, upliftStop := false, estop := false, openCount := 0, closedCount := 0,
    startCheck := true, checkDone := false, lockdown := false }

/-- The mask with every kind enabled: bits 0 to 24 (R154, R175). -/
def fullMask : BitVec 32 := 0x01FFFFFF#32

/-- A port at power-on (R49, R154, R155, R167). -/
def PortRecord.fresh : PortRecord :=
  { receiver := .awaitStart, sending := false, answer := none, crc := Counter.zero, framing := Counter.zero,
    overrun := Counter.zero, slip := Counter.zero, slipFlag := false, mask := fullMask, queue := [], cut := none }

/-- A reader at power-on (R159). -/
def Reader.fresh (enabled : Bool) : Reader := { enabled := enabled, unread := 0, slips := Counter.zero }

/-- The non-volatile copy of a part delivered from the factory (R1, R27, R159, R161, R162, R174). -/
def NvCopy.factory : NvCopy :=
  { stages := [], lines := #v[none, none, none, none, none, none, none, none], part := none, completions := [],
    faults := [], nextFault := 1, readerC0 := false, readerC1 := true }

/-- A console's port right after power-on: UPLIFT_WARN has been posted to it (R151, log entry 14). -/
def PortRecord.freshConsole : PortRecord :=
  { PortRecord.fresh with
    queue := [{ kind := .upliftWarn, time := 0, line := none, key := none, detail := some 0, exercise := false,
                repeats := 1 }] }

/-- The part right after power-on as delivered: factory store, self-check passed, battery-backed clock valid and
at 0 (log entry 1). -/
def State.reset : State :=
  let line := Line.fresh LineSettings.default PartSettings.default.travelTime
  { pending := []
    store := { stages := [], fault := false, writes := [], nv := NvCopy.factory }
    lines := #v[line, line, line, line, line, line, line, line]
    holdAll := false
    gauges := #v[Gauge.fresh, Gauge.fresh, Gauge.fresh, Gauge.fresh]
    level := Channel.fresh
    settings := PartSettings.default
    grout := Grout.fresh
    stop := StopUnit.fresh
    ports := #v[PortRecord.fresh, PortRecord.fresh, PortRecord.fresh, PortRecord.fresh,
                PortRecord.freshConsole, PortRecord.freshConsole]
    exercise := 0
    record :=
      { records := [], nextRecord := 1, readerC0 := Reader.fresh false, readerC1 := Reader.fresh true,
        completions := [], faults := [], nextFault := 1, latched := [] }
    connections := { records := [], nextNumber := 1 }
    clock := { partSeconds := 0, site := 0, valid := true, pendingTime := none }
    free := 0 }

end Sys2Proof.Machine
end

