-- ==== Sys2Proof/Machine/Access.lean ====
section
/-! DEFINITION. Reading and replacing one line, gauge, port or stage of the state. Every other operation goes
through these. -/

namespace Sys2Proof.Machine

/-- The lines, in ascending number. -/
def lineIds : List LineId := [0, 1, 2, 3, 4, 5, 6, 7]

/-- The gauges, G1 first. -/
def gaugeIds : List GaugeId := [0, 1, 2, 3]

/-- The pump ports (R167). -/
def pumpPorts : List Port := [.p0, .p1, .p2, .p3]

/-- The console ports (R167). -/
def consolePorts : List Port := [.c0, .c1]

/-- All six ports. -/
def allPorts : List Port := [.p0, .p1, .p2, .p3, .c0, .c1]

/-- The place of a port's record. -/
def portIndex : Port → Fin 6
  | .p0 => 0 | .p1 => 1 | .p2 => 2 | .p3 => 3 | .c0 => 4 | .c1 => 5

/-- The line a request names, or none for a number outside 0–7. -/
def lineOf? (n : Nat) : Option LineId := if h : n < 8 then some ⟨n, h⟩ else none

/-! ### Lines -/

/-- The record of a line. -/
def State.line (s : State) (l : LineId) : Line := s.lines.get l

/-- The state with a line's record replaced. -/
def State.setLine (s : State) (l : LineId) (x : Line) : State := { s with lines := s.lines.set l.val x l.isLt }

/-- The state with a line's record changed by `f`. -/
def State.updLine (l : LineId) (f : Line → Line) (s : State) : State := s.setLine l (f (s.line l))

/-- `f` done for each line in turn, in ascending number. -/
def forLines (f : LineId → State → State) (s : State) : State := lineIds.foldl (fun s l => f l s) s

/-- Whether some line satisfies `q`. -/
def State.anyLine (s : State) (q : Line → Bool) : Bool := lineIds.any (fun l => q (s.line l))

/-! ### Gauges -/

/-- The record of a gauge. -/
def State.gauge (s : State) (g : GaugeId) : Gauge := s.gauges.get g

/-- The state with a gauge's record replaced. -/
def State.setGauge (s : State) (g : GaugeId) (x : Gauge) : State := { s with gauges := s.gauges.set g.val x g.isLt }

/-- The state with a gauge's record changed by `f`. -/
def State.updGauge (g : GaugeId) (f : Gauge → Gauge) (s : State) : State := s.setGauge g (f (s.gauge g))

/-- Whether a gauge is enabled (R68, R174). -/
def State.enabled (s : State) (g : GaugeId) : Bool := s.settings.gauges.get g

/-! ### Ports -/

/-- The record of a port. -/
def State.port (s : State) (p : Port) : PortRecord := s.ports.get (portIndex p)

/-- The state with a port's record replaced. -/
def State.setPort (s : State) (p : Port) (x : PortRecord) : State :=
  { s with ports := s.ports.set (portIndex p).val x (portIndex p).isLt }

/-- The state with a port's record changed by `f`. -/
def State.updPort (p : Port) (f : PortRecord → PortRecord) (s : State) : State := s.setPort p (f (s.port p))

/-! ### The stage table -/

/-- A stage's key. -/
def Stage.key (x : Stage) : StageKey := x.fields.key

/-- The key order of R1: by hole number, and within one hole by stage number. -/
def keyBefore (a b : StageKey) : Bool := a.hole < b.hole || (a.hole == b.hole && a.stage < b.stage)

/-- The record with a key, if the list holds one. -/
def lookupStage (k : StageKey) (stages : List Stage) : Option Stage := stages.find? (fun x => x.key == k)

/-- A record put at its place in key order, replacing one with its key. -/
def insertStage (x : Stage) : List Stage → List Stage
  | [] => [x]
  | y :: ys =>
    if y.key = x.key then x :: ys
    else if keyBefore x.key y.key then x :: y :: ys
    else y :: insertStage x ys

/-- The record with a key taken out. -/
def removeStage (k : StageKey) (stages : List Stage) : List Stage := stages.filter (fun x => x.key != k)

/-- The record with a key changed by `f`. -/
def mapStage (k : StageKey) (f : Stage → Stage) (stages : List Stage) : List Stage :=
  stages.map (fun x => if x.key = k then f x else x)

/-- The stage with a key in the working table. -/
def State.stage? (s : State) (k : StageKey) : Option Stage := lookupStage k s.store.stages

/-- The working table replaced. -/
def State.setStages (stages : List Stage) (s : State) : State := { s with store := { s.store with stages := stages } }

/-- One stage of the working table changed by `f`. -/
def State.updStage (k : StageKey) (f : Stage → Stage) (s : State) : State :=
  s.setStages (mapStage k f s.store.stages)

/-- The stage a line is bound to. -/
def State.boundStage (s : State) (l : LineId) : Option Stage := (s.line l).stage.bind s.stage?

/-! ### The other blocks -/

/-- The Grout Supply Unit changed by `f`. -/
def State.updGrout (f : Grout → Grout) (s : State) : State := { s with grout := f s.grout }

/-- The Uplift and Stop Unit changed by `f`. -/
def State.updStop (f : StopUnit → StopUnit) (s : State) : State := { s with stop := f s.stop }

/-- The records changed by `f`. -/
def State.updRecord (f : Records → Records) (s : State) : State := { s with record := f s.record }

/-- The last `n` entries of a list. -/
def lastN {α : Type} (n : Nat) (xs : List α) : List α := xs.drop (xs.length - n)

/-- Numbers that run 1–65535 and start again at 1 (R119, R121, R158, R162). -/
def nextNumber (n : Nat) : Nat := if n < 65535 then n + 1 else 1

end Sys2Proof.Machine
end

