-- ==== Sys2Proof/Machine/Flags.lean ====
section
/-! DEFINITION. What the spec makes a function of the state at every moment: owners, live flags, the permit relay,
the part mode, the tank class, and the codes, levels and bits under which the spec numbers them (R175). -/

namespace Sys2Proof.Machine

/-! ### Codes (R175) -/

/-- Line states in the order of section 2.3, IDLE 0 to ISOLATED 7. -/
def LineState.code : LineState → Nat
  | .idle => 0 | .watch => 1 | .opening => 2 | .armed => 3 | .injecting => 4 | .holding => 5 | .closing => 6
  | .isolated => 7

/-- Stage statuses in the order of section 1.2, DRAFT 0 to ABANDONED 6. -/
def StageStatus.code : StageStatus → Nat
  | .draft => 0 | .ready => 1 | .blocked => 2 | .active => 3 | .suspended => 4 | .complete => 5 | .abandoned => 6

/-- Stage end causes, REFUSAL 1 to VALVE_FAULT 12. -/
def EndCause.code : EndCause → Nat
  | .refusal => 1 | .volumeCap => 2 | .intensityCap => 3 | .closedByConsole => 4 | .abandonedByConsole => 5
  | .keepaliveLost => 6 | .releasedEarly => 7 | .holdTimeout => 8 | .powerLoss => 9 | .lockdown => 10
  | .reset => 11 | .valveFault => 12

/-- Grant end reasons, REFUSAL 1 to RESET 14. -/
def EndReason.code : EndReason → Nat
  | .refusal => 1 | .volumeCap => 2 | .intensityCap => 3 | .closedByConsole => 4 | .abandonedByConsole => 5
  | .holdTimeout => 6 | .acceptExpired => 7 | .keepaliveLost => 8 | .released => 9 | .upliftStop => 10
  | .estop => 11 | .valveFault => 12 | .lockdown => 13 | .reset => 14

/-- Alert kinds, UPLIFT_STOP 1 to COUNTER_SATURATED 25. -/
def AlertKind.code : AlertKind → Nat
  | .upliftStop => 1 | .lockdown => 2 | .estop => 3 | .valveFault => 4 | .fracture => 5 | .overpressure => 6
  | .sensorLost => 7 | .upliftWarn => 8 | .connectionHold => 9 | .keepaliveLost => 10 | .aged => 11
  | .stageSuspended => 12 | .noGroutAccount => 13 | .storeFault => 14 | .stageComplete => 15 | .holdCleared => 16
  | .connectionNote => 17 | .levelMismatch => 18 | .blend => 19 | .offOrder => 20 | .mixOrder => 21
  | .mixLag => 22 | .stageReady => 23 | .recordSlip => 24 | .counterSaturated => 25

/-- The level of each alert kind (section 9.1). -/
def AlertKind.level : AlertKind → Nat
  | .upliftStop | .lockdown => 7
  | .estop | .valveFault | .fracture => 6
  | .overpressure | .sensorLost | .upliftWarn | .connectionHold | .keepaliveLost => 5
  | .aged | .stageSuspended | .noGroutAccount | .storeFault => 4
  | .stageComplete | .holdCleared | .connectionNote | .levelMismatch | .blend | .offOrder => 3
  | .mixOrder | .mixLag | .stageReady | .recordSlip => 2
  | .counterSaturated => 1

/-- Part modes, NORMAL 0 to EXERCISE 4. -/
def Mode.code : Mode → Nat
  | .normal => 0 | .upliftStop => 1 | .estop => 2 | .lockdown => 3 | .exercise => 4

/-- Directives, NONE 0 to END 3. -/
def Directive.code : Directive → Nat
  | .none => 0 | .run => 1 | .hold => 2 | .quit => 3

/-- Values flags, NONE 0 to STALE 2. -/
def ValuesFlag.code : ValuesFlag → Nat
  | .none => 0 | .fresh => 1 | .stale => 2

/-- Every fault code. -/
def FaultCode.all : List FaultCode :=
  [.valveNoOpen, .valveNoClose, .valveBothSwitches, .valveUncommanded, .pressureLost, .flowLost,
   .upliftGaugeLost, .levelLost, .keepaliveLost, .holdTimeout, .upliftStop, .estop, .storeWrite, .powerLoss,
   .rtcInvalid, .lockdown]

/-- The fault codes of section 9.8. -/
def FaultCode.code : FaultCode → Nat
  | .valveNoOpen => 1 | .valveNoClose => 2 | .valveBothSwitches => 3 | .valveUncommanded => 4
  | .pressureLost => 10 | .flowLost => 11 | .upliftGaugeLost => 12 | .levelLost => 13
  | .keepaliveLost => 20 | .holdTimeout => 21 | .upliftStop => 30 | .estop => 31
  | .storeWrite => 40 | .powerLoss => 41 | .rtcInvalid => 42 | .lockdown => 50

/-- The fault a code stands for, if it is in the table. -/
def FaultCode.ofCode? (n : Nat) : Option FaultCode := FaultCode.all.find? (fun c => c.code == n)

/-- The code of a valve fault (R34 to R36). -/
def ValveFault.faultCode : ValveFault → FaultCode
  | .noOpen => .valveNoOpen | .noClose => .valveNoClose | .bothSwitches => .valveBothSwitches
  | .uncommanded => .valveUncommanded

/-- Isolation reasons: the valve faults by their codes, CONSOLE 16, NOT_PRESENT 17. -/
def IsolationReason.code : IsolationReason → Nat
  | .fault f => f.faultCode.code | .console => 16 | .notPresent => 17

/-- Consequence classes in the order of R162, RECORD 0 to LOCKDOWN 6. -/
def Consequence.code : Consequence → Nat
  | .record => 0 | .derate => 1 | .hold => 2 | .isolate => 3 | .suspend => 4 | .stop => 5 | .lockdown => 6

/-- Channel validity states, VALID 0 to OFF 5. -/
def Validity.code : Validity → Nat
  | .valid => 0 | .suspect => 1 | .lost => 2 | .regain1 => 3 | .regain2 => 4 | .off => 5

/-- Status codes (R171). -/
def Status.code : Status → Nat
  | .ok => 0 | .unknownKind => 1 | .notPermitted => 2 | .badArgument => 3 | .wrongState => 4 | .lineHeld => 5
  | .stageNotReady => 6 | .portHasGrant => 7 | .noGrant => 8 | .permitOpen => 9 | .groutAged => 10
  | .noGrout => 11 | .mixTooThick => 12 | .tableFull => 13 | .inUse => 14 | .locked => 15 | .storeFault => 16
  | .conditionPresent => 17 | .exerciseActive => 18 | .busy => 19

/-- Every hold cause, in the order of their bits. -/
def HoldCause.all : List HoldCause :=
  [.console, .pump, .overpressure, .fracture, .connection, .sensor, .aged, .uplift, .estop]

/-- The bit of a hold cause: bit 0 CONSOLE up to bit 8 ESTOP. -/
def HoldCause.bit : HoldCause → Nat
  | .console => 0 | .pump => 1 | .overpressure => 2 | .fracture => 3 | .connection => 4 | .sensor => 5
  | .aged => 6 | .uplift => 7 | .estop => 8

/-- A cause set as the two bytes it is carried in. -/
def causeWord (c : List HoldCause) : Nat := c.foldl (fun n x => n ||| 2 ^ x.bit) 0

/-- A set of causes with one more, kept in the order of the bits, so that equal sets are equal lists. -/
def withCause (c : HoldCause) (set : List HoldCause) : List HoldCause :=
  HoldCause.all.filter (fun x => x == c || set.contains x)

/-- A set of causes with one less. -/
def withoutCause (c : HoldCause) (set : List HoldCause) : List HoldCause := set.filter (fun x => x != c)

/-! ### Lines, grants and channels -/

/-- OPENING, ARMED, INJECTING and HOLDING: the states of a LIVE grant (R49). -/
def LineState.live : LineState → Bool
  | .opening | .armed | .injecting | .holding => true
  | .idle | .watch | .closing | .isolated => false

/-- ARMED, INJECTING and HOLDING: the states with an envelope (section 2.3), a record timer (R158) and a demand
on the mix order (R130). -/
def LineState.evaluated : LineState → Bool
  | .armed | .injecting | .holding => true
  | .idle | .watch | .opening | .closing | .isolated => false

/-- The stage a line carries: its bound stage in OPENING, ARMED, INJECTING or HOLDING. A line in CLOSING still names a
stage that it no longer carries (R11, R31; log entry 27). -/
def Line.carried (x : Line) : Option StageKey := if x.state.live then x.stage else none

/-- The owner port of a line: the port that holds its grant (R49). -/
def Line.owner (x : Line) : Option Port := x.grant.map Grant.owner

/-- The line whose grant a port holds (section 3.1, port record). -/
def State.portGrant (s : State) (p : Port) : Option LineId :=
  lineIds.find? (fun l => (s.line l).owner == some p)

/-- The pump ports that hold a grant, LIVE or ENDING. -/
def State.grantedPorts (s : State) : List Port := pumpPorts.filter (fun p => (s.portGrant p).isSome)

/-- LOST, REGAIN1 or REGAIN2: a loss is in progress (R77). -/
def Channel.inLoss (c : Channel) : Bool :=
  match c.validity with
  | .lost | .regain1 | .regain2 => true
  | .valid | .suspect | .off => false

/-- The channel is VALID. -/
def Channel.isValid (c : Channel) : Bool := c.validity == .valid

/-- One of the line's two channels is in a loss (R78). -/
def Line.sensorLoss (x : Line) : Bool := x.pressure.inLoss || x.flow.inLoss

/-! ### Grout -/

/-- The accounted tank volume in mL (R121). -/
def Grout.accounted (g : Grout) : Nat := (g.batches.map Batch.remaining).sum

/-- The tank class: the highest class in the batch list, 0 when it is empty (R121). -/
def Grout.tankClass (g : Grout) : Nat := (g.batches.map Batch.cls).foldl max 0

/-- The age of the oldest batch in seconds, 0 when the difference is negative or the list is empty (R128). -/
def State.oldestAge (s : State) : Nat :=
  match s.grout.batches with
  | [] => 0
  | b :: _ => s.clock.site - b.mixedAt

/-- The tank is aged as R128 decides it: a batch is held and the oldest is over the limit. -/
def State.isAged (s : State) : Bool :=
  !s.grout.batches.isEmpty && s.settings.ageLimit * 60 < s.oldestAge

/-- The classes of which the mix order is the lowest (R130). -/
def State.orderInputs (s : State) : List Nat :=
  (lineIds.filterMap (fun l =>
    if (s.line l).state.evaluated then (s.line l).classes.map Classes.demanded else none)) ++
  (s.store.stages.filterMap (fun x => if x.waiting then some x.fields.startClass else none))

/-- The lowest of the classes, or 0 when there is none. -/
def lowestClass : List Nat → Nat
  | [] => 0
  | c :: cs => cs.foldl min c

/-! ### Uplift, permit and mode -/

/-- A gauge that is enabled, VALID and has a baseline (section 8.1; log entry 15). -/
def State.judgedNow (s : State) (g : GaugeId) : Bool :=
  s.enabled g && (s.gauge g).channel.isValid && (s.gauge g).baseline.isSome

/-- An enabled gauge that is warning or whose channel is in a loss (R140). -/
def State.gaugeWarns (s : State) (g : GaugeId) : Bool :=
  s.enabled g && ((s.gauge g).warning || (s.gauge g).channel.inLoss)

/-- The forced warn: fewer than two enabled gauges are judged (R140). -/
def State.forcedWarn (s : State) : Bool := (gaugeIds.filter s.judgedNow).length < 2

/-- A gauge below warn for UPLIFT_CLEAR: judged at its latest sample event, its u there below the warn
threshold in force at the request (R142; log entry 46). -/
def State.belowWarn (s : State) (g : GaugeId) : Bool :=
  (s.gauge g).judged && (s.gauge g).u < s.settings.warnThreshold

/-- The permit relay is closed (R145). -/
def State.permitClosed (s : State) : Bool :=
  !s.stop.lockdown && !s.stop.upliftStop && !s.stop.estop && !s.stop.startCheck && s.stop.checkDone &&
  s.exercise != 1

/-- The part mode (R146). -/
def State.mode (s : State) : Mode :=
  if s.stop.lockdown then .lockdown
  else if s.stop.upliftStop then .upliftStop
  else if s.stop.estop then .estop
  else if s.exercise ≠ 0 then .exercise
  else .normal

/-! ### Live flags (section 9.8) -/

/-- A line stands ISOLATED with the valve fault as its reason. -/
def State.isolatedWith (s : State) (f : ValveFault) : Bool :=
  s.anyLine (fun x => x.state == .isolated && x.isolation == some (.fault f))

/-- The live flag of a fault code; a code without one is never live (section 9.8, R163). -/
def State.live (s : State) : FaultCode → Bool
  | .valveNoOpen => s.isolatedWith .noOpen
  | .valveNoClose => s.isolatedWith .noClose
  | .valveBothSwitches => s.isolatedWith .bothSwitches
  | .valveUncommanded => s.isolatedWith .uncommanded
  | .pressureLost => s.anyLine (fun x => x.pressure.inLoss)
  | .flowLost => s.anyLine (fun x => x.flow.inLoss)
  | .upliftGaugeLost => gaugeIds.any (fun g => (s.gauge g).channel.inLoss)
  | .levelLost => s.level.inLoss
  | .keepaliveLost | .holdTimeout | .powerLoss => false
  | .upliftStop => s.stop.upliftStop
  | .estop => s.stop.estop
  | .storeWrite => s.store.fault
  | .rtcInvalid => !s.clock.valid
  | .lockdown => s.stop.lockdown

/-! ### Counters -/

/-- The top of every saturating counter: 255, or 1023 with wide counters (R79, R164). -/
def State.counterTop (s : State) : Nat := if s.settings.wide then 1023 else 255

/-- A saturating count with one more; one that stands above its top is left as it is (log entry 55). -/
def satSucc (top n : Nat) : Nat := if n < top then n + 1 else n

end Sys2Proof.Machine
end

