-- ==== Sys2Proof/Machine/Ops.lean ====
section
/-! DEFINITION. The operations every block shares: posting alerts (R152 to R156), saturating counters (R164), fault
entries (R162), writes to the non-volatile store (R23), and taking and answering a request (R50, R168 to R171). -/

namespace Sys2Proof.Machine

/-! ### Counters (R164) -/

/-- A counter after one more count, and whether this count brought it to its top with its flag clear, so that
COUNTER_SATURATED is posted and the flag set. -/
def Counter.bump (top : Nat) (c : Counter) : Counter × Bool :=
  if c.count < top then
    if c.count + 1 = top ∧ c.posted = false then ({ count := c.count + 1, posted := true }, true)
    else ({ c with count := c.count + 1 }, false)
  else (c, false)

/-- A counter when wide counting is turned off: clamped to 255, and posted if that is its top and its flag is
clear (R79, R80, R164; log entry 21). -/
def Counter.narrow (c : Counter) : Counter × Bool :=
  if 255 ≤ c.count then ({ count := 255, posted := true }, !c.posted) else (c, false)

/-! ### Posting an alert (R152 to R156) -/

/-- An alert as its block posts it; the unit adds the site time. -/
structure Posting where
  kind : AlertKind
  line : Option LineId
  key : Option StageKey
  detail : Option Int
  exercise : Bool
deriving DecidableEq, Repr

/-- The port's mask enables the kind (R154). -/
def PortRecord.unmasked (x : PortRecord) (k : AlertKind) : Bool := x.mask.getLsbD (k.code - 1)

/-- The entry has the posting's kind, line and stage key (R155). -/
def AlertEntry.matchesPosting (e : AlertEntry) (a : Posting) : Bool :=
  e.kind == a.kind && e.line == a.line && e.key == a.key

/-- A new entry for a posting (R155). -/
def Posting.entry (a : Posting) (time : Nat) : AlertEntry :=
  { kind := a.kind, time := time, line := a.line, key := a.key, detail := a.detail, exercise := a.exercise,
    repeats := 1 }

/-- An entry with a posting merged into it (R155). -/
def AlertEntry.merge (e : AlertEntry) (a : Posting) (time : Nat) : AlertEntry :=
  { e with time := time, detail := a.detail, exercise := e.exercise && a.exercise,
           repeats := satSucc 255 e.repeats }

/-- The lowest level among the entries; 8 for an empty queue. -/
def lowestLevel (q : List AlertEntry) : Nat := (q.map (fun e => e.kind.level)).foldl min 8

/-- The highest level among the entries, 0 for an empty queue (R157). -/
def highestLevel (q : List AlertEntry) : Nat := (q.map (fun e => e.kind.level)).foldl max 0

/-- A slip: the slip flag is set and the alert slip counter counts (R156). -/
def PortRecord.countSlip (top : Nat) (x : PortRecord) : PortRecord × Bool :=
  ({ x with slipFlag := true, slip := (x.slip.bump top).1 }, (x.slip.bump top).2)

/-- An alert offered to one port (R154 to R156), and whether the port's alert slip counter saturated by it. -/
def PortRecord.offer (top time : Nat) (a : Posting) (x : PortRecord) : PortRecord × Bool :=
  if !x.unmasked a.kind then (x, false)
  else if x.queue.any (fun e => e.matchesPosting a) then
    ({ x with queue := x.queue.map (fun e => if e.matchesPosting a then e.merge a time else e) }, false)
  else if x.queue.length < 16 then ({ x with queue := x.queue ++ [a.entry time] }, false)
  else if 5 ≤ a.kind.level ∧ lowestLevel x.queue < a.kind.level then
    let low := lowestLevel x.queue
    ({ x with queue := x.queue.eraseP (fun e => e.kind.level == low) ++ [a.entry time] } : PortRecord).countSlip top
  else x.countSlip top

/-- An alert offered to one port of the state. -/
def State.offerPort (s : State) (a : Posting) (p : Port) : State × Bool :=
  let r := (s.port p).offer s.counterTop s.clock.site a
  (s.setPort p r.1, r.2)

/-- An alert offered to each port of a route, and the ports whose slip counters saturated by it. -/
def State.offerAll (s : State) (a : Posting) (route : List Port) : State × List Port :=
  route.foldl
    (fun acc p =>
      let r := acc.1.offerPort a p
      (r.1, if r.2 then acc.2 ++ [p] else acc.2))
    (s, [])

/-- The route of a part-scoped alert: both consoles, and from level 5 every pump port that holds a grant (R153). -/
def State.partRoute (s : State) (k : AlertKind) : List Port :=
  if 5 ≤ k.level then s.grantedPorts ++ consolePorts else consolePorts

/-- The route of a line-scoped alert: the port that holds the line's grant, and both consoles (R153). -/
def State.lineRoute (s : State) (l : LineId) : List Port := (s.line l).owner.toList ++ consolePorts

/-- The codes of a port's counters in the detail of COUNTER_SATURATED (R164). -/
inductive PortCounter where
  | crc | framing | overrun | slip
deriving DecidableEq, Repr

/-- 100 + 4 × the port's code + the counter's code (R164). -/
def portCounterDetail (p : Port) (c : PortCounter) : Int :=
  100 + 4 * (p.code : Int) +
    (match c with | .crc => 0 | .framing => 1 | .overrun => 2 | .slip => 3)

/-- COUNTER_SATURATED for a port or reader counter: part-scoped, no line. -/
def saturatedPosting (detail : Int) : Posting :=
  { kind := .counterSaturated, line := none, key := none, detail := some detail, exercise := false }

/-- An alert posted to a route. A slip counter that saturates by it posts COUNTER_SATURATED in turn, once the whole route has
been offered the alert, port by port in route order (R156, R164; log entry 13); each of the six counters posts at most once, so `fuel` 7 is never used up. -/
def postFuel (fuel : Nat) (a : Posting) (route : List Port) (s : State) : State :=
  match fuel with
  | 0 => s
  | n + 1 =>
    let r := s.offerAll a route
    r.2.foldl
      (fun s p => postFuel n (saturatedPosting (portCounterDetail p .slip)) (s.partRoute .counterSaturated) s) r.1

/-- An alert posted to a route. -/
def post (a : Posting) (route : List Port) (s : State) : State := postFuel 7 a route s

/-- A part-scoped alert (R153). -/
def postPart (k : AlertKind) (detail : Option Int) (s : State) : State :=
  post { kind := k, line := none, key := none, detail := detail, exercise := false } (s.partRoute k) s

/-- A line-scoped alert, carrying the line and its bound stage's key (R153; log entry 24). -/
def postLine (l : LineId) (k : AlertKind) (detail : Option Int) (s : State) : State :=
  post { kind := k, line := some l, key := (s.line l).stage, detail := detail, exercise := false } (s.lineRoute l) s

/-- STAGE_SUSPENDED or STAGE_COMPLETE: line/stage scope (R153). -/
def postStage (l : Option LineId) (key : StageKey) (k : AlertKind) (detail : Int) (s : State) : State :=
  post { kind := k, line := l, key := some key, detail := some detail, exercise := false }
    (match l with | some l => s.lineRoute l | none => consolePorts) s

/-- COUNTER_SATURATED posted where a count says so. -/
def postSaturated (yes : Bool) (detail : Int) (s : State) : State :=
  if yes then post (saturatedPosting detail) (s.partRoute .counterSaturated) s else s

/-! ### Writes to the non-volatile store (R23, R24) -/

/-- A write begun, unless STORE_FAULT is latched. It completes later (log entry 9). -/
def writeThrough (w : StoreWrite) (s : State) : State :=
  if s.store.fault then s else { s with store := { s.store with writes := s.store.writes ++ [w] } }

/-- A stage record as it is stored: without the pending decision and the waiting-for-mix flag (R20, R23). -/
def Stage.stored (x : Stage) : Stage := { x with decision := ⟨false, false⟩, waiting := false }

/-- A stage's record written through (R23). -/
def saveStage (k : StageKey) (s : State) : State :=
  match s.stage? k with
  | some x => writeThrough (.stage x.stored) s
  | none => s

/-! ### Fault entries (R162, R163) -/

/-- An entry appended to a full or part-full history of 16. -/
def appendFault (e : FaultEntry) (h : List FaultEntry) : List FaultEntry := lastN 16 (h ++ [e])

/-- A fault entry made: appended, its latched flag set, and written through. -/
def enterFault (code : FaultCode) (detail : FaultDetail) (location : Option FaultLocation) (c : Consequence)
    (s : State) : State :=
  let e : FaultEntry :=
    { number := s.record.nextFault, code := code, detail := detail, time := s.clock.site, location := location,
      consequence := c }
  writeThrough (.fault e)
    (s.updRecord (fun r =>
      { r with faults := appendFault e r.faults, nextFault := nextNumber r.nextFault,
               latched := if r.latched.contains code then r.latched else r.latched ++ [code] }))

/-! ### Taking a request (R50, R168 to R171) -/

/-- A timer started again from zero. -/
def Timer.restart (t : Timer) : Timer := { t with elapsed := 0 }

/-- The keepalive of the LIVE grant a port owns, restarted by any request taken from it (R50). -/
def restartKeepalive (p : Port) (s : State) : State :=
  match s.portGrant p with
  | some l =>
    s.updLine l (fun x =>
      { x with grant := x.grant.map (fun g =>
          if g.phase = .live then { g with keepalive := g.keepalive.map Timer.restart } else g) })
  | none => s

/-- A start byte received in ANSWERING: the overrun counter counts and the receiver discards (R169). -/
def countOverrun (p : Port) (s : State) : State :=
  let r := (s.port p).overrun.bump s.counterTop
  postSaturated r.2 (portCounterDetail p .overrun)
    (s.updPort p (fun x => { x with receiver := .discarding, overrun := r.1 }))

/-- What the answer to a request is made of: its status, its contents, and the state the request leaves. -/
structure Reply where
  status : Status
  contents : Contents
  state : State

/-- A refused request changes nothing more and is answered with the header alone (R170). -/
def refuse (st : Status) (s : State) : Reply := { status := st, contents := .header, state := s }

/-- An OK answer with contents. -/
def accept (c : Contents) (s : State) : Reply := { status := .ok, contents := c, state := s }

/-- The slip flag in an answer's header: for READ_ALERTS as it stood before the read (R157). -/
def headerSlip (c : Contents) (x : PortRecord) : Bool :=
  match c with
  | .alerts _ slip => slip
  | _ => x.slipFlag

/-- The kind byte of an answer: the request kind plus 80h, or FFh for a request of kind 80h or above (R170). -/
def answerKind (kind : Byte) : Byte := if kind.toNat < 0x80 then kind + 0x80 else 0xFF

/-- The answer made and begun to be sent, its header taken after the request has acted (R157, R171). -/
def respond (p : Port) (kind tag : Byte) (r : Reply) : State :=
  r.state.updPort p (fun x =>
    { x with
      sending := true
      answer := some
        { kind := answerKind kind, tag := tag, status := r.status, queued := x.queue.length,
          highest := highestLevel x.queue, slip := headerSlip r.contents x, mode := r.state.mode,
          contents := r.contents } })

/-- A whole frame with an agreeing CRC arriving at a port (R168, R169; log entry 5). In AWAIT_START and RECEIVING
it is taken: the receiver goes to ANSWERING, the sender's keepalive restarts, and `act` handles the request.
In ANSWERING its start byte is an overrun; in DISCARDING it is ignored. -/
def receive (p : Port) (act : State → State) (s : State) : State :=
  match (s.port p).receiver with
  | .awaitStart | .receiving => act (restartKeepalive p (s.updPort p (fun x => { x with receiver := .answering })))
  | .answering => countOverrun p s
  | .discarding => s

/-- A request of a known kind: role, body length, then its own checks and effect `own` (R170). -/
def request {α : Type} (k : RequestKind) (p : Port) (tag : Byte) (b : Body α) (own : α → State → Reply)
    (s : State) : Host.Outcome State Fault Refusal :=
  .next (receive p (fun s =>
    respond p k.code tag
      (if k.permits p then
        match b with
        | .args a => own a s
        | .wrongLength _ => refuse .badArgument s
      else refuse .notPermitted s)) s)

/-- A request refused LOCKED in LOCKDOWN as the first of its own checks (R149). -/
def unlessLocked (s : State) (r : Reply) : Reply := if s.stop.lockdown then refuse .locked s else r

end Sys2Proof.Machine
end

