-- ==== Sys2Proof/Machine/StageOps.lean ====
section
/-! DEFINITION. The status changes that other blocks ask of the Stage Program Store (section 1.5), and the progress
they add to (R22). -/

namespace Sys2Proof.Machine

/-- The stage length L = bottom − top, in cm (section 1.1). -/
def Stage.length (x : Stage) : Nat := x.fields.bottom - x.fields.top

/-- The mid depth floor((top + bottom) / 2), in cm (section 1.1). -/
def Stage.midDepth (x : Stage) : Nat := (x.fields.top + x.fields.bottom) / 2

/-- The metered volume V of a stage, 0 while its progress is absent (R88). -/
def Stage.volume (x : Stage) : Nat :=
  match x.progress with
  | some g => g.v
  | none => 0

/-- A stage with no pending decision. -/
def noDecision : PendingDecision := { fracture := false, connection := false }

/-- The pending decision is present (R15). -/
def PendingDecision.isPending (d : PendingDecision) : Bool := d.fracture || d.connection

/-- The progress of a stage changed by `f` while it is present and the stage is ACTIVE (R22). -/
def Stage.addProgress (f : Progress → Progress) (x : Stage) : Stage :=
  if x.status = .active then { x with progress := x.progress.map f } else x

/-- The progress of the stage a line carries changed by `f` (R22). -/
def addProgress (l : LineId) (f : Progress → Progress) (s : State) : State :=
  match (s.line l).carried with
  | some k => s.updStage k (Stage.addProgress f)
  | none => s

/-- The max class raised to a line's effective class when that is higher (R22). -/
def Progress.raiseClass (cls : Nat) (g : Progress) : Progress := { g with maxClass := max g.maxClass cls }

/-- Every key of the list is a COMPLETE stage of the table. -/
def State.allComplete (s : State) (keys : List StageKey) : Bool :=
  keys.all (fun k => match s.stage? k with | some x => x.status == .complete | none => false)

/-! ### READY and SUSPENDED (R12, R14) -/

/-- An ACTIVE stage goes back to READY; a stage no longer ACTIVE is left as it is (R12). -/
def returnToReady (k : StageKey) (s : State) : State :=
  match s.stage? k with
  | some x =>
    if x.status = .active then saveStage k (s.updStage k (fun x => { x with status := .ready })) else s
  | none => s

/-- An ACTIVE stage goes to SUSPENDED: end cause set, pending decision removed, written, STAGE_SUSPENDED posted for
the line that carried it. Not applied to a stage no longer ACTIVE (R14). -/
def suspendStage (l : Option LineId) (k : StageKey) (cause : EndCause) (s : State) : State :=
  match s.stage? k with
  | some x =>
    if x.status = .active then
      postStage l k .stageSuspended cause.code
        (saveStage k (s.updStage k (fun x =>
          { x with status := .suspended, endCause := some cause, decision := noDecision })))
    else s
  | none => s

/-! ### COMPLETE and ABANDONED (R10, R13, R17, R18) -/

/-- The completion summary of a stage, with its final C_e and J from its line's computed values (R102, R161). -/
def summaryOf (x : Stage) (cause : EndCause) (endTime : Nat) (values : Option Computed) : Summary :=
  let ce := match values with | some c => c.ce | none => 0
  let j := match values with | some c => c.j | none => 0
  match x.progress with
  | some g =>
    { key := x.key, endCause := cause, startTime := x.startTime.getD 0, endTime := endTime, volume := g.v,
      v := g.v / x.length, maxPe := g.maxPe, maxClass := g.maxClass, finalCe := ce, finalJ := j,
      overpressure := g.overpressure, connection := g.connection, unmetered := g.unmetered,
      injecting := g.injecting, holding := g.holding }
  | none =>
    { key := x.key, endCause := cause, startTime := x.startTime.getD 0, endTime := endTime, volume := 0, v := 0,
      maxPe := 0, maxClass := 0, finalCe := ce, finalJ := j, overpressure := 0, connection := 0, unmetered := 0,
      injecting := 0, holding := 0 }

/-- A completion list without the summary of a stage (R8, R161). -/
def dropSummary (k : StageKey) (xs : List Summary) : List Summary := xs.filter (fun m => m.key != k)

/-- A summary put at the end of a completion list, which holds at most one of each stage key (R161). -/
def putSummary (m : Summary) (xs : List Summary) : List Summary := dropSummary m.key xs ++ [m]

/-- A summary handed to the completion list and written through (R161). -/
def addSummary (m : Summary) (s : State) : State :=
  writeThrough (.summary m) (s.updRecord (fun r => { r with completions := putSummary m r.completions }))

/-- A BLOCKED stage whose prerequisites are now all COMPLETE goes to READY, is written, and STAGE_READY is posted
to the two consoles (R10). -/
def examineBlocked (k : StageKey) (s : State) : State :=
  match s.stage? k with
  | some x =>
    if x.status = .blocked ∧ s.allComplete x.fields.prereqs = true then
      post { kind := .stageReady, line := none, key := some k, detail := none, exercise := false } consolePorts
        (saveStage k (s.updStage k (fun x => { x with status := .ready })))
    else s
  | none => s

/-- Every BLOCKED stage that names the stage is examined (R10), in key order (log entry 13). -/
def examineDependants (k : StageKey) (s : State) : State :=
  ((s.store.stages.filter (fun x => x.status == .blocked && x.fields.prereqs.contains k)).map Stage.key).foldl
    (fun s d => examineBlocked d s) s

/-- A stage reaches COMPLETE or ABANDONED: status and cause, end time, pending decision and waiting-for-mix
removed, written, summary made, STAGE_COMPLETE posted (R13, R17, R18). -/
def finishStage (l : Option LineId) (k : StageKey) (status : StageStatus) (cause : EndCause)
    (values : Option Computed) (s : State) : State :=
  match s.stage? k with
  | some x =>
    postStage l k .stageComplete cause.code
      (addSummary (summaryOf x cause s.clock.site values)
        (saveStage k (s.updStage k (fun x =>
          { x with status := status, endCause := some cause, endTime := some s.clock.site, decision := noDecision,
                   waiting := false }))))
  | none => s

/-- A stage goes to COMPLETE and its BLOCKED dependants are examined (R13). -/
def completeStage (l : Option LineId) (k : StageKey) (cause : EndCause) (values : Option Computed)
    (s : State) : State :=
  examineDependants k (finishStage l k .complete cause values s)

end Sys2Proof.Machine
end

