-- ==== Sys2Proof/Machine/LineOps.lean ====
section
/-! DEFINITION. The transitions of a line that several blocks ask for: driving the valve (R33), hold causes (R39, R40),
OPENING, ARMED and CLOSING (R30, R31), the ends of grants (R62 to R64), and the mix order and MIX_LAG that
follow a line's moves (R130, R134). -/

namespace Sys2Proof.Machine

/-! ### The mix order and MIX_LAG -/

/-- The mix order formed again; MIX_ORDER is posted when it differs from the one before (R130). -/
def formMixOrder (s : State) : State :=
  let order := lowestClass s.orderInputs
  if order = s.grout.mixOrder then s
  else postPart .mixOrder (some order) (s.updGrout (fun g => { g with mixOrder := order }))

/-- The line lags: its stage is bound in one of the four states and its effective class is below its demanded
class (R134). -/
def Line.lagging (x : Line) : Bool :=
  x.state.live && (match x.classes with | some c => c.effective < c.demanded | none => false)

/-- MIX_LAG decided again; posted when it becomes active, with the demanded class as detail (R134). -/
def decideMixLag (l : LineId) (s : State) : State :=
  let x := s.line l
  let s' := s.setLine l { x with mixLag := x.lagging }
  if x.lagging && !x.mixLag then
    postLine l .mixLag (x.classes.map (fun c => (c.demanded : Int))) s'
  else s'

/-! ### The valve -/

/-- A valve command given, which begins a travel from 0 seconds and replaces one in progress (R33). -/
def Line.drive (pos : ValvePos) (travelTime : Nat) (x : Line) : Line :=
  { x with command := pos, travel := some { target := pos, allowed := travelTime, elapsed := 0 } }

/-! ### Hold causes (R39, R40) -/

/-- Entry to HOLDING: the hold timer starts from 0, and the refusal and intensity counts return to 0 (R42, R103). -/
def Line.enterHolding (x : Line) : Line :=
  { x with state := .holding, holdTimer := some 0,
           decision := x.decision.map (fun d => { d with refusal := 0, intensity := 0 }) }

/-- Entry to INJECTING: the hold timer becomes absent and the history ring is emptied (R41). -/
def Line.enterInjecting (x : Line) : Line := { x with state := .injecting, holdTimer := none, ring := [] }

/-- A request to add a hold cause (R39). -/
def addCause (c : HoldCause) (l : LineId) (s : State) : State :=
  let x := s.line l
  if x.causes.contains c then s
  else
    match x.state with
    | .armed | .holding => s.setLine l { x with causes := withCause c x.causes }
    | .injecting => s.setLine l { x with causes := withCause c x.causes }.enterHolding
    | .idle | .watch | .opening | .closing | .isolated => s

/-- A request to remove a hold cause; HOLD_CLEARED is posted for a HOLDING line left with an empty set (R40). -/
def removeCause (c : HoldCause) (l : LineId) (s : State) : State :=
  let x := s.line l
  if x.causes.contains c then
    match x.state with
    | .armed => s.setLine l { x with causes := withoutCause c x.causes }
    | .holding =>
      let s' := s.setLine l { x with causes := withoutCause c x.causes }
      if withoutCause c x.causes = [] then postLine l .holdCleared none s' else s'
    | .idle | .watch | .opening | .injecting | .closing | .isolated => s
  else s

/-! ### OPENING to ARMED (R30) -/

/-- The causes that stand at entry to ARMED (R30). -/
def State.standingCauses (s : State) (x : Line) : List HoldCause :=
  (if s.holdAll then [.console] else []) ++ (if x.sensorLoss then [.sensor] else []) ++
  (if s.grout.aged then [.aged] else [])

/-- Entry to ARMED: the standing causes are taken up, the record timer starts from 0 (R158), and the mix order is
formed again (R130). -/
def enterArmed (l : LineId) (s : State) : State :=
  formMixOrder (s.updLine l (fun x =>
    { x with state := .armed, causes := s.standingCauses x, recordTimer := some 0 }))

/-! ### CLOSING and the ends of grants (R31, R62 to R64) -/

/-- A line taken to CLOSING: valve commanded CLOSED, cause set emptied, hold timer, computed values, decision record
and record timer absent, history ring emptied, MIX_LAG inactive. The binding and the classes are kept (R31, R81,
R87, R103, R131, R134, R158). -/
def Line.toClosing (travelTime : Nat) (x : Line) : Line :=
  { x with state := .closing, causes := [], holdTimer := none, values := none, decision := none,
           recordTimer := none, ring := [], mixLag := false }.drive .closed travelTime

/-- A grant that goes to ENDING with an end reason; its timers become absent (R62). -/
def Grant.toEnding (r : EndReason) (g : Grant) : Grant :=
  { g with phase := .ending, accept := none, keepalive := none, endReason := some r }

/-- A line taken to CLOSING with its grant ENDING, and the mix order formed again (R31, R62, R130). -/
def closeLine (r : EndReason) (l : LineId) (s : State) : State :=
  formMixOrder (s.updLine l (fun x =>
    { x.toClosing s.settings.travelTime with grant := x.grant.map (Grant.toEnding r) }))

/-- A grant cut: its record is removed, and the port is given a notice with the end reason, or the reason an
ENDING grant already has (R64). -/
def cutGrant (r : EndReason) (l : LineId) (s : State) : State :=
  match (s.line l).grant with
  | some g =>
    let notice : CutNotice :=
      { line := l, key := (s.line l).stage.getD ⟨0, 0⟩,
        reason := match g.phase with | .live => r | .ending => g.endReason.getD r }
    (s.updLine l (fun x => { x with grant := none })).updPort g.owner (fun x => { x with cut := some notice })
  | none => s

/-- A line that reaches IDLE from CLOSING: binding, grant, classes and transit queue become absent, and its
start-check flag is cleared (R31, R63). -/
def Line.toIdle (x : Line) : Line :=
  { x with state := .idle, stage := none, grant := none, values := none, classes := none, transit := [],
           startCheck := false }

/-- The stage side of an event, for the stage the line carries. -/
def withBound (l : LineId) (f : StageKey → State → State) (s : State) : State :=
  match (s.line l).stage with
  | some k => f k s
  | none => s

/-- Every line in a start check has left it: the part's start-check flag clears, and a check has been completed
since power-on (R144, R145). -/
def settleStartCheck (s : State) : State :=
  if s.stop.startCheck && !s.anyLine (fun x => x.startCheck) then
    s.updStop (fun u => { u with startCheck := false, checkDone := true })
  else s

end Sys2Proof.Machine
end

