-- ==== Sys2Proof/Machine/SupplyOps.lean ====
section
/-! DEFINITION. The Grout Supply Unit's operations on the tank and on the mix in transit (07): consumption, aging,
changes of the tank class, changes of a line's effective class, and transit. -/

namespace Sys2Proof.Machine

/-! ### Effective class and transit (R127, R132, R135, R136) -/

/-- A change of a line's effective class and its effects; a class equal to the one before changes nothing (R132). -/
def setEffective (l : LineId) (cls : Nat) (s : State) : State :=
  match (s.line l).classes with
  | some c =>
    if c.effective = cls then s
    else
      decideMixLag l
        (addProgress l (Progress.raiseClass cls)
          (s.updLine l (fun x =>
            { x with classes := some { c with effective := cls, thickening := 0, pendingVolume := 0,
                                              pRef := none } })))
  | none => s

/-- A transit entry for a new tank class appended to a line's queue; the oldest entry of a full queue is completed
at once (R127, R135). -/
def appendTransit (cls : Nat) (l : LineId) (s : State) : State :=
  let entry : Transit := { cls := cls, remaining := (s.line l).inForce.hose * 1000 }
  match (s.line l).transit with
  | first :: rest =>
    if rest.length < 2 then s.updLine l (fun x => { x with transit := x.transit ++ [entry] })
    else
      (setEffective l first.cls (s.updLine l (fun x => { x with transit := rest }))).updLine l
        (fun x => { x with transit := x.transit ++ [entry] })
  | [] => s.updLine l (fun x => { x with transit := [entry] })

/-- A change of the tank class to a value from 1 to 6 appends a transit entry to every line with a bound stage in
OPENING, ARMED, INJECTING or HOLDING (R127). `before` is the class before the change. -/
def tankClassFrom (before : Nat) (s : State) : State :=
  if s.grout.tankClass = before ∨ s.grout.tankClass = 0 then s
  else
    forLines (fun l s => if (s.line l).state.live then appendTransit s.grout.tankClass l s else s) s

/-- A metered pulse's weight taken off the oldest transit entry, which completes at 0 or below; what goes below 0 is
taken off the next entry (R136). -/
def advanceTransit (w : Nat) (l : LineId) (s : State) : State :=
  match (s.line l).transit with
  | [] => s
  | first :: rest =>
    if w < first.remaining then
      s.updLine l (fun x => { x with transit := { first with remaining := first.remaining - w } :: rest })
    else
      let excess := w - first.remaining
      let rest' := match rest with
        | [] => []
        | next :: more => { next with remaining := next.remaining - excess } :: more
      setEffective l first.cls (s.updLine l (fun x => { x with transit := rest' }))

/-! ### Aging (R128) -/

/-- The aged condition of the tank decided: AGED posted and added to the lines when it begins, removed from them
when it ends (R128). -/
def decideAged (s : State) : State :=
  if s.isAged && !s.grout.aged then
    forLines (addCause .aged)
      (postPart .aged (some ((s.oldestAge / 60 : Nat) : Int)) (s.updGrout (fun g => { g with aged := true })))
  else if !s.isAged && s.grout.aged then
    forLines (removeCause .aged) (s.updGrout (fun g => { g with aged := false }))
  else s

/-! ### Consumption (R125, R126) -/

/-- The weight of a pulse subtracted from the oldest batches, and what no batch could give. -/
def drawBatches : Nat → List Batch → List Batch × Nat
  | w, [] => ([], w)
  | w, b :: bs =>
    if w < b.remaining then ({ b with remaining := b.remaining - w } :: bs, 0)
    else drawBatches (w - b.remaining) bs

/-- The top of the unaccounted-grout count and of a stage's V, in mL (R22, R126). -/
def volumeTop : Nat := 4000000000

/-- Grout drawn from an empty account: counted, and NO_GROUT_ACCOUNT posted with the line of the pulse when the
condition begins (R126). -/
def drawUnaccounted (l : LineId) (w : Nat) (s : State) : State :=
  if w = 0 then s
  else
    let s' := s.updGrout (fun g => { g with unaccounted := min volumeTop (g.unaccounted + w), noGrout := true })
    if s.grout.noGrout then s' else postPart .noGroutAccount (some (l.val : Int)) s'

/-- A consumption pulse of weight `w` from a line (R125 to R128). -/
def consume (l : LineId) (w : Nat) (s : State) : State :=
  let before := s.grout.tankClass
  let held := s.grout.batches.length
  let r := drawBatches w s.grout.batches
  let s' := tankClassFrom before (drawUnaccounted l r.2 (s.updGrout (fun g => { g with batches := r.1 })))
  if r.1.length < held then decideAged s' else s'

end Sys2Proof.Machine
end

