-- ==== Sys2Proof/Machine/StopOps.lean ====
section
/-! DEFINITION. Valve faults (R37, R38, R46), LOCKDOWN (R147, R148), the two stops (R141, R143) and UPLIFT_WARN
(R140). -/

namespace Sys2Proof.Machine

/-! ### LOCKDOWN -/

/-- What entry to LOCKDOWN does to one line (R48, R64). -/
def lockLine (l : LineId) (s : State) : State :=
  match (s.line l).state with
  | .opening | .armed | .injecting | .holding =>
    withBound l (fun k s => suspendStage (some l) k .lockdown s)
      ((cutGrant .lockdown l s).updLine l (Line.toClosing s.settings.travelTime))
  | .closing => cutGrant .lockdown l s
  | .idle | .watch | .isolated => s

/-- Entry to LOCKDOWN, triggered by a valve fault on a line (R148). -/
def enterLockdown (code : FaultCode) (l : LineId) (s : State) : State :=
  let s := s.updStop (fun u => { u with lockdown := true })
  let s := post { kind := .lockdown, line := some l, key := none, detail := some (code.code : Int),
                  exercise := false } (s.partRoute .lockdown) s
  let s := enterFault .lockdown (.value code.code) (some (.line l)) .lockdown s
  let s := { s with exercise := 0 }
  formMixOrder (forLines lockLine s)

/-! ### Valve faults -/

/-- A line isolated by a valve fault: valve commanded CLOSED unless it is already, and every record of the binding
absent (R37). -/
def Line.isolateFor (f : ValveFault) (travelTime : Nat) (x : Line) : Line :=
  let x := if x.command = .closed then x else x.drive .closed travelTime
  { x with state := .isolated, stage := none, causes := [], holdTimer := none, isolation := some (.fault f),
           watch := none, startCheck := false, values := none, classes := none, transit := [], mixLag := false,
           decision := none, recordTimer := none, ring := [] }

/-- The valve fault is a trigger of LOCKDOWN: a VALVE_NO_CLOSE or VALVE_UNCOMMANDED during a stop (R38), or a
VALVE_NO_CLOSE with the readback OPEN at the start check (R46), the part not being in LOCKDOWN. -/
def State.triggersLockdown (s : State) (f : ValveFault) (rb : Readback) (x : Line) : Bool :=
  !s.stop.lockdown &&
  ((s.stop.upliftStop || s.stop.estop) && (f == .noClose || f == .uncommanded) ||
   f == .noClose && rb == .opened && x.startCheck)

/-- The consequence class of a valve fault outside LOCKDOWN (R37). -/
def LineState.faultClass : LineState → Consequence
  | .armed | .injecting | .holding => .suspend
  | .idle | .watch | .opening | .closing | .isolated => .isolate

/-- What a valve fault does to the stage the line carried, by the line's state at the fault (R37). -/
def faultStage (l : LineId) (st : LineState) (key : Option StageKey) (s : State) : State :=
  match key with
  | none => s
  | some k =>
    match st with
    | .opening => returnToReady k s
    | .armed | .injecting | .holding => suspendStage (some l) k .valveFault s
    | .idle | .watch | .closing | .isolated => s

/-- A valve fault decided on a line that is not ISOLATED (R37, R38, R46, R64). -/
def valveFault (f : ValveFault) (rb : Readback) (l : LineId) (s : State) : State :=
  let x := s.line l
  let code := f.faultCode
  let trigger := s.triggersLockdown f rb x
  let route := x.owner.toList ++ consolePorts
  let s := cutGrant .valveFault l s
  let s := formMixOrder (s.updLine l (Line.isolateFor f s.settings.travelTime))
  let s := faultStage l x.state x.stage s
  let s := post { kind := .valveFault, line := some l, key := x.stage, detail := some (code.code : Int),
                  exercise := false } route s
  let s := enterFault code (.readback rb) (some (.line l)) (if trigger then .lockdown else x.state.faultClass) s
  if trigger then enterLockdown code l s else s

/-! ### The two stops -/

/-- A line in OPENING at a stop is closed, its grant ENDING with the stop's name, its stage READY (R62). -/
def closeOpening (r : EndReason) (l : LineId) (s : State) : State :=
  if (s.line l).state = .opening then withBound l returnToReady (closeLine r l s) else s

/-- What both stops do to the lines: the cause added, and every OPENING line closed (R141, R143). -/
def stopLines (c : HoldCause) (r : EndReason) (s : State) : State :=
  forLines (closeOpening r) (forLines (addCause c) s)

/-- UPLIFT_STOP latched on a gauge (R141). The exercise step returns to 0 (R166). -/
def latchUpliftStop (g : GaugeId) (s : State) : State :=
  let u := (s.gauge g).u
  let s := { s.updStop (fun x => { x with upliftStop := true }) with exercise := 0 }
  let s := postPart .upliftStop (some u) s
  let s := enterFault .upliftStop (.value u) (some (.gauge g)) .stop s
  stopLines .uplift .upliftStop s

/-- ESTOP becomes active (R143). The exercise step returns to 0 (R166). -/
def beginEstop (s : State) : State :=
  let s := { s.updStop (fun x => { x with estop := true }) with exercise := 0 }
  let s := postPart .estop none s
  let s := enterFault .estop (.value 0) none .stop s
  stopLines .estop .estop s

/-- ESTOP ends: its cause leaves every line (R143). -/
def finishEstop (s : State) : State :=
  forLines (removeCause .estop) (s.updStop (fun x => { x with estop := false }))

/-! ### UPLIFT_WARN -/

/-- The gauge named by UPLIFT_WARN: the one whose warning or loss made the state active, 0 for the forced warn
(R140). -/
def State.warnDetail (s : State) : Int :=
  match gaugeIds.find? s.gaugeWarns with
  | some g => (g.val : Int) + 1
  | none => 0

/-- UPLIFT_WARN formed again; posted when it becomes active (R140). -/
def formWarn (s : State) : State :=
  let active := gaugeIds.any s.gaugeWarns || s.forcedWarn
  let s' := s.updStop (fun x => { x with warn := active, degraded := s.forcedWarn })
  if active && !s.stop.warn then postPart .upliftWarn (some s.warnDetail) s' else s'

end Sys2Proof.Machine
end

