-- ==== Sys2Proof/Machine/Envelope.lean ====
section
/-! DEFINITION. The Envelope Unit (05): the mix class table, the pressures, volume and intensity, the ceilings and
thresholds, and the re-forming at STAGE_DECIDE CONTINUE. Every division is rounded toward zero (00_scope.md). -/

namespace Sys2Proof.Machine

/-- The mix class table: the gradient G_c of a class, in 0.1 kPa/m (section 5.1, R86). -/
def gradient : Nat → Nat
  | 1 => 111 | 2 => 118 | 3 => 127 | 4 => 149 | 5 => 158 | 6 => 171
  | _ => 0

/-- The head of the grout column, H = floor(G_c × d_mid / 1000) (R89). -/
def headOf (cls midDepth : Nat) : Nat := gradient cls * midDepth / 1000

/-- The friction loss, F = floor(k_f × Q / 100) (R90). -/
def frictionOf (kf q : Nat) : Nat := kf * q / 100

/-- The effective pressure p_e = p_g + H − F, a signed sum clamped to 0–20000 (R91). -/
def effectivePressure (pg head friction : Nat) : Nat :=
  (min 20000 (max 0 ((pg : Int) + head - friction))).toNat

/-- The volume per metre v = floor(V / L) (R93). -/
def volumePerMetre (volume length : Nat) : Nat := volume / length

/-- The intensity J = floor(p_e × v / 10), saturated at 999,999,999 (R94). -/
def intensityOf (pe v : Nat) : Nat := min 999999999 (pe * v / 10)

/-- The effective ceiling before derating (R95). -/
def ceilingOf (pMax jMax v : Nat) : Nat := if v = 0 then pMax else min pMax (jMax * 10 / v)

/-- The effective ceiling after the derate, while UPLIFT_WARN is active (R96). -/
def applyDerate (warn : Bool) (derate ce : Nat) : Nat := if warn then ce * derate / 100 else ce

/-- The gauge ceiling C_g = C_e − H + F, a signed sum clamped to 0 and the transducer range (R97). -/
def gaugeCeiling (ce head friction range : Nat) : Nat :=
  (min (range : Int) (max 0 ((ce : Int) - head + friction))).toNat

/-- The refusal threshold floor(C_e × (100 − b) / 100) (R98). -/
def refusalThresholdOf (ce band : Nat) : Nat := ce * (100 - band) / 100

/-- The overpressure limit C_e + floor(C_e × m / 100) (R98). -/
def overpressureLimitOf (ce margin : Nat) : Nat := ce + ce * margin / 100

/-- The ceilings and thresholds of a computed values record, formed from its v, H and F (R95 to R98). -/
def Computed.withCeilings (warn : Bool) (derate range : Nat) (f : StageFields) (c : Computed) : Computed :=
  let ce := applyDerate warn derate (ceilingOf f.pMax f.jMax c.v)
  { c with derated := warn, ce := ce, cg := gaugeCeiling ce c.head c.friction range,
           refusalThreshold := refusalThresholdOf ce f.band,
           overpressureLimit := overpressureLimitOf ce f.margin }

/-- The values of one evaluation, from its inputs (R88 to R98). -/
def computeValues (warn : Bool) (derate : Nat) (st : LineSettings) (x : Stage) (cls pg q : Nat) (stale : Bool) :
    Computed :=
  let head := headOf cls x.midDepth
  let friction := frictionOf st.friction q
  let pe := effectivePressure pg head friction
  let v := volumePerMetre x.volume x.length
  Computed.withCeilings warn derate st.range x.fields
    { pg := pg, q := q, cls := cls, head := head, friction := friction, pe := pe, vUsed := x.volume, v := v,
      j := intensityOf pe v, derated := false, ce := 0, cg := 0, refusalThreshold := 0, overpressureLimit := 0,
      stale := stale }

/-- A line sample event is stale when one of its channels is not VALID after the sample (R76). -/
def Line.stale (x : Line) : Bool := !x.pressure.isValid || !x.flow.isValid

/-- The effective class of a line, 0 when it carries no classes. -/
def Line.effectiveClass (x : Line) : Nat := match x.classes with | some c => c.effective | none => 0

/-- The values of an evaluation of a line made now for a stage. -/
def State.evaluationOf (s : State) (x : Line) (st : Stage) : Computed :=
  computeValues s.stop.warn s.settings.derate x.inForce st x.effectiveClass x.pressure.value.toNat
    x.flow.value.toNat x.stale

/-- An entry appended to a history ring of up to 5 (R81). -/
def pushRing (e : Nat × Nat) (ring : List (Nat × Nat)) : List (Nat × Nat) := lastN 5 (ring ++ [e])

/-- Steps 1 to 3 of R100: the record replaced, the ring appended to or emptied, max p_e raised. -/
def recordEvaluation (l : LineId) (c : Computed) (s : State) : State :=
  let s := s.updLine l (fun x =>
    { x with values := some c, ring := if c.stale then [] else pushRing (c.pe, c.q) x.ring })
  if c.stale then s else addProgress l (fun g => { g with maxPe := max g.maxPe c.pe }) s

/-- The ceilings of a bound line re-formed at once when STAGE_DECIDE CONTINUE lowers P_max; no evaluation (R101). -/
def reformCeilings (l : LineId) (s : State) : State :=
  match s.boundStage l with
  | some st =>
    let reform (x : Line) : Computed → Computed :=
      Computed.withCeilings s.stop.warn s.settings.derate x.inForce.range st.fields
    s.updLine l (fun x => { x with values := x.values.map (reform x) })
  | none => s

end Sys2Proof.Machine
end

