-- ==== Sys2Proof/Machine/Hazards.lean ====
section
/-! DEFINITION. The Stage End and Hazard Unit (06): end conditions, overpressure, fracture, the connection watch and
its log; and the thickening step that follows it in an evaluation (R133). -/

namespace Sys2Proof.Machine

/-! ### End conditions (R104 to R110) -/

/-- The decision record of a line changed by `f`. -/
def updDecision (l : LineId) (f : DecisionRecord → DecisionRecord) (s : State) : State :=
  s.updLine l (fun x => { x with decision := x.decision.map f })

/-- The intensity and refusal counts of a fresh evaluation in INJECTING (R107, R108). -/
def DecisionRecord.countEnds (f : StageFields) (c : Computed) (d : DecisionRecord) : DecisionRecord :=
  { d with
    intensity := if f.jMax ≤ c.j then min 4 (d.intensity + 1) else 0
    refusal := if c.q ≤ f.qRef ∧ c.refusalThreshold ≤ c.pe then min (4 * f.tRef) (d.refusal + 1) else 0 }

/-- The first end condition satisfied: VOLUME_CAP, INTENSITY_CAP, REFUSAL in that order (R104, R106, R107, R109). -/
def endCondition (f : StageFields) (c : Computed) (d : DecisionRecord) : Option (EndCause × EndReason) :=
  if f.vMax ≤ c.v then some (.volumeCap, .volumeCap)
  else if d.intensity = 4 then some (.intensityCap, .intensityCap)
  else if d.refusal = 4 * f.tRef then some (.refusal, .refusal)
  else none

/-- A stage ended: COMPLETE with its summary, the grant ENDING, the line CLOSING (R110). -/
def endStage (l : LineId) (k : StageKey) (cause : EndCause) (reason : EndReason) (s : State) : State :=
  closeLine reason l (completeStage (some l) k cause (s.line l).values s)

/-! ### Overpressure and fracture (R111 to R114) -/

/-- The overpressure counts of a fresh evaluation, and the raising or clearing of OVERPRESSURE (R111, R112). -/
def overpressureStep (l : LineId) (c : Computed) (s : State) : State :=
  let x := s.line l
  match x.decision with
  | none => s
  | some d =>
    if x.causes.contains .overpressure then
      let n := if c.pe ≤ c.ce then d.clear + 1 else 0
      if 4 ≤ n then removeCause .overpressure l (updDecision l (fun d => { d with clear := 0 }) s)
      else updDecision l (fun d => { d with clear := n }) s
    else
      let n := if c.overpressureLimit < c.pe then d.raise + 1 else 0
      if 2 ≤ n then
        postLine l .overpressure (some (c.pe : Int))
          (addProgress l (fun g => { g with overpressure := satSucc s.counterTop g.overpressure })
            (addCause .overpressure l (updDecision l (fun d => { d with raise := 0, clear := 0 }) s)))
      else updDecision l (fun d => { d with raise := n }) s

/-- The four tests of a suspected fracture (R113). -/
def fractureSuspected (f : StageFields) (ce : Nat) (old new : Nat × Nat) : Bool :=
  (ce * 20 / 100 ≤ old.1) &&
  (((old.1 * f.fractureDrop / 100 : Nat) : Int) ≤ (old.1 : Int) - new.1) &&
  (old.2 + old.2 * f.fractureRise / 100 ≤ new.2) &&
  ((10 : Int) ≤ (new.2 : Int) - old.2)

/-- The pending decision of a stage with one hazard more (R15). -/
def addPending (k : StageKey) (f : PendingDecision → PendingDecision) (s : State) : State :=
  s.updStage k (fun x => if x.status = .active then { x with decision := f x.decision } else x)

/-- The fracture check of a fresh evaluation in INJECTING (R113, R114). -/
def fractureStep (l : LineId) (st : Stage) (c : Computed) (s : State) : State :=
  match (s.line l).ring with
  | [old, _, _, _, new] =>
    if fractureSuspected st.fields c.ce old new then
      postLine l .fracture (some ((old.1 : Int) - new.1))
        (addPending st.key (fun d => { d with fracture := true }) (addCause .fracture l s))
    else s
  | _ => s

/-! ### One evaluation taken up (R104, R105) -/

/-- The unit's work on one evaluation of a line that stood in `state` when the evaluation found it (R104). A line found in
HOLDING, by a PAUSE taken first too, is not ended (log entry 43). -/
def stageEndUnit (l : LineId) (state : LineState) (st : Stage) (c : Computed) (s : State) : State :=
  if c.stale then updDecision l (fun _ => ⟨0, 0, 0, 0⟩) s
  else
    match state with
    | .injecting =>
      let s := updDecision l (DecisionRecord.countEnds st.fields c) s
      match (s.line l).decision.bind (endCondition st.fields c) with
      | some (cause, reason) => endStage l st.key cause reason s
      | none => fractureStep l st c (overpressureStep l c s)
    | .holding => overpressureStep l c s
    | .idle | .watch | .opening | .armed | .closing | .isolated => s

/-! ### Thickening (R133) -/

/-- The thickening record after a fresh evaluation, and whether the demanded class changed (R133). -/
def Classes.thicken (f : StageFields) (pe : Nat) (c : Classes) : Classes × Bool :=
  if c.effective ≠ c.demanded then ({ c with pendingVolume := 0 }, false)
  else
    let count := c.thickening + c.pendingVolume
    match c.pRef with
    | none => ({ c with thickening := count, pendingVolume := 0, pRef := some pe }, false)
    | some p =>
      if p + f.riseThreshold ≤ pe then
        ({ c with thickening := 0, pendingVolume := 0, pRef := some pe }, false)
      else if f.thickStep * 1000 ≤ count then
        let risen := min 6 (c.demanded + 1)
        ({ c with demanded := risen, thickening := 0, pendingVolume := 0, pRef := some pe }, risen != c.demanded)
      else ({ c with thickening := count, pendingVolume := 0 }, false)

/-- The Grout Supply Unit takes up a fresh evaluation of a line still INJECTING (R133). -/
def thickenLine (l : LineId) (st : Stage) (pe : Nat) (s : State) : State :=
  match (s.line l).classes with
  | some c =>
    let r := c.thicken st.fields pe
    let s' := s.updLine l (fun x => { x with classes := some r.1 })
    if r.2 then decideMixLag l (formMixOrder s') else s'
  | none => s

/-- At a stale evaluation the pending volume is set to 0 (R133), in every state of the line (log entry 51). -/
def dropPendingVolume (l : LineId) (s : State) : State :=
  s.updLine l (fun x => { x with classes := x.classes.map (fun c => { c with pendingVolume := 0 }) })

/-- One evaluation of a line, in the order of R100. -/
def evaluate (l : LineId) (s : State) : State :=
  match s.boundStage l with
  | none => s
  | some st =>
    let c := s.evaluationOf (s.line l) st
    let s' := stageEndUnit l (s.line l).state st c (recordEvaluation l c s)
    if c.stale then dropPendingVolume l s'
    else if (s'.line l).state = .injecting then thickenLine l st c.pe s' else s'

/-! ### The connection watch (R115 to R119) -/

/-- The lines whose stage may have caused a connection, with their stages (R117). -/
def State.candidates (s : State) (hole : Nat) : List (LineId × Stage) × Bool :=
  let bound := lineIds.filterMap (fun l => (s.boundStage l).map (fun st => (l, st)))
  let first := bound.filter (fun c =>
    ((s.line c.1).state == .injecting || (s.line c.1).state == .holding) && c.2.fields.neighbours.contains hole)
  if first.isEmpty then (bound.filter (fun c => (s.line c.1).state == .injecting), false) else (first, true)

/-- What a connection event does to one candidate (R118). -/
def connectCandidate (hole : Nat) (c : LineId × Stage) (s : State) : State :=
  let s := addProgress c.1 (fun g => { g with connection := satSucc s.counterTop g.connection }) s
  match c.2.fields.policy with
  | .hold =>
    postLine c.1 .connectionHold (some (hole : Int))
      (addPending c.2.key (fun d => { d with connection := true }) (addCause .connection c.1 s))
  | .note => postLine c.1 .connectionNote (some (hole : Int)) s

/-- A connection event: its candidates acted on and its record written to the log of 32 (R117 to R119). -/
def connectionEvent (l : LineId) (w : Watch) (baseline : Nat) (rise : Int) (s : State) : State :=
  let found := s.candidates w.hole
  let entry : ConnectionRecord :=
    { number := s.connections.nextNumber, time := s.clock.site, line := l, hole := w.hole, stage := w.stage,
      baseline := baseline, rise := rise, candidates := found.1.map (fun c => (c.1, c.2.key)),
      attributed := found.2 }
  let s := found.1.foldl (fun s c => connectCandidate w.hole c s) s
  { s with connections := { records := lastN 32 (s.connections.records ++ [entry]),
                            nextNumber := nextNumber s.connections.nextNumber } }

/-- The comparison of a settled watch (R116): the new record, and whether a connection event is made. -/
def Watch.compare (threshold : Nat) (rise : Int) (w : Watch) : Watch × Bool :=
  if w.armed then
    let n := if (threshold : Int) ≤ rise then w.rise + 1 else 0
    if 4 ≤ n then ({ w with armed := false, rise := 0, rearm := 0 }, true) else ({ w with rise := n }, false)
  else
    let n := if rise < ((threshold / 2 : Nat) : Int) then w.rearm + 1 else 0
    if 4 ≤ n then ({ w with armed := true, rearm := 0 }, false) else ({ w with rearm := n }, false)

/-- A settling evaluation: at the eighth the pressure becomes the baseline (R115). -/
def Watch.settleOn (pg : Nat) (w : Watch) : Watch :=
  { w with settle := w.settle + 1, baseline := if w.settle + 1 = 8 then some pg else none }

/-- One watch evaluation of a line in WATCH; `regain` says that this sample event is a regain of its pressure
channel (R115, R116). -/
def watchEvaluation (l : LineId) (regain : Bool) (s : State) : State :=
  let x := s.line l
  match x.watch with
  | none => s
  | some w =>
    if !x.pressure.isValid then s.setLine l { x with watch := some { w with rise := 0, rearm := 0 } }
    else
      let pg := x.pressure.value.toNat
      let w := if regain then { w with baseline := none, settle := 0, armed := true, rise := 0, rearm := 0 } else w
      match w.baseline with
      | none => s.setLine l { x with watch := some (w.settleOn pg) }
      | some b =>
        let rise := (pg : Int) - b
        let r := w.compare x.inForce.watch rise
        let s := s.setLine l { x with watch := some r.1 }
        if r.2 then connectionEvent l w b rise s else s

end Sys2Proof.Machine
end

