-- ==== Sys2Proof/Machine/Channels.lean ====
section
/-! DEFINITION. The Measurement Front End (04): conversion of the inputs, channel validity, losses and regains, the
flow window, and the valve compare that the same sample event makes (R32 to R36). -/

namespace Sys2Proof.Machine

/-! ### Conversion (R70, R71) -/

/-- A current sample is good from 3600 to 21000 µA (R70). -/
def currentGood (i : Nat) : Bool := 3600 ≤ i && i ≤ 21000

/-- Pressure and level: floor((I − 4000) × span / 16000), clamped to 0 and the span (R70). -/
def convertSpan (span i : Nat) : Option Int :=
  if currentGood i then some (((min span ((i - 4000) * span / 16000) : Nat)) : Int) else none

/-- Uplift: (I − 12000) / 4 rounded toward zero, clamped to −2000 and 2000 (R70). -/
def convertUplift (i : Nat) : Option Int :=
  if currentGood i then some (max (-2000) (min 2000 (Int.tdiv ((i : Int) - 12000) 4))) else none

/-- The flow from the window: floor(3 × n × w / 20), saturated at 9999 (R71). -/
def flowOf (window : List Nat) (weight : Nat) : Nat := min 9999 (3 * window.sum * weight / 20)

/-- A slot appended to a flow window of up to 16 (R71). -/
def pushWindow (n : Nat) (window : List Nat) : List Nat := lastN 16 (window ++ [n])

/-! ### Validity (R73 to R75) -/

/-- A channel after a sample, and what the sample brought about. -/
structure Sampled where
  channel : Channel
  loss : Bool
  regain : Bool
  saturated : Bool
deriving DecidableEq, Repr

/-- A channel after a bad sample (R73, R74, R79). A count above a newly lowered loss count falls to it (log entry 49). -/
def Channel.badSample (top lossCount : Nat) (c : Channel) : Sampled :=
  let r := c.counter.bump top
  let bad := min lossCount (c.bad + 1)
  let c := { c with counter := r.1, bad := bad }
  match c.validity with
  | .valid => { channel := { c with validity := .suspect }, loss := false, regain := false, saturated := r.2 }
  | .suspect =>
    if lossCount ≤ bad then
      { channel := { c with validity := .lost }, loss := true, regain := false, saturated := r.2 }
    else { channel := c, loss := false, regain := false, saturated := r.2 }
  | .lost | .regain1 | .regain2 =>
    { channel := { c with validity := .lost, ref := none }, loss := false, regain := false, saturated := r.2 }
  | .off => { channel := c, loss := false, regain := false, saturated := r.2 }

/-- A sample value taken as the channel's (R75). -/
def Channel.take (v : Int) (c : Channel) : Channel :=
  { c with validity := .valid, value := v, noValue := false, ref := none }

/-- The value lies within the band of the reference; a channel without a band takes any (R74). -/
def withinBand (band : Option Nat) (ref : Option Int) (v : Int) : Bool :=
  match band, ref with
  | some b, some r => (v - r).natAbs ≤ b
  | _, _ => true

/-- A channel after a good sample of value `v` (R73 to R75). -/
def Channel.goodSample (band : Option Nat) (v : Int) (c : Channel) : Sampled :=
  let c := { c with bad := 0 }
  let still (c : Channel) : Sampled := { channel := c, loss := false, regain := false, saturated := false }
  match c.validity with
  | .valid | .suspect => still (c.take v)
  | .lost => still { c with validity := .regain1, ref := some v }
  | .regain1 => if withinBand band c.ref v then still { c with validity := .regain2 } else still { c with ref := some v }
  | .regain2 => { channel := c.take v, loss := false, regain := true, saturated := false }
  | .off => still c

/-- A channel after a sample: `none` for a bad one. -/
def Channel.sample (top lossCount : Nat) (band : Option Nat) (v : Option Int) (c : Channel) : Sampled :=
  match v with
  | some v => c.goodSample band v
  | none => c.badSample top lossCount

/-- A channel taken out of service: OFF, value 0 with the no-value flag, its counter kept (R68, R84) and its
consecutive bad count 0 (log entry 49). -/
def Channel.switchOff (c : Channel) : Channel :=
  { c with validity := .off, bad := 0, value := 0, noValue := true, ref := none }

/-- A channel put into service: as at power-on, its counter kept (R79, R84; log entry 18). -/
def Channel.switchOn (c : Channel) : Channel :=
  { c with validity := .suspect, bad := 0, value := 0, noValue := true, ref := none }

/-! ### Consequences for a line (R77, R78, R80, R81) -/

/-- Which of a line's two channels. -/
inductive LineChannel where
  | pressure | flow
deriving DecidableEq, Repr

/-- The channel number: 0–7 pressure, 8–15 flow (section 4.1). -/
def LineChannel.number (k : LineChannel) (l : LineId) : Nat :=
  match k with | .pressure => l.val | .flow => 8 + l.val

/-- The fault code of a loss (R77). -/
def LineChannel.code : LineChannel → FaultCode
  | .pressure => .pressureLost | .flow => .flowLost

/-- What the sample of one of a line's channels brings about once both samples have been applied (R69): a saturated
counter, then a loss with SENSOR (log entry 13), or a regain. `current` is the fault entry's detail (R77). -/
def lineChannelEffects (k : LineChannel) (current : Nat) (r : Sampled) (l : LineId) (s : State) : State :=
  let n : Int := (k.number l : Nat)
  let s := if r.saturated then postLine l .counterSaturated (some n) s else s
  let s :=
    if r.loss then
      let c : Consequence := if (s.line l).state.evaluated then .hold else .record
      addCause .sensor l
        (enterFault k.code (.value current) (some (.line l)) c (postLine l .sensorLost (some n) s))
    else s
  if r.regain && !(s.line l).sensorLoss then removeCause .sensor l s else s

/-! ### The valve compare (R32 to R36) -/

/-- The readback of the two limit switches (R32). -/
def readbackOf (openMade closedMade : Bool) : Readback :=
  match openMade, closedMade with
  | true, false => .opened
  | false, true => .closed
  | false, false => .travel
  | true, true => .invalid

/-- The readback is the position. -/
def Readback.at (rb : Readback) (pos : ValvePos) : Bool :=
  match rb, pos with
  | .opened, .opened | .closed, .closed => true
  | _, _ => false

/-- The fault that a compare decides on a line that is not ISOLATED (R34 to R36). `invalid` is the invalid count
with this sample. -/
def valveFaultOf (x : Line) (rb : Readback) (invalid : Nat) : Option ValveFault :=
  if invalid = 3 then some .bothSwitches
  else
    match x.travel with
    | some t =>
      if rb.at t.target then none
      else if t.allowed ≤ t.elapsed then some (match t.target with | .opened => .noOpen | .closed => .noClose)
      else none
    | none => if rb.at x.command || rb == .invalid then none else some .uncommanded

/-- The readback and the invalid count of the sample, and the end of a travel that has arrived (R32, R33). -/
def Line.readValve (rb : Readback) (x : Line) : Line :=
  { x with
    readback := rb
    invalid := if rb = .invalid then min 3 (x.invalid + 1) else 0
    travel := match x.travel with
      | some t => if rb.at t.target then none else some t
      | none => none }

/-- The line moves its readback confirms: OPENING to ARMED (R30), CLOSING to IDLE (R31). -/
def confirmValve (l : LineId) (s : State) : State :=
  let x := s.line l
  match x.state with
  | .opening => if x.travel = none ∧ x.readback = .opened then enterArmed l s else s
  | .closing => if x.travel = none ∧ x.readback = .closed then s.updLine l Line.toIdle else s
  | .idle | .watch | .armed | .injecting | .holding | .isolated => s

/-- The valve compare of a line sample event. In ISOLATED it raises no fault (R33). The invalid count returns to 0
with VALVE_BOTH_SWITCHES (R35). -/
def valveCompare (l : LineId) (rb : Readback) (s : State) : State :=
  let x := s.line l
  let y := x.readValve rb
  if x.state = .isolated then s.setLine l y
  else
    match valveFaultOf x rb y.invalid with
    | some .bothSwitches => valveFault .bothSwitches rb l (s.setLine l { y with invalid := 0 })
    | some f => valveFault f rb l (s.setLine l y)
    | none => confirmValve l (s.setLine l y)

/-! ### The line sample event (R68, R69) -/

/-- Both samples of a line applied: window, Q, the channels, and the ring emptied at a regain (R71, R73, R81). The
line settings are those in force from this event on (R29). -/
def sampleLine (top lossCount : Nat) (current : Nat) (meterFault : Bool) (x : Line) : Line × Sampled × Sampled :=
  let window := pushWindow x.pulses x.window
  let q := flowOf window x.settings.weight
  let p := x.pressure.sample top lossCount (some (x.settings.range * 2 / 100)) (convertSpan x.settings.range current)
  let f := x.flow.sample top lossCount none (if meterFault then none else some (q : Int))
  ({ x with inForce := x.settings, window := window, pulses := 0, lastQ := q, pressure := p.channel,
            flow := f.channel, ring := if p.regain || f.regain then [] else x.ring }, p, f)

/-- The work of a line sample event: the channels and their consequences, the valve compare, the evaluation or the
watch evaluation, and the end of a start check (R68, R69, R87, R100, R115, R144; log entry 11). -/
def lineSample (l : LineId) (current : Nat) (meterFault openMade closedMade : Bool) (s : State) : State :=
  let r := sampleLine s.counterTop s.settings.lossCount current meterFault (s.line l)
  let s := s.setLine l r.1
  let s := lineChannelEffects .pressure current r.2.1 l s
  let s := lineChannelEffects .flow 0 r.2.2 l s
  let wasOpening := (s.line l).state == .opening
  let s := valveCompare l (readbackOf openMade closedMade) s
  let s :=
    match (s.line l).state with
    | .armed | .injecting | .holding => if wasOpening then s else evaluate l s
    | .watch => watchEvaluation l r.2.1.regain s
    | .idle | .opening | .closing | .isolated => s
  settleStartCheck s

/-! ### Gauges and the level channel (R139, R77) -/

/-- A part-scoped saturation, then loss, of a gauge's or the level channel (R77, R80; log entry 13). -/
def partChannelEffects (number : Nat) (code : FaultCode) (location : Option FaultLocation) (c : Consequence)
    (current : Nat) (r : Sampled) (s : State) : State :=
  let s := if r.saturated then postPart .counterSaturated (some (number : Int)) s else s
  if r.loss then enterFault code (.value current) location c (postPart .sensorLost (some (number : Int)) s) else s

/-- A gauge not judged: its counts return to 0, its warning stays (R139). -/
def Gauge.notJudged (x : Gauge) : Gauge :=
  { x with warnCount := 0, clearCount := 0, stopCount := 0, judged := false }

/-- The uplift and stop count of a judged gauge (R139, step 1). -/
def Gauge.countStop (threshold : Nat) (u : Int) (x : Gauge) : Gauge :=
  { x with u := u, judged := true, stopCount := if (threshold : Int) ≤ u then min 2 (x.stopCount + 1) else 0 }

/-- The warn and clear counts of a judged gauge (R139, steps 2 and 3). -/
def Gauge.countWarn (warn hysteresis : Nat) (x : Gauge) : Gauge :=
  if x.warning then
    let n := if x.u < (warn : Int) - hysteresis then x.clearCount + 1 else 0
    if 8 ≤ n then { x with warning := false, clearCount := 0 } else { x with clearCount := n }
  else
    let n := if (warn : Int) ≤ x.u then x.warnCount + 1 else 0
    if 4 ≤ n then { x with warning := true, warnCount := 0 } else { x with warnCount := n }

/-- The judgement of a gauge after its sample (R139). -/
def judgeGauge (g : GaugeId) (s : State) : State :=
  let x := s.gauge g
  match x.channel.isValid, x.baseline with
  | true, some b =>
    let s := s.setGauge g (x.countStop s.settings.stopThreshold (x.channel.value - b))
    let s := if (s.gauge g).stopCount = 2 ∧ s.stop.upliftStop = false then latchUpliftStop g s else s
    s.updGauge g (Gauge.countWarn s.settings.warnThreshold s.settings.hysteresis)
  | _, _ => s.setGauge g x.notJudged

/-- The work of a gauge sample event: the channel's alerts, the judgement, then UPLIFT_WARN (R139, R140; log entry 13). -/
def gaugeSample (g : GaugeId) (current : Nat) (s : State) : State :=
  let r := (s.gauge g).channel.sample s.counterTop s.settings.lossCount (some 80) (convertUplift current)
  let s := s.updGauge g (fun x => { x with channel := r.channel })
  let s := partChannelEffects (16 + g.val) .upliftGaugeLost (some (.gauge g)) .derate current r s
  formWarn (judgeGauge g s)

/-- The work of a level sample event (R70, R77). -/
def levelSample (current : Nat) (s : State) : State :=
  let cap := s.settings.tankCapacity
  let r := s.level.sample s.counterTop s.settings.lossCount (some (cap * 2 / 100)) (convertSpan cap current)
  partChannelEffects 20 .levelLost none .record current r { s with level := r.channel }

end Sys2Proof.Machine
end

