-- ==== Sys2Proof/Machine/Operands.lean ====
section
/-! DEFINITION. The operand checks of the requests: every range, flag, selector and list that a rule answers
BAD_ARGUMENT for, and the record each accepted body stands for (R2, R28, R44, R119, R122, R154, R161 to R164, R174,
and the table of request bodies of R175). -/

namespace Sys2Proof

open Machine

/-- The value lies from `lo` to `hi`. -/
def within (lo hi n : Nat) : Bool := lo ≤ n && n ≤ hi

/-- A flag or yes-or-no byte: 0 or 1 (section 10.6). -/
def isFlag (n : Nat) : Bool := n ≤ 1

/-- A stage key in its ranges: hole 1–9999, stage 1–20 (section 1.1). -/
def StageKey.valid (k : StageKey) : Bool := within 1 9999 k.hole && within 1 20 k.stage

/-- No value stands twice in the list. -/
def distinct {α : Type} [DecidableEq α] (xs : List α) : Bool := decide xs.Nodup

/-! ### Stage edits (R2, R3) -/

/-- The neighbour list carried: the first slots, as many as the count (log entry 23). -/
def StageWriteArgs.neighbours (a : StageWriteArgs) : List Nat := a.neighbourSlots.take a.neighbourCount

/-- The prerequisite list carried. -/
def StageWriteArgs.prereqs (a : StageWriteArgs) : List StageKey := a.prereqSlots.take a.prereqCount

/-- The scalar fields lie in the ranges of section 1.1, and bottom − top from 50 to 1500 cm (R2). -/
def StageWriteArgs.scalarsOk (a : StageWriteArgs) : Bool :=
  isFlag a.clear && a.key.valid && within 1 4 a.order && within 0 20000 a.top && within 0 20000 a.bottom &&
  within (a.top + 50) (a.top + 1500) a.bottom && within 50 12000 a.pMax && within 10 30000 a.vMax &&
  within 10000 999999 a.jMax && within 1 100 a.qRef && within 60 1800 a.tRef && within 1 20 a.band &&
  within 1 20 a.margin && within 5 50 a.fractureDrop && within 10 200 a.fractureRise && within 1 6 a.startClass &&
  within 50 5000 a.thickStep && within 10 2000 a.riseThreshold && isFlag a.policy && isFlag a.overridden

/-- The two lists: at most 4 entries, in their ranges, none twice, none the stage's own (R2; log entry 30). -/
def StageWriteArgs.listsOk (a : StageWriteArgs) : Bool :=
  a.neighbourCount ≤ 4 && a.neighbours.all (within 1 9999) && distinct a.neighbours &&
  !a.neighbours.contains a.key.hole &&
  a.prereqCount ≤ 4 && a.prereqs.all StageKey.valid && distinct a.prereqs && !a.prereqs.contains a.key

/-- The console-written fields a STAGE_WRITE carries, or none where R2 refuses it. -/
def StageWriteArgs.fields? (a : StageWriteArgs) : Option StageFields :=
  if a.scalarsOk && a.listsOk then
    some { key := a.key, order := a.order, top := a.top, bottom := a.bottom, pMax := a.pMax, vMax := a.vMax,
           jMax := a.jMax, qRef := a.qRef, tRef := a.tRef, band := a.band, margin := a.margin,
           fractureDrop := a.fractureDrop, fractureRise := a.fractureRise, startClass := a.startClass,
           thickStep := a.thickStep, riseThreshold := a.riseThreshold,
           policy := if a.policy = 0 then .hold else .note,
           neighbours := a.neighbours, prereqs := a.prereqs, overridden := a.overridden == 1 }
  else none

/-- A STAGE_DECIDE whose action is known and whose new P_max, if given, comes with CONTINUE (R3). -/
def DecideArgs.ok (a : DecideArgs) : Bool :=
  a.action ≤ 3 && isFlag a.given && (a.given == 0 || a.action == 0)

/-- The new P_max of a CONTINUE, if one is given. -/
def DecideArgs.newPMax (a : DecideArgs) : Option Nat := if a.given = 1 then some a.pMax else none

/-! ### Lines (R28, R44) -/

/-- The line and settings a LINE_CONFIG carries, or none where R28 refuses them. -/
def LineConfigArgs.settings? (a : LineConfigArgs) : Option (LineId × LineSettings) :=
  match lineOf? a.line with
  | some l =>
    if isFlag a.present && within 1000 16000 a.range && within 10 1000 a.weight && within 10 200 a.hose &&
       within 0 500 a.friction && within 20 2000 a.watch then
      some (l, { present := a.present == 1, range := a.range, weight := a.weight, hose := a.hose,
                 friction := a.friction, watch := a.watch })
    else none
  | none => none

/-- The line and the new watch record of a LINE_WATCH, or none where R44 refuses it. Stage 0 is no stage. -/
def LineWatchArgs.watch? (a : LineWatchArgs) : Option (LineId × Watch) :=
  match lineOf? a.line with
  | some l =>
    if within 1 9999 a.hole && within 0 20 a.stage then
      some (l, { hole := a.hole, stage := if a.stage = 0 then none else some a.stage, baseline := none, settle := 0,
                 armed := true, rise := 0, rearm := 0 })
    else none
  | none => none

/-! ### Grout (R122) -/

/-- A BATCH_REPORT's operands pass R122, step 2, at a site time. -/
def BatchArgs.ok (a : BatchArgs) (site : Nat) : Bool :=
  within 1 6 a.cls && within 20 2000 a.volume && isFlag a.given && (a.given == 0 || a.mixedAt ≤ site)

/-! ### Part settings (R174) -/

/-- Every value of a PART_CONFIG lies in its range (R174). -/
def PartConfigArgs.ok (a : PartConfigArgs) : Bool :=
  within 2 30 a.travelTime && within 10 300 a.acceptWindow && within 1 10 a.keepalive && within 5 60 a.holdLimit &&
  within 5 60 a.recordInterval && within 30 240 a.ageLimit && within 0 500 a.residueLimit &&
  within 10 500 a.levelTolerance && within 200 5000 a.tankCapacity && within 50 95 a.derate &&
  within 3 4 a.lossCount && within 10 1000 a.warnThreshold && within (a.warnThreshold + 1) 2000 a.stopThreshold &&
  within 1 100 a.hysteresis && a.hysteresis < a.warnThreshold && isFlag a.wide && a.gauges < 16

/-- The settings a PART_CONFIG carries, or none where R174 refuses them. -/
def PartConfigArgs.settings? (a : PartConfigArgs) : Option PartSettings :=
  if a.ok then
    some { travelTime := a.travelTime, acceptWindow := a.acceptWindow, keepalive := a.keepalive,
           holdLimit := a.holdLimit, recordInterval := a.recordInterval, ageLimit := a.ageLimit,
           residueLimit := a.residueLimit, levelTolerance := a.levelTolerance, tankCapacity := a.tankCapacity,
           derate := a.derate, lossCount := a.lossCount, warnThreshold := a.warnThreshold,
           stopThreshold := a.stopThreshold, hysteresis := a.hysteresis, wide := a.wide == 1,
           gauges := #v[a.gauges.testBit 0, a.gauges.testBit 1, a.gauges.testBit 2, a.gauges.testBit 3] }
  else none

/-! ### Readings, masks, counters and latches -/

/-- A start index and count that a list of `held` entries can answer (R119, R161, R162). -/
def RangeArgs.ok (a : RangeArgs) (held : Nat) : Bool :=
  within 1 4 a.count && (a.start < held || (a.start == 0 && held == 0))

/-- The entries a range reads. -/
def RangeArgs.slice {α : Type} (a : RangeArgs) (xs : List α) : List α := (xs.drop a.start).take a.count

/-- A mask that may be taken: bits 25–31 are 0, UPLIFT_STOP and LOCKDOWN stay enabled (R154, section 10.6). -/
def maskOk (m : Nat) : Bool := m < 2 ^ 25 && m.testBit 0 && m.testBit 1

/-- A pump report in range: the flag is 0 or 1, the stroke rate at most 250 (R56). -/
def PumpStatusArgs.ok (a : PumpStatusArgs) : Bool := isFlag a.running && a.stroke ≤ 250

end Sys2Proof
end

