-- ==== Sys2Proof/Machine/PumpRequests.lean ====
section
/-! DEFINITION. The pump requests: CLAIM, START, PAUSE, PUMP_STATUS and RELEASE (03_injection_grants.md). -/

namespace Sys2Proof.Machine

/-! ### Directives and values (R56, R57) -/

/-- The directive of a line's grant (R57). -/
def Line.directive (x : Line) : Directive :=
  match x.grant with
  | some g =>
    match g.phase with
    | .ending => .quit
    | .live =>
      match x.state with
      | .injecting => .run
      | .holding => .hold
      | .idle | .watch | .opening | .armed | .closing | .isolated => .none
  | none => .none

/-- The computed values a PUMP_STATUS shows: those of a line in ARMED, INJECTING or HOLDING (R56). -/
def Line.shownValues (x : Line) : Option Computed := if x.state.evaluated then x.values else none

/-- The values flag (R56). NONE too for a line that a START took to INJECTING or HOLDING before the first evaluation since
it entered ARMED, which R56 does not decide (log entry 53). -/
def Line.valuesFlag (x : Line) : ValuesFlag :=
  match x.shownValues with
  | some c => if c.stale then .stale else .fresh
  | none => .none

/-- The metered volume of a stage by its key; 0 when the table or the stage has none (R56, R65). -/
def State.volumeOf (s : State) (k : StageKey) : Nat :=
  match s.stage? k with
  | some x => x.volume
  | none => 0

/-- The request of a port that must hold a grant (R50): LOCKED, then NO_GRANT with `without`, then its own checks. -/
def withGrant (p : Port) (without : State → Reply) (own : LineId → Grant → State → Reply) (s : State) : Reply :=
  unlessLocked s (
    match s.portGrant p with
    | some l =>
      match (s.line l).grant with
      | some g => own l g s
      | none => without s
    | none => without s)

/-! ### CLAIM (R51 to R53) -/

/-- The answer to a granted or repeated CLAIM (R52, R53; log entry 40). -/
def claimAnswer (l : LineId) (k : StageKey) (s : State) : Contents :=
  .claim { line := l, key := k, state := (s.line l).state, directive := (s.line l).directive,
           effective := (s.line l).effectiveClass, acceptWindow := s.settings.acceptWindow,
           keepalive := s.settings.keepalive }

/-- The grant record a granted claim makes (R52). -/
def Grant.fresh (p : Port) (c : PartSettings) : Grant :=
  { owner := p, phase := .live, startTaken := false, accept := some ⟨c.acceptWindow, 0⟩,
    keepalive := some ⟨c.keepalive, 0⟩, endReason := none, report := none }

/-- Both classes of a line set to one class at the grant (R131). -/
def Classes.fresh (cls : Nat) : Classes :=
  { demanded := cls, effective := cls, thickening := 0, pendingVolume := 0, pRef := none }

/-- A line taken to OPENING for a stage under a grant (R30, R52, R71, R81, R103, R131; log entry 26). -/
def Line.toOpening (g : Grant) (k : StageKey) (cls travelTime : Nat) (x : Line) : Line :=
  { x with state := .opening, stage := some k, causes := [], holdTimer := none, grant := some g,
           classes := some (Classes.fresh cls), transit := [], mixLag := false, values := none,
           decision := some ⟨0, 0, 0, 0⟩, recordTimer := none, window := [], ring := [] }.drive .opened travelTime

/-- A stage bound by a granted claim at an effective class: ACTIVE and no longer waiting, the max class of a stage with
progress raised to the class at the packer (R11, R22; log entry 41). -/
def Stage.activate (cls : Nat) (x : Stage) : Stage :=
  { x with status := .active, waiting := false, progress := x.progress.map (Progress.raiseClass cls) }

/-- A claim granted, in one step (R52, R131). -/
def grantClaim (p : Port) (l : LineId) (st : Stage) (s : State) : State :=
  let cls := min st.fields.startClass s.grout.tankClass
  let s := s.updLine l (Line.toOpening (Grant.fresh p s.settings) st.key cls s.settings.travelTime)
  let s := s.updPort p (fun x => { x with cut := none })
  let s := s.updStage st.key (Stage.activate cls)
  formMixOrder (saveStage st.key s)

/-- A claim refused MIX_TOO_THICK: the stage waits for its mix (R20, R51). -/
def claimTooThick (k : StageKey) (s : State) : Reply :=
  refuse .mixTooThick (formMixOrder (s.updStage k (fun x => { x with waiting := true })))

/-- Steps 4 to 7 of R51, and the grant. -/
def claimStage (p : Port) (l : LineId) (st : Stage) (s : State) : Reply :=
  if (s.line l).state ≠ .idle then refuse .lineHeld s
  else if st.status ≠ .ready then refuse .stageNotReady s
  else if s.grout.batches.isEmpty then refuse .noGrout s
  else if s.grout.aged then refuse .groutAged s
  else if st.fields.startClass < s.grout.tankClass then claimTooThick st.key s
  else
    let s := grantClaim p l st s
    accept (claimAnswer l st.key s) s

/-- Steps 2 and 3 of R51. -/
def claimGrant (p : Port) (a : ClaimArgs) (s : State) : Reply :=
  match s.portGrant p with
  | some l =>
    if ((s.line l).grant.map Grant.phase) = some .live ∧ a.line = l.val ∧ (s.line l).stage = some a.key then
      accept (claimAnswer l a.key s) s
    else refuse .portHasGrant s
  | none =>
    match lineOf? a.line, s.stage? a.key with
    | some l, some st => if a.key.valid then claimStage p l st s else refuse .badArgument s
    | _, _ => refuse .badArgument s

/-- CLAIM's checks in order (R51). -/
def claimReply (p : Port) (a : ClaimArgs) (s : State) : Reply :=
  unlessLocked s (
    if s.stop.upliftStop || s.stop.estop then refuse .permitOpen s
    else if s.exercise ≠ 0 then refuse .exerciseActive s
    else claimGrant p a s)

/-- CLAIM (R51). -/
def execClaim (p : Port) (tag : Byte) (b : Body ClaimArgs) (s : State) : Host.Outcome State Fault Refusal :=
  request .claim p tag b (claimReply p) s

/-! ### START (R54, R41, R21) -/

/-- The progress that the first START of a stage creates (R21). -/
def Progress.fresh (l : LineId) (effective site : Nat) : Progress :=
  { v := 0, maxPe := 0, maxClass := effective, unmetered := 0, overpressure := 0, connection := 0, injecting := 0,
    holding := 0, firstStart := site, lastLine := l }

/-- A START taken in ARMED, as the stage sees it: its progress is created, or its last line set (R21). -/
def Stage.started (l : LineId) (effective site : Nat) (x : Stage) : Stage :=
  match x.progress with
  | some g => { x with progress := some { g with lastLine := l } }
  | none => { x with progress := some (Progress.fresh l effective site), startTime := some site }

/-- A START taken in ARMED, as the grant sees it (R54). -/
def Grant.started (g : Grant) : Grant := { g with startTaken := true, accept := none }

/-- PUMP leaves the set, and the line goes to INJECTING if nothing is left, else to HOLDING, where a line already
HOLDING keeps its timer (R41). -/
def Line.takeStart (x : Line) : Line :=
  let y := { x with causes := withoutCause .pump x.causes }
  if y.causes = [] then y.enterInjecting
  else if x.state = .holding then y
  else y.enterHolding

/-- A START in ARMED (R54). -/
def startArmed (l : LineId) (s : State) : State :=
  let x := s.line l
  withBound l
    (fun k s => s.updStage k (Stage.started l x.effectiveClass s.clock.site))
    (s.setLine l ({ x with grant := x.grant.map Grant.started } : Line).takeStart)

/-- START handled by the line state (R54). -/
def startReply (l : LineId) (_ : Grant) (s : State) : Reply :=
  match (s.line l).state with
  | .armed =>
    let s := startArmed l s
    accept (.directive (s.line l).directive) s
  | .injecting => accept (.directive (s.line l).directive) s
  | .holding =>
    let s := s.updLine l Line.takeStart
    accept (.directive (s.line l).directive) s
  | .idle | .watch | .opening | .closing | .isolated => refuse .wrongState s

/-- START (R54). -/
def execStart (p : Port) (tag : Byte) (b : Body Unit) (s : State) : Host.Outcome State Fault Refusal :=
  request .start p tag b (fun _ => withGrant p (refuse .noGrant) startReply) s

/-! ### PAUSE (R55) -/

/-- PAUSE handled by the line state (R55). -/
def pauseReply (l : LineId) (_ : Grant) (s : State) : Reply :=
  match (s.line l).state with
  | .armed | .injecting | .holding =>
    let s := addCause .pump l s
    accept (.directive (s.line l).directive) s
  | .idle | .watch | .opening | .closing | .isolated => refuse .wrongState s

/-- PAUSE (R55). -/
def execPause (p : Port) (tag : Byte) (b : Body Unit) (s : State) : Host.Outcome State Fault Refusal :=
  request .pause p tag b (fun _ => withGrant p (refuse .noGrant) pauseReply) s

/-! ### PUMP_STATUS (R56, R65) -/

/-- The answer to a PUMP_STATUS under a grant (R56). -/
def pumpAnswer (l : LineId) (s : State) : PumpAnswer :=
  let x := s.line l
  let key := x.stage.getD ⟨0, 0⟩
  let shown (f : Computed → Nat) : Nat := match x.shownValues with | some c => f c | none => 0
  { line := l, key := key, state := x.state, directive := x.directive,
    endReason := if x.directive = .quit then x.grant.bind Grant.endReason else none,
    valuesFlag := x.valuesFlag, cg := shown Computed.cg, ce := shown Computed.ce, pe := shown Computed.pe,
    q := shown Computed.q, volume := s.volumeOf key, causes := x.causes, effective := x.effectiveClass }

/-- The pump report taken into the grant (R56). -/
def pumpReport (a : PumpStatusArgs) (l : LineId) (_ : Grant) (s : State) : Reply :=
  if a.ok then
    let report : PumpReport := { running := a.running == 1, stroke := a.stroke, time := s.clock.site }
    let s := s.updLine l (fun x => { x with grant := x.grant.map (fun g => { g with report := some report }) })
    accept (.pump (pumpAnswer l s)) s
  else refuse .badArgument s

/-- The answer made from a cut notice (R65). -/
def noticeAnswer (n : CutNotice) (s : State) : PumpAnswer :=
  { line := n.line, key := n.key, state := (s.line n.line).state, directive := .quit, endReason := some n.reason,
    valuesFlag := .none, cg := 0, ce := 0, pe := 0, q := 0, volume := s.volumeOf n.key, causes := [], effective := 0 }

/-- A PUMP_STATUS from a port without a grant (R65). -/
def pumpStatusWithout (p : Port) (a : PumpStatusArgs) (s : State) : Reply :=
  match (s.port p).cut with
  | some n =>
    if a.ok then accept (.pump (noticeAnswer n s)) (s.updPort p (fun x => { x with cut := none }))
    else refuse .badArgument s
  | none => refuse .noGrant s

/-- PUMP_STATUS (R56). -/
def execPumpStatus (p : Port) (tag : Byte) (b : Body PumpStatusArgs) (s : State) :
    Host.Outcome State Fault Refusal :=
  request .pumpStatus p tag b (fun a => withGrant p (pumpStatusWithout p a) (pumpReport a)) s

/-! ### RELEASE (R61, R65) -/

/-- A LIVE grant given up: its line closes, and its stage is READY or SUSPENDED by START taken (R61). -/
def releaseLive (l : LineId) (g : Grant) (s : State) : State :=
  withBound l (fun k => if g.startTaken then suspendStage (some l) k .releasedEarly else returnToReady k)
    (closeLine .released l s)

/-- RELEASE handled by the grant (R61). -/
def releaseReply (l : LineId) (g : Grant) (s : State) : Reply :=
  match g.phase with
  | .live => accept (.directive .quit) (releaseLive l g s)
  | .ending =>
    if g.endReason = some .keepaliveLost then refuse .noGrant s else accept (.directive .quit) s

/-- A RELEASE from a port without a grant removes its cut notice (R65). -/
def releaseWithout (p : Port) (s : State) : Reply :=
  refuse .noGrant (s.updPort p (fun x => { x with cut := none }))

/-- RELEASE (R61). -/
def execRelease (p : Port) (tag : Byte) (b : Body Unit) (s : State) : Host.Outcome State Fault Refusal :=
  request .release p tag b (fun _ => withGrant p (releaseWithout p) releaseReply) s

end Sys2Proof.Machine
end

