-- ==== Sys2Proof/Machine/ReadRequests.lean ====
section
/-! DEFINITION. The reading requests: STATUS, STAGE_READ, LINE_READ, READ_ALERTS, ALERT_MASK, READ_RECORDS,
READ_COMPLETIONS, READ_FAULTS and READ_CONNECTIONS (R9, R119, R154, R157, R160 to R162, R172, R173). All are taken
in every part mode (R149). -/

namespace Sys2Proof.Machine

/-! ### STATUS (R172) -/

/-- What STATUS shows of one line (R172). -/
def Line.summary (x : Line) : LineSummary :=
  { state := x.state, owner := x.owner, key := x.stage, causes := x.causes }

/-- The four counters STATUS shows of one port (R172). -/
def PortRecord.counters (x : PortRecord) : Nat × Nat × Nat × Nat :=
  (x.crc.count, x.framing.count, x.overrun.count, x.slip.count)

/-- The keys of the stages that wait for their mix, in key order (R20, R172). -/
def State.waitingKeys (s : State) : List StageKey := (s.store.stages.filter Stage.waiting).map Stage.key

/-- The contents of STATUS (R172). -/
def State.report (s : State) : StatusReport :=
  { mode := s.mode, lockdown := s.stop.lockdown, upliftStop := s.stop.upliftStop, estop := s.stop.estop,
    exercise := s.exercise, startCheck := s.stop.startCheck, permitClosed := s.permitClosed, warn := s.stop.warn,
    degraded := s.stop.degraded, enables := s.settings.gauges, gauges := s.gauges, holdAll := s.holdAll,
    tankClass := s.grout.tankClass, mixOrder := s.grout.mixOrder, batches := s.grout.batches.length,
    accountedLitres := s.grout.accounted / 1000, unaccountedLitres := s.grout.unaccounted / 1000,
    oldestMinutes := s.oldestAge / 60, level := s.level, difference := s.grout.difference,
    levelMismatch := s.grout.levelMismatch, waiting := s.waitingKeys.length, waitingKeys := s.waitingKeys.take 4,
    lines := lineIds.map (fun l => (s.line l).summary), live := FaultCode.all.filter s.live,
    latched := FaultCode.all.filter (fun c => s.record.latched.contains c), time := s.clock.site,
    timeValid := s.clock.valid, portCounters := allPorts.map (fun p => (s.port p).counters),
    readerSlips := (s.record.readerC0.slips.count, s.record.readerC1.slips.count) }

/-- STATUS (R172). -/
def execStatus (p : Port) (tag : Byte) (b : Body Unit) (s : State) : Host.Outcome State Fault Refusal :=
  request .status p tag b (fun _ s => accept (.status s.report) s) s

/-! ### STAGE_READ and LINE_READ (R9, R173) -/

/-- The position of the stage a STAGE_READ names (R9): a field the selector does not name is not examined. -/
def StageReadArgs.positionIn (stages : List Stage) (a : StageReadArgs) : Option Nat :=
  if a.selector = 0 then stages.findIdx? (fun x => x.key == a.key)
  else if a.selector = 1 then some a.position
  else none

/-- The answer to STAGE_READ (R9). -/
def stageReadReply (a : StageReadArgs) (s : State) : Reply :=
  match StageReadArgs.positionIn s.store.stages a with
  | some i =>
    match s.store.stages[i]? with
    | some x => accept (.stageRead s.store.stages.length i x) s
    | none => refuse .badArgument s
  | none => refuse .badArgument s

/-- STAGE_READ (R9). -/
def execStageRead (p : Port) (tag : Byte) (b : Body StageReadArgs) (s : State) :
    Host.Outcome State Fault Refusal :=
  request .stageRead p tag b stageReadReply s

/-- The grant record of a line, with its line and its stage key; none where the line has no grant (R49, section 3.1). -/
def State.grantReport (s : State) (l : LineId) : Option GrantReport :=
  (s.line l).grant.map (fun g => { line := l, key := (s.line l).stage, grant := g })

/-- The answer to LINE_READ (R173). -/
def lineReadReply (n : Nat) (s : State) : Reply :=
  match lineOf? n with
  | some l => accept (.lineRead (s.line l) (s.grantReport l)) s
  | none => refuse .badArgument s

/-- LINE_READ (R173). -/
def execLineRead (p : Port) (tag : Byte) (b : Body Nat) (s : State) : Host.Outcome State Fault Refusal :=
  request .lineRead p tag b lineReadReply s

/-! ### READ_ALERTS and ALERT_MASK (R154, R157) -/

/-- Up to 8 of the oldest entries removed and returned, and the slip flag cleared (R157). -/
def readAlertsReply (p : Port) (s : State) : Reply :=
  let x := s.port p
  accept (.alerts (x.queue.take 8) x.slipFlag)
    (s.setPort p { x with queue := x.queue.drop 8, slipFlag := false })

/-- READ_ALERTS (R157). -/
def execReadAlerts (p : Port) (tag : Byte) (b : Body Unit) (s : State) : Host.Outcome State Fault Refusal :=
  request .readAlerts p tag b (fun _ => readAlertsReply p) s

/-- The port's mask replaced (R154). -/
def alertMaskReply (p : Port) (m : Nat) (s : State) : Reply :=
  if maskOk m then
    accept (.mask (BitVec.ofNat 32 m)) (s.updPort p (fun x => { x with mask := BitVec.ofNat 32 m }))
  else refuse .badArgument s

/-- ALERT_MASK (R154). -/
def execAlertMask (p : Port) (tag : Byte) (b : Body Nat) (s : State) : Host.Outcome State Fault Refusal :=
  request .alertMask p tag b (alertMaskReply p) s

/-! ### READ_RECORDS (R159, R160) -/

/-- The reader of a console's port; the pump ports have none (R159). -/
def Records.reader? (r : Records) : Port → Option Reader
  | .c0 => some r.readerC0
  | .c1 => some r.readerC1
  | .p0 | .p1 | .p2 | .p3 => none

/-- A console's reader replaced. -/
def Records.setReader (p : Port) (x : Reader) (r : Records) : Records :=
  match p with
  | .c0 => { r with readerC0 := x }
  | .c1 => { r with readerC1 := x }
  | .p0 | .p1 | .p2 | .p3 => r

/-- The number of records a reader keeps in the queue. -/
def Reader.holds (x : Reader) : Nat := if x.enabled then x.unread else 0

/-- A record stays in the queue until every enabled reader has read past it (R159). -/
def Records.trim (r : Records) : Records :=
  { r with records := lastN (max r.readerC0.holds r.readerC1.holds) r.records }

/-- Up to 4 records from the sending console's position (R160). -/
def readRecordsReply (p : Port) (s : State) : Reply :=
  match s.record.reader? p with
  | some x =>
    if x.enabled then
      let out := (lastN x.unread s.record.records).take 4
      let left := x.unread - out.length
      accept (.records out left) (s.updRecord (fun r => (r.setReader p { x with unread := left }).trim))
    else refuse .wrongState s
  | none => refuse .wrongState s

/-- READ_RECORDS (R160). -/
def execReadRecords (p : Port) (tag : Byte) (b : Body Unit) (s : State) : Host.Outcome State Fault Refusal :=
  request .readRecords p tag b (fun _ => readRecordsReply p) s

/-! ### READ_COMPLETIONS, READ_FAULTS and READ_CONNECTIONS (R119, R161, R162) -/

/-- The answer to a reading of a list from a start index (R119, R161, R162). -/
def rangeReply {α : Type} (xs : List α) (contents : Nat → List α → Contents) (a : RangeArgs) (s : State) : Reply :=
  if a.ok xs.length then accept (contents xs.length (a.slice xs)) s else refuse .badArgument s

/-- READ_COMPLETIONS (R161). -/
def execReadCompletions (p : Port) (tag : Byte) (b : Body RangeArgs) (s : State) :
    Host.Outcome State Fault Refusal :=
  request .readCompletions p tag b (fun a s => rangeReply s.record.completions .completions a s) s

/-- READ_FAULTS (R162). -/
def execReadFaults (p : Port) (tag : Byte) (b : Body RangeArgs) (s : State) : Host.Outcome State Fault Refusal :=
  request .readFaults p tag b (fun a s => rangeReply s.record.faults .faults a s) s

/-- READ_CONNECTIONS (R119). -/
def execReadConnections (p : Port) (tag : Byte) (b : Body RangeArgs) (s : State) :
    Host.Outcome State Fault Refusal :=
  request .readConnections p tag b (fun a s => rangeReply s.connections.records .connections a s) s

end Sys2Proof.Machine
end

