-- ==== Sys2Proof/Machine/StageRequests.lean ====
section
/-! DEFINITION. The stage edits: STAGE_WRITE, STAGE_RELEASE, STAGE_WITHDRAW, the four STAGE_DECIDE actions and
STAGE_DELETE (R3 to R8, R16 to R19). -/

namespace Sys2Proof.Machine

/-- The first two checks of a stage edit (R3): LOCKED, then STORE_FAULT. -/
def stageEdit (s : State) (r : Reply) : Reply :=
  unlessLocked s (if s.store.fault then refuse .storeFault s else r)

/-- An edit of a stage that must be in the table (R3). -/
def stageEditOf (k : StageKey) (own : Stage → State → Reply) (s : State) : Reply :=
  stageEdit s (
    match s.stage? k with
    | some x => own x s
    | none => refuse .badArgument s)

/-- A taken edit's answer: the stage's status after it (R3), absent after a STAGE_DELETE (log entry 52). -/
def editDone (k : StageKey) (s : State) : Reply := accept (.stageStatus ((s.stage? k).map Stage.status)) s

/-! ### STAGE_WRITE (R2, R4, R5) -/

/-- A new record (R4). -/
def Stage.fresh (f : StageFields) : Stage :=
  { fields := f, waiting := false, status := .draft, endCause := none, decision := noDecision, progress := none,
    startTime := none, endTime := none }

/-- A DRAFT record rewritten, its progress cleared or kept (R5). -/
def Stage.rewrite (f : StageFields) (clear : Bool) (x : Stage) : Stage :=
  if clear then { x with fields := f, progress := none, startTime := none, endTime := none }
  else { x with fields := f }

/-- A record put into the working table and written through (R4, R5). -/
def storeStage (x : Stage) (s : State) : State :=
  saveStage x.key (s.setStages (insertStage x s.store.stages))

/-- STAGE_WRITE's checks and effect (R2 to R5). -/
def stageWriteReply (a : StageWriteArgs) (s : State) : Reply :=
  stageEdit s (
    match a.fields? with
    | none => refuse .badArgument s
    | some f =>
      match s.stage? f.key with
      | some x =>
        if x.status = .draft then editDone f.key (storeStage (x.rewrite f (a.clear == 1)) s)
        else refuse .wrongState s
      | none =>
        if 64 ≤ s.store.stages.length then refuse .tableFull s
        else editDone f.key (storeStage (Stage.fresh f) s))

/-- STAGE_WRITE (R4, R5). -/
def execStageWrite (p : Port) (tag : Byte) (b : Body StageWriteArgs) (s : State) :
    Host.Outcome State Fault Refusal :=
  request .stageWrite p tag b stageWriteReply s

/-! ### STAGE_RELEASE and STAGE_WITHDRAW (R6, R7) -/

/-- The status a released stage takes (R6). -/
def State.releasedStatus (s : State) (f : StageFields) : StageStatus :=
  if f.overridden || s.allComplete f.prereqs then .ready else .blocked

/-- STAGE_RELEASE's own checks and effect (R6). -/
def stageReleaseOwn (x : Stage) (s : State) : Reply :=
  if x.status ≠ .draft then refuse .wrongState s
  else if x.fields.prereqs.all (fun k => (s.stage? k).isSome) then
    let st := s.releasedStatus x.fields
    editDone x.key (saveStage x.key (s.updStage x.key (fun x => { x with status := st })))
  else refuse .badArgument s

/-- STAGE_RELEASE (R6). -/
def execStageRelease (p : Port) (tag : Byte) (b : Body StageKey) (s : State) : Host.Outcome State Fault Refusal :=
  request .stageRelease p tag b (fun k => stageEditOf k stageReleaseOwn) s

/-- STAGE_WITHDRAW's own check and effect (R7). -/
def stageWithdrawOwn (x : Stage) (s : State) : Reply :=
  match x.status with
  | .ready | .blocked =>
    editDone x.key (formMixOrder
      (saveStage x.key (s.updStage x.key (fun x => { x with status := .draft, waiting := false }))))
  | .draft | .active | .suspended | .complete | .abandoned => refuse .wrongState s

/-- STAGE_WITHDRAW (R7). -/
def execStageWithdraw (p : Port) (tag : Byte) (b : Body StageKey) (s : State) : Host.Outcome State Fault Refusal :=
  request .stageWithdraw p tag b (fun k => stageEditOf k stageWithdrawOwn) s

/-! ### STAGE_DELETE (R8) -/

/-- A stage not in DRAFT names the key among its prerequisites (R8). -/
def State.inUse (s : State) (k : StageKey) : Bool :=
  s.store.stages.any (fun x => x.status != .draft && x.fields.prereqs.contains k)

/-- A summary taken out of the completion list (R8, R161). -/
def removeSummary (k : StageKey) (s : State) : State :=
  s.updRecord (fun r => { r with completions := dropSummary k r.completions })

/-- A stage removed from the table, with its summary and its part in the mix order; one write carries the removal of both
(R8, R20, R161; log entry 47). -/
def deleteStage (k : StageKey) (s : State) : State :=
  formMixOrder (writeThrough (.stageRemoved k)
    (removeSummary k (s.setStages (removeStage k s.store.stages))))

/-- STAGE_DELETE's own checks and effect (R8). -/
def stageDeleteOwn (x : Stage) (s : State) : Reply :=
  match x.status with
  | .draft | .complete | .abandoned =>
    if s.inUse x.key then refuse .inUse s else editDone x.key (deleteStage x.key s)
  | .ready | .blocked | .active | .suspended => refuse .wrongState s

/-- STAGE_DELETE (R8). -/
def execStageDelete (p : Port) (tag : Byte) (b : Body StageKey) (s : State) : Host.Outcome State Fault Refusal :=
  request .stageDelete p tag b (fun k => stageEditOf k stageDeleteOwn) s

/-! ### STAGE_DECIDE (R16 to R19) -/

/-- The line that carries an ACTIVE stage: in OPENING, ARMED, INJECTING or HOLDING with its key (R11). -/
def State.carrier? (s : State) (k : StageKey) : Option LineId :=
  lineIds.find? (fun l => (s.line l).state.live && (s.line l).stage == some k)

/-- A STAGE_DECIDE's checks up to the status checks (R3). -/
def decideOf (a : DecideArgs) (own : Stage → State → Reply) (s : State) : Reply :=
  stageEdit s (
    match s.stage? a.key with
    | some x => if a.ok then own x s else refuse .badArgument s
    | none => refuse .badArgument s)

/-- The causes of a pending decision leave the set of the line that carries the stage (R16). -/
def removeDecided (d : PendingDecision) (l : LineId) (s : State) : State :=
  let s := if d.fracture then removeCause .fracture l s else s
  if d.connection then removeCause .connection l s else s

/-- P_max lowered and the ceilings of the carrying line re-formed at once (R16, R101). -/
def lowerPMax (k : StageKey) (new : Option Nat) (s : State) : State :=
  match new with
  | some v =>
    let s := s.updStage k (fun x => { x with fields := { x.fields with pMax := v } })
    match s.carrier? k with
    | some l => reformCeilings l s
    | none => s
  | none => s

/-- A CONTINUE taken: P_max, the causes, the pending decision, the write (R16). -/
def continueStage (x : Stage) (new : Option Nat) (s : State) : State :=
  let s := lowerPMax x.key new s
  let s := match s.carrier? x.key with | some l => removeDecided x.decision l s | none => s
  saveStage x.key (s.updStage x.key (fun x => { x with decision := noDecision }))

/-- A new P_max is at least 50 and below the present one; none is always right (R16). -/
def pMaxOk (present : Nat) (new : Option Nat) : Bool :=
  match new with
  | some v => 50 ≤ v && v < present
  | none => true

/-- CONTINUE's own checks and effect (R16). -/
def decideContinueOwn (a : DecideArgs) (x : Stage) (s : State) : Reply :=
  if x.status = .active ∧ x.decision.isPending = true then
    if pMaxOk x.fields.pMax a.newPMax then editDone x.key (continueStage x a.newPMax s)
    else refuse .badArgument s
  else refuse .wrongState s

/-- STAGE_DECIDE CONTINUE (R16). An action code the table does not list comes here too and is refused (R3; log
entry 22). -/
def execStageDecideContinue (p : Port) (tag : Byte) (b : Body DecideArgs) (s : State) :
    Host.Outcome State Fault Refusal :=
  request .stageDecide p tag b (fun a => decideOf a (decideContinueOwn a)) s

/-- CLOSE and ABANDON are taken of a SUSPENDED stage, and of an ACTIVE one with a pending decision (R17, R18). -/
def Stage.mayEnd (x : Stage) : Bool :=
  x.status == .suspended || (x.status == .active && x.decision.isPending)

/-- A stage ended by a console: on its line when it is ACTIVE, without one when it is SUSPENDED (R17, R18). The summary's
final C_e and J are the line's computed values as they stand, re-formed by a CONTINUE too (R102, R120; log entry 50). -/
def endByConsole (x : Stage) (status : StageStatus) (cause : EndCause) (reason : EndReason) (s : State) : State :=
  let finish (l : Option LineId) (values : Option Computed) (s : State) : State :=
    if status = .complete then completeStage l x.key cause values s else finishStage l x.key status cause values s
  match (if x.status = .active then s.carrier? x.key else none) with
  | some l => closeLine reason l (finish (some l) (s.line l).values s)
  | none => formMixOrder (finish none none s)

/-- CLOSE's own check and effect (R17). -/
def decideCloseOwn (x : Stage) (s : State) : Reply :=
  if x.mayEnd then editDone x.key (endByConsole x .complete .closedByConsole .closedByConsole s)
  else refuse .wrongState s

/-- STAGE_DECIDE CLOSE (R17). -/
def execStageDecideClose (p : Port) (tag : Byte) (b : Body DecideArgs) (s : State) :
    Host.Outcome State Fault Refusal :=
  request .stageDecide p tag b (fun a => decideOf a decideCloseOwn) s

/-- ABANDON's own check and effect (R18). -/
def decideAbandonOwn (x : Stage) (s : State) : Reply :=
  if x.mayEnd then editDone x.key (endByConsole x .abandoned .abandonedByConsole .abandonedByConsole s)
  else refuse .wrongState s

/-- STAGE_DECIDE ABANDON (R18). -/
def execStageDecideAbandon (p : Port) (tag : Byte) (b : Body DecideArgs) (s : State) :
    Host.Outcome State Fault Refusal :=
  request .stageDecide p tag b (fun a => decideOf a decideAbandonOwn) s

/-- RESUME's own check and effect (R19). -/
def decideResumeOwn (x : Stage) (s : State) : Reply :=
  if x.status = .suspended then
    editDone x.key (formMixOrder (saveStage x.key (s.updStage x.key (fun x =>
      { x with status := .ready, endCause := none, waiting := false }))))
  else refuse .wrongState s

/-- STAGE_DECIDE RESUME (R19). -/
def execStageDecideResume (p : Port) (tag : Byte) (b : Body DecideArgs) (s : State) :
    Host.Outcome State Fault Refusal :=
  request .stageDecide p tag b (fun a => decideOf a decideResumeOwn) s

end Sys2Proof.Machine
end

