-- ==== Sys2Proof/Machine/LineRequests.lean ====
section
/-! DEFINITION. The line requests of the consoles: LINE_CONFIG, LINE_WATCH, LINE_UNWATCH, LINE_ISOLATE, LINE_RETURN,
HOLD_ALL and RELEASE_ALL (R28, R29, R43 to R45, R84). -/

namespace Sys2Proof.Machine

/-- A console request on one line: LOCKED, then BAD_ARGUMENT for a line outside 0–7 (R44, R45). -/
def lineRequest (n : Nat) (own : LineId → State → Reply) (s : State) : Reply :=
  unlessLocked s (
    match lineOf? n with
    | some l => own l s
    | none => refuse .badArgument s)

/-! ### LINE_CONFIG (R28, R29, R84) -/

/-- Present set to no: isolated NOT_PRESENT, channels OFF, window and ring emptied (R29, R84). -/
def Line.withdrawn (x : Line) : Line :=
  { x with state := .isolated, isolation := some .notPresent, pressure := x.pressure.switchOff,
           flow := x.flow.switchOff, window := [], pulses := 0, ring := [] }

/-- Present set to yes on a line that was not: its channels start as at power-on (R29, R84). -/
def Line.returned (x : Line) : Line :=
  { x with pressure := x.pressure.switchOn, flow := x.flow.switchOn }

/-- New settings of a line. They govern it from its next sample event; Present acts at once (R29; log entry 17). -/
def Line.configure (c : LineSettings) (x : Line) : Line :=
  let y := { x with settings := c }
  if !c.present then y.withdrawn
  else if !x.settings.present then y.returned
  else y

/-- LINE_CONFIG's checks and effect (R28). -/
def lineConfigReply (a : LineConfigArgs) (s : State) : Reply :=
  unlessLocked s (
    match a.settings? with
    | none => refuse .badArgument s
    | some (l, c) =>
      match (s.line l).state with
      | .idle | .isolated => accept .header (writeThrough (.line l c) (s.updLine l (Line.configure c)))
      | .watch | .opening | .armed | .injecting | .holding | .closing => refuse .wrongState s)

/-- LINE_CONFIG (R28). -/
def execLineConfig (p : Port) (tag : Byte) (b : Body LineConfigArgs) (s : State) :
    Host.Outcome State Fault Refusal :=
  request .lineConfig p tag b lineConfigReply s

/-! ### LINE_WATCH and LINE_UNWATCH (R44) -/

/-- LINE_WATCH's checks and effect (R44). -/
def lineWatchReply (a : LineWatchArgs) (s : State) : Reply :=
  unlessLocked s (
    match a.watch? with
    | none => refuse .badArgument s
    | some (l, w) =>
      if (s.line l).state = .idle then
        accept .header (s.updLine l (fun x => { x with state := .watch, watch := some w }))
      else refuse .lineHeld s)

/-- LINE_WATCH (R44). -/
def execLineWatch (p : Port) (tag : Byte) (b : Body LineWatchArgs) (s : State) :
    Host.Outcome State Fault Refusal :=
  request .lineWatch p tag b lineWatchReply s

/-- LINE_UNWATCH's own check and effect (R44). -/
def lineUnwatchOwn (l : LineId) (s : State) : Reply :=
  if (s.line l).state = .watch then
    accept .header (s.updLine l (fun x => { x with state := .idle, watch := none }))
  else refuse .wrongState s

/-- LINE_UNWATCH (R44). -/
def execLineUnwatch (p : Port) (tag : Byte) (b : Body Nat) (s : State) : Host.Outcome State Fault Refusal :=
  request .lineUnwatch p tag b (fun n => lineRequest n lineUnwatchOwn) s

/-! ### LINE_ISOLATE and LINE_RETURN (R45) -/

/-- LINE_ISOLATE's own check and effect (R45). -/
def lineIsolateOwn (l : LineId) (s : State) : Reply :=
  match (s.line l).state with
  | .idle | .watch =>
    accept .header (s.updLine l (fun x => { x with state := .isolated, isolation := some .console, watch := none }))
  | .opening | .armed | .injecting | .holding | .closing | .isolated => refuse .wrongState s

/-- LINE_ISOLATE (R45). -/
def execLineIsolate (p : Port) (tag : Byte) (b : Body Nat) (s : State) : Host.Outcome State Fault Refusal :=
  request .lineIsolate p tag b (fun n => lineRequest n lineIsolateOwn) s

/-- LINE_RETURN's own checks and effect (R45). -/
def lineReturnOwn (l : LineId) (s : State) : Reply :=
  let x := s.line l
  if x.state = .isolated ∧ x.settings.present = true ∧ x.readback = .closed then
    accept .header (s.setLine l { x with state := .idle, command := .closed, isolation := none, invalid := 0 })
  else refuse .wrongState s

/-- LINE_RETURN (R45). -/
def execLineReturn (p : Port) (tag : Byte) (b : Body Nat) (s : State) : Host.Outcome State Fault Refusal :=
  request .lineReturn p tag b (fun n => lineRequest n lineReturnOwn) s

/-! ### HOLD_ALL and RELEASE_ALL (R43) -/

/-- HOLD_ALL's checks and effect (R43). A flag already set changes nothing. -/
def holdAllReply (s : State) : Reply :=
  unlessLocked s (
    if s.holdAll then accept .header s
    else accept .header (forLines (addCause .console) { s with holdAll := true }))

/-- HOLD_ALL (R43). -/
def execHoldAll (p : Port) (tag : Byte) (b : Body Unit) (s : State) : Host.Outcome State Fault Refusal :=
  request .holdAll p tag b (fun _ => holdAllReply) s

/-- RELEASE_ALL's checks and effect (R43). A flag already clear changes nothing. -/
def releaseAllReply (s : State) : Reply :=
  unlessLocked s (
    if s.holdAll then accept .header (forLines (removeCause .console) { s with holdAll := false })
    else accept .header s)

/-- RELEASE_ALL (R43). -/
def execReleaseAll (p : Port) (tag : Byte) (b : Body Unit) (s : State) : Host.Outcome State Fault Refusal :=
  request .releaseAll p tag b (fun _ => releaseAllReply) s

end Sys2Proof.Machine
end

