-- ==== Sys2Proof/Machine/SupplyRequests.lean ====
section
/-! DEFINITION. The grout requests of the consoles, BATCH_REPORT and TANK_DUMP (R122 to R124), and the uplift
requests, UPLIFT_ZERO and UPLIFT_CLEAR (R138, R142). -/

namespace Sys2Proof.Machine

/-! ### BATCH_REPORT (R122, R123) -/

/-- OFF_ORDER and BLEND, decided against the list and the order as the report found them (R123). Where one
report posts both, OFF_ORDER is posted first (log entry 13). -/
def batchAlerts (cls number : Nat) (s : State) : State :=
  let g := s.grout
  let off := g.mixOrder ≠ 0 ∧ cls ≠ g.mixOrder
  let blend := g.batches ≠ [] ∧ cls ≠ g.tankClass ∧ s.settings.residueLimit * 1000 ≤ g.accounted
  let s := if off then postPart .offOrder (some (number : Int)) s else s
  if blend then postPart .blend (some (number : Int)) s else s

/-- The batch appended; a report into any list ends NO_GROUT_ACCOUNT (R122, R126). -/
def Grout.addBatch (b : Batch) (g : Grout) : Grout :=
  { g with batches := g.batches ++ [b], nextBatch := nextNumber g.nextBatch, noGrout := false }

/-- The batch a report describes (R122). -/
def BatchArgs.batch (a : BatchArgs) (number site : Nat) : Batch :=
  { number := number, cls := a.cls, volume := a.volume, remaining := a.volume * 1000,
    mixedAt := if a.given = 1 then a.mixedAt else site }

/-- A report taken (R122, R123, R127, R128). -/
def takeBatch (a : BatchArgs) (s : State) : State :=
  let number := s.grout.nextBatch
  let before := s.grout.tankClass
  let first := s.grout.batches.isEmpty
  let s := batchAlerts a.cls number s
  let s := s.updGrout (Grout.addBatch (BatchArgs.batch a number s.clock.site))
  let s := tankClassFrom before s
  if first then decideAged s else s

/-- BATCH_REPORT's checks and effect (R122). -/
def batchReportReply (a : BatchArgs) (s : State) : Reply :=
  unlessLocked s (
    if !a.ok s.clock.site then refuse .badArgument s
    else if 8 ≤ s.grout.batches.length then refuse .tableFull s
    else
      let number := s.grout.nextBatch
      let s := takeBatch a s
      accept (.batch number s.grout.batches.length s.grout.tankClass (s.grout.accounted / 1000)) s)

/-- BATCH_REPORT (R122). -/
def execBatchReport (p : Port) (tag : Byte) (b : Body BatchArgs) (s : State) :
    Host.Outcome State Fault Refusal :=
  request .batchReport p tag b batchReportReply s

/-! ### TANK_DUMP (R124) -/

/-- TANK_DUMP's check and effect (R124). -/
def tankDumpReply (s : State) : Reply :=
  unlessLocked s (
    accept (.dump s.grout.batches.length (s.grout.accounted / 1000))
      (decideAged (s.updGrout (fun g => { g with batches := [] }))))

/-- TANK_DUMP (R124). -/
def execTankDump (p : Port) (tag : Byte) (b : Body Unit) (s : State) : Host.Outcome State Fault Refusal :=
  request .tankDump p tag b (fun _ => tankDumpReply) s

/-! ### UPLIFT_ZERO (R138) -/

/-- A gauge's present reading taken as zero, or its baseline made absent (R138). -/
def Gauge.zero (x : Gauge) : Gauge :=
  { x with baseline := if x.channel.isValid then some x.channel.value else none, u := 0, warning := false,
           warnCount := 0, clearCount := 0, stopCount := 0 }

/-- Every enabled gauge taken as zero; disabled gauges are not changed (R138). -/
def zeroGauges (s : State) : State :=
  gaugeIds.foldl (fun s g => if s.enabled g then s.updGauge g Gauge.zero else s) s

/-- UPLIFT_ZERO's checks and effect (R138). -/
def upliftZeroReply (s : State) : Reply :=
  unlessLocked s (
    if s.stop.upliftStop then refuse .conditionPresent s
    else
      let s := formWarn (zeroGauges s)
      accept (.baselines (gaugeIds.map (fun g => (s.gauge g).baseline))) s)

/-- UPLIFT_ZERO (R138). -/
def execUpliftZero (p : Port) (tag : Byte) (b : Body Unit) (s : State) : Host.Outcome State Fault Refusal :=
  request .upliftZero p tag b (fun _ => upliftZeroReply) s

/-! ### UPLIFT_CLEAR (R142) -/

/-- Every enabled gauge is below warn (R142). -/
def State.allBelowWarn (s : State) : Bool := gaugeIds.all (fun g => !s.enabled g || s.belowWarn g)

/-- UPLIFT_CLEAR's checks and effect (R142). -/
def upliftClearReply (s : State) : Reply :=
  unlessLocked s (
    if !s.stop.upliftStop then accept .header s
    else if s.allBelowWarn then
      accept .header (forLines (removeCause .uplift) (s.updStop (fun x => { x with upliftStop := false })))
    else refuse .conditionPresent s)

/-- UPLIFT_CLEAR (R142). -/
def execUpliftClear (p : Port) (tag : Byte) (b : Body Unit) (s : State) : Host.Outcome State Fault Refusal :=
  request .upliftClear p tag b (fun _ => upliftClearReply) s

end Sys2Proof.Machine
end

