-- ==== Sys2Proof/Machine/PartRequests.lean ====
section
/-! DEFINITION. The part-wide requests of the consoles: PART_CONFIG, READER_ENABLE, CLEAR_COUNTERS, CLEAR_LATCHES,
SET_TIME, EXERCISE_STEP and RESET (R47, R79, R84, R137, R150, R159, R163 to R166, R174). -/

namespace Sys2Proof.Machine

/-- Some line is in OPENING, ARMED, INJECTING or HOLDING (R150, R166, R174). -/
def State.anyLive (s : State) : Bool := s.anyLine (fun x => x.state.live)

/-! ### PART_CONFIG: wide counters turned off (R22, R79, R80, R164) -/

/-- The four counters of a port, with the codes of R164. -/
def PortRecord.counterList (x : PortRecord) : List (PortCounter × Counter) :=
  [(.crc, x.crc), (.framing, x.framing), (.overrun, x.overrun), (.slip, x.slip)]

/-- A port's counters clamped to 255. -/
def PortRecord.narrow (x : PortRecord) : PortRecord :=
  { x with crc := x.crc.narrow.1, framing := x.framing.narrow.1, overrun := x.overrun.narrow.1,
           slip := x.slip.narrow.1 }

/-- A channel's counter clamped to 255. -/
def Channel.narrow (c : Channel) : Channel := { c with counter := c.counter.narrow.1 }

/-- A reader's counter clamped to 255. -/
def Reader.narrow (x : Reader) : Reader := { x with slips := x.slips.narrow.1 }

/-- The three counts of a progress record clamped to 255 (R22). -/
def Progress.narrow (g : Progress) : Progress :=
  { g with unmetered := min 255 g.unmetered, overpressure := min 255 g.overpressure,
           connection := min 255 g.connection }

/-- Every saturating count clamped to 255 (R22, R79, R164), those of the working table alone among the stages' (log entry
55). -/
def narrowCounters (s : State) : State :=
  let s := forLines (fun l => State.updLine l (fun x => { x with pressure := x.pressure.narrow, flow := x.flow.narrow })) s
  let s := gaugeIds.foldl (fun s g => s.updGauge g (fun x => { x with channel := x.channel.narrow })) s
  let s := allPorts.foldl (fun s p => s.updPort p PortRecord.narrow) s
  let s := { s with level := s.level.narrow }
  let s := s.updRecord (fun r => { r with readerC0 := r.readerC0.narrow, readerC1 := r.readerC1.narrow })
  s.setStages (s.store.stages.map (fun x => { x with progress := x.progress.map Progress.narrow }))

/-- A line channel's COUNTER_SATURATED at the clamping (R80). -/
def postLineSaturated (k : LineChannel) (c : Channel) (l : LineId) (s : State) : State :=
  if c.counter.narrow.2 then postLine l .counterSaturated (some ((k.number l : Nat) : Int)) s else s

/-- The details of the counters that are no line channel's and saturate at the clamping: gauges, level, ports and
readers (R80, R164). -/
def State.saturatedDetails (s : State) : List Int :=
  (gaugeIds.filterMap (fun g =>
    if (s.gauge g).channel.counter.narrow.2 then some ((16 + g.val : Nat) : Int) else none)) ++
  (if s.level.counter.narrow.2 then [20] else []) ++
  (allPorts.flatMap (fun p => (s.port p).counterList.filterMap (fun c =>
    if c.2.narrow.2 then some (portCounterDetail p c.1) else none))) ++
  (if s.record.readerC0.slips.narrow.2 then [200] else []) ++
  (if s.record.readerC1.slips.narrow.2 then [201] else [])

/-- Wide counting turned off: every count clamped, then COUNTER_SATURATED for each counter that is at its top with
its flag clear, the lines' channels first (R79, R80, R164; log entries 13 and 21). -/
def turnWideOff (s : State) : State :=
  let details := s.saturatedDetails
  let before := s
  let s := narrowCounters s
  let s := forLines (fun l s =>
    postLineSaturated .flow (before.line l).flow l (postLineSaturated .pressure (before.line l).pressure l s)) s
  details.foldl (fun s d => postSaturated true d s) s

/-! ### PART_CONFIG: gauge enables (R84, R137) -/

/-- A gauge put into service (R84, R137; log entries 18 and 19). -/
def Gauge.enable (x : Gauge) : Gauge :=
  { x with channel := x.channel.switchOn, baseline := none, warning := false, warnCount := 0, clearCount := 0,
           stopCount := 0, judged := false }

/-- A gauge taken out of service: its baseline is kept (R84, R137). -/
def Gauge.disable (x : Gauge) : Gauge :=
  { x with channel := x.channel.switchOff, warning := false, warnCount := 0, clearCount := 0, stopCount := 0,
           judged := false }

/-- One gauge enable changed from `before` (R84, R137). -/
def changeGauge (before : Vector Bool 4) (s : State) (g : GaugeId) : State :=
  match before.get g, s.enabled g with
  | false, true => s.updGauge g Gauge.enable
  | true, false => s.updGauge g Gauge.disable
  | false, false | true, true => s

/-- The gauge enables changed, and UPLIFT_WARN formed again if any did (R140), once after all of them (log entry 54). -/
def changeGauges (before : Vector Bool 4) (s : State) : State :=
  let s' := gaugeIds.foldl (changeGauge before) s
  if before = s.settings.gauges then s' else formWarn s'

/-- New part settings in force: wide counters turned off first, then the gauge enables (R174, R84, R137, R164; log entry
13). -/
def takeSettings (c : PartSettings) (s : State) : State :=
  let wide := s.settings.wide
  let gauges := s.settings.gauges
  let s := writeThrough (.part c) { s with settings := c }
  let s := if wide && !c.wide then turnWideOff s else s
  changeGauges gauges s

/-- PART_CONFIG's checks and effect (R174). -/
def partConfigReply (a : PartConfigArgs) (s : State) : Reply :=
  unlessLocked s (
    match a.settings? with
    | none => refuse .badArgument s
    | some c => if s.anyLive then refuse .busy s else accept .header (takeSettings c s))

/-- PART_CONFIG (R174). -/
def execPartConfig (p : Port) (tag : Byte) (b : Body PartConfigArgs) (s : State) :
    Host.Outcome State Fault Refusal :=
  request .partConfig p tag b partConfigReply s

/-! ### READER_ENABLE (R159) -/

/-- A reader enabled or disabled. Enabling an enabled one keeps its position (R159). -/
def Reader.switch (on : Bool) (x : Reader) : Reader :=
  if on && x.enabled then x else { x with enabled := on, unread := 0 }

/-- One reader switched; what no enabled reader still needs leaves the queue (R159). -/
def Records.switchReader (reader : Nat) (on : Bool) (r : Records) : Records :=
  (if reader = 0 then { r with readerC0 := r.readerC0.switch on }
   else { r with readerC1 := r.readerC1.switch on } : Records).trim

/-- READER_ENABLE's checks and effect (R159; log entry 37). -/
def readerEnableReply (a : ReaderArgs) (s : State) : Reply :=
  unlessLocked s (
    if isFlag a.reader && isFlag a.enable then
      let s := s.updRecord (Records.switchReader a.reader (a.enable == 1))
      let c0 := s.record.readerC0.enabled
      let c1 := s.record.readerC1.enabled
      accept (.readers c0 c1) (writeThrough (.readers c0 c1) s)
    else refuse .badArgument s)

/-- READER_ENABLE (R159). -/
def execReaderEnable (p : Port) (tag : Byte) (b : Body ReaderArgs) (s : State) :
    Host.Outcome State Fault Refusal :=
  request .readerEnable p tag b readerEnableReply s

/-! ### CLEAR_COUNTERS and CLEAR_LATCHES (R163, R164) -/

/-- A channel's counter and its flag cleared (R80). -/
def Channel.clearCounter (c : Channel) : Channel := { c with counter := Counter.zero }

/-- The counter of the channel with a number 0–20 cleared (R80, section 4.1). -/
def clearChannel (n : Nat) (s : State) : State :=
  if h : n < 8 then s.updLine ⟨n, h⟩ (fun x => { x with pressure := x.pressure.clearCounter })
  else if h : n - 8 < 8 then s.updLine ⟨n - 8, h⟩ (fun x => { x with flow := x.flow.clearCounter })
  else if h : n - 16 < 4 then s.updGauge ⟨n - 16, h⟩ (fun x => { x with channel := x.channel.clearCounter })
  else { s with level := s.level.clearCounter }

/-- A port's four counters and their flags cleared (R164). -/
def PortRecord.clearCounters (x : PortRecord) : PortRecord :=
  { x with crc := Counter.zero, framing := Counter.zero, overrun := Counter.zero, slip := Counter.zero }

/-- Every counter of R164, every saturation-posted flag and the unaccounted-grout count cleared (R164). -/
def clearAllCounters (s : State) : State :=
  let s := (List.range 21).foldl (fun s n => clearChannel n s) s
  let s := allPorts.foldl (fun s p => s.updPort p PortRecord.clearCounters) s
  let s := s.updRecord (fun r =>
    { r with readerC0 := { r.readerC0 with slips := Counter.zero },
             readerC1 := { r.readerC1 with slips := Counter.zero } })
  s.updGrout (fun g => { g with unaccounted := 0 })

/-- CLEAR_COUNTERS's checks and effect (R164). -/
def clearCountersReply (n : Nat) (s : State) : Reply :=
  unlessLocked s (
    if n = 255 then accept .header (clearAllCounters s)
    else if n ≤ 20 then accept .header (clearChannel n s)
    else refuse .badArgument s)

/-- CLEAR_COUNTERS (R164). -/
def execClearCounters (p : Port) (tag : Byte) (b : Body Nat) (s : State) : Host.Outcome State Fault Refusal :=
  request .clearCounters p tag b clearCountersReply s

/-- CLEAR_LATCHES's checks and effect (R163). -/
def clearLatchesReply (n : Nat) (s : State) : Reply :=
  unlessLocked s (
    if n = 255 then accept .header (s.updRecord (fun r => { r with latched := [] }))
    else
      match FaultCode.ofCode? n with
      | some c => accept .header (s.updRecord (fun r => { r with latched := r.latched.filter (fun d => d != c) }))
      | none => refuse .badArgument s)

/-- CLEAR_LATCHES (R163). -/
def execClearLatches (p : Port) (tag : Byte) (b : Body Nat) (s : State) : Host.Outcome State Fault Refusal :=
  request .clearLatches p tag b clearLatchesReply s

/-! ### SET_TIME and EXERCISE_STEP (R165, R166) -/

/-- SET_TIME's check and effect: the value waits for the next second (R165). -/
def setTimeReply (t : Nat) (s : State) : Reply :=
  unlessLocked s (
    accept (.time s.clock.site) { s with clock := { s.clock with pendingTime := some t } })

/-- SET_TIME (R165). -/
def execSetTime (p : Port) (tag : Byte) (b : Body Nat) (s : State) : Host.Outcome State Fault Refusal :=
  request .setTime p tag b setTimeReply s

/-- The alert kind of an exercise step 1–8 (R166). -/
def exerciseKind : Nat → Option AlertKind
  | 1 => some .upliftStop | 2 => some .lockdown | 3 => some .estop | 4 => some .valveFault
  | 5 => some .fracture | 6 => some .overpressure | 7 => some .sensorLost | 8 => some .connectionHold
  | _ => none

/-- The exercise step advanced, and its alert posted to all six ports (R166). -/
def advanceExercise (s : State) : State :=
  let step := if s.exercise < 8 then s.exercise + 1 else 0
  let s := { s with exercise := step }
  match exerciseKind step with
  | some k =>
    post { kind := k, line := none, key := none, detail := some (step : Int), exercise := true } allPorts s
  | none => s

/-- EXERCISE_STEP's checks and effect (R166). -/
def exerciseStepReply (s : State) : Reply :=
  unlessLocked s (
    if s.anyLive || s.stop.upliftStop || s.stop.estop then refuse .wrongState s
    else accept .header (advanceExercise s))

/-- EXERCISE_STEP (R166). -/
def execExerciseStep (p : Port) (tag : Byte) (b : Body Unit) (s : State) : Host.Outcome State Fault Refusal :=
  request .exerciseStep p tag b (fun _ => exerciseStepReply) s

/-! ### RESET (R150, R47) -/

/-- A line put into the start check: every record of its binding is lost, its valve commanded CLOSED (R46, R47). -/
def Line.toStartCheck (travelTime : Nat) (x : Line) : Line :=
  { x with state := .closing, stage := none, causes := [], holdTimer := none, watch := none, startCheck := true,
           values := none, classes := none, transit := [], mixLag := false, decision := none, recordTimer := none,
           ring := [] }.drive .closed travelTime

/-- What a warm RESET does to one line and its stage (R47, R64, R26). -/
def resetLine (l : LineId) (s : State) : State :=
  if (s.line l).state = .isolated then s
  else
    let key := (s.line l).carried
    let s := (cutGrant .reset l s).updLine l (Line.toStartCheck s.settings.travelTime)
    match key with
    | some k => suspendStage (some l) k .reset s
    | none => s

/-- Every port's alert queue emptied; the slip flags stay (R150, R155). -/
def emptyQueues (s : State) : State := allPorts.foldl (fun s p => s.updPort p (fun x => { x with queue := [] })) s

/-- A warm RESET taken (R150). -/
def warmReset (s : State) : State :=
  let s := s.updStop (fun x => { x with lockdown := false })
  let s := emptyQueues s
  let s := { s with exercise := 0, holdAll := false }
  let s := forLines resetLine s
  formMixOrder (settleStartCheck (s.updStop (fun x => { x with startCheck := true })))

/-- RESET's checks (R150). -/
def resetReply (force : Nat) (s : State) : Reply :=
  if !isFlag force then refuse .badArgument s
  else if !s.stop.lockdown && s.anyLive && force == 0 then refuse .busy s
  else accept .header (warmReset s)

/-- RESET (R150). -/
def execReset (p : Port) (tag : Byte) (b : Body Nat) (s : State) : Host.Outcome State Fault Refusal :=
  request .reset p tag b resetReply s

end Sys2Proof.Machine
end

