-- ==== Sys2Proof/Machine/PortEvents.lean ====
section
/-! DEFINITION. The events of the port protocol that are not a request of a known kind (R167 to R170; log entries 5
and 6). -/

namespace Sys2Proof.Machine

/-- A whole request frame of a kind section 10.4 does not list (R170): refused UNKNOWN_KIND. A kind that it does
list makes no such event. -/
def execUnknownKind (p : Port) (kind tag : Byte) (_ : List Byte) (s : State) : Host.Outcome State Fault Refusal :=
  .next (
    if (RequestKind.ofCode? kind).isNone then receive p (fun s => respond p kind tag (refuse .unknownKind s)) s
    else s)

/-- A frame that goes wrong as a port receives it (R168, R169): counted as `act` says where the frame is collected,
an overrun in ANSWERING, ignored in DISCARDING. -/
def brokenFrame (p : Port) (act : State → State) (s : State) : State :=
  match (s.port p).receiver with
  | .awaitStart | .receiving => act s
  | .answering => countOverrun p s
  | .discarding => s

/-- The framing counter counts and the receiver goes to `next` (R168). -/
def countFraming (p : Port) (next : Receiver) (s : State) : State :=
  let r := (s.port p).framing.bump s.counterTop
  postSaturated r.2 (portCounterDetail p .framing) (s.updPort p (fun x => { x with receiver := next, framing := r.1 }))

/-- The CRC counter counts and the receiver goes back to AWAIT_START (R168). -/
def countCrc (p : Port) (s : State) : State :=
  let r := (s.port p).crc.bump s.counterTop
  postSaturated r.2 (portCounterDetail p .crc) (s.updPort p (fun x => { x with receiver := .awaitStart, crc := r.1 }))

/-- A whole frame whose CRC differs (R168). -/
def execCrcError (p : Port) (s : State) : Host.Outcome State Fault Refusal :=
  .next (brokenFrame p (countCrc p) s)

/-- A frame aborted for its length byte or a parity error (R168). -/
def execFramingError (p : Port) (_ : FramingCause) (s : State) : Host.Outcome State Fault Refusal :=
  .next (brokenFrame p (countFraming p .discarding) s)

/-- A frame aborted by a gap; the byte that ended the gap is taken in AWAIT_START (R168). -/
def execFrameGapAbort (p : Port) (next : Byte) (s : State) : Host.Outcome State Fault Refusal :=
  .next (brokenFrame p (countFraming p (if next = 0xA5 then .receiving else .awaitStart)) s)

/-- A start byte while an answer is being sent (R169). -/
def execOverrun (p : Port) (s : State) : Host.Outcome State Fault Refusal :=
  .next (match (s.port p).receiver with
    | .answering => countOverrun p s
    | .awaitStart | .receiving | .discarding => s)

/-- The last byte of an answer has been sent (R169). -/
def execAnswerSent (p : Port) (s : State) : Host.Outcome State Fault Refusal :=
  .next (match (s.port p).receiver with
    | .answering => s.updPort p (fun x => { x with receiver := .awaitStart, sending := false })
    | .discarding => s.updPort p (fun x => { x with sending := false })
    | .awaitStart | .receiving => s)

/-- A silence of more than 3 ms has ended: a DISCARDING receiver whose answer has been sent leaves it (R168, R169). -/
def execDiscardSilenceEnd (p : Port) (s : State) : Host.Outcome State Fault Refusal :=
  .next (
    if (s.port p).receiver = .discarding ∧ (s.port p).sending = false then
      s.updPort p (fun x => { x with receiver := .awaitStart })
    else s)

/-- A start byte (R168, R169). -/
def execStartByteReceived (p : Port) (s : State) : Host.Outcome State Fault Refusal :=
  .next (match (s.port p).receiver with
    | .awaitStart => s.updPort p (fun x => { x with receiver := .receiving })
    | .answering => countOverrun p s
    | .receiving | .discarding => s)

end Sys2Proof.Machine
end

