-- ==== Sys2Proof/Machine/FieldEvents.lean ====
section
/-! DEFINITION. The events at the field inputs: line, gauge, level and emergency-stop samples, and flow pulses (R68, R72,
R92, R125, R133, R136, R139, R143). -/

namespace Sys2Proof.Machine

/-- A line sample event. A line that is not present has none (R68). -/
def execLineSampleEvent (l : LineId) (current : Nat) (meterFault openMade closedMade : Bool) (s : State) :
    Host.Outcome State Fault Refusal :=
  .next (
    if (s.line l).settings.present then lineSample l current meterFault openMade closedMade s else s)

/-- An unmetered pulse on a line with a started ACTIVE stage (R22, R72). -/
def unmeteredPulse (l : LineId) (s : State) : State :=
  addProgress l (fun g => { g with unmetered := satSucc s.counterTop g.unmetered }) s

/-- The pending volume of a line after a metered pulse of weight `w` (R133). -/
def Line.addPending (w : Nat) (x : Line) : Line :=
  if x.state = .injecting then
    { x with classes := x.classes.map (fun c =>
        if c.effective = c.demanded then { c with pendingVolume := c.pendingVolume + w } else c) }
  else x

/-- A metered pulse of weight `w`: V and the pending volume, then the transit queue as the pulse finds it, then the tank
account (R72, R92, R125, R133, R136; log entries 12 and 44). -/
def meteredPulse (l : LineId) (w : Nat) (s : State) : State :=
  let s := addProgress l (fun g => { g with v := min volumeTop (g.v + w) }) s
  let s := s.updLine l (Line.addPending w)
  if (s.line l).command = .opened then consume l w (advanceTransit w l s) else s

/-- A flow pulse. A line that is not present takes none (R72). -/
def execFlowPulse (l : LineId) (s : State) : Host.Outcome State Fault Refusal :=
  .next (
    let x := s.line l
    if x.settings.present then
      let s := s.setLine l { x with pulses := x.pulses + 1 }
      if x.flow.isValid then meteredPulse l x.inForce.weight s else unmeteredPulse l s
    else s)

/-- A gauge sample event. A gauge that is not enabled has none (R68, R139). -/
def execGaugeSampleEvent (g : GaugeId) (current : Nat) (s : State) : Host.Outcome State Fault Refusal :=
  .next (if s.enabled g then gaugeSample g current s else s)

/-- A level sample event (R70). -/
def execLevelSampleEvent (current : Nat) (s : State) : Host.Outcome State Fault Refusal :=
  .next (levelSample current s)

/-- The open and closed counts after a sample of the contact (R143). -/
def StopUnit.countContact (contactOpen : Bool) (x : StopUnit) : StopUnit :=
  if contactOpen then { x with openCount := min 2 (x.openCount + 1), closedCount := 0 }
  else { x with closedCount := min 8 (x.closedCount + 1), openCount := 0 }

/-- A sample of the emergency-stop contact (R143). -/
def execEstopSample (contactOpen : Bool) (s : State) : Host.Outcome State Fault Refusal :=
  .next (
    let s := s.updStop (StopUnit.countContact contactOpen)
    if s.stop.openCount = 2 ∧ s.stop.estop = false then beginEstop s
    else if s.stop.closedCount = 8 ∧ s.stop.estop = true then finishEstop s
    else s)

end Sys2Proof.Machine
end

