-- ==== Sys2Proof/Machine/TimerEvents.lean ====
section
/-! DEFINITION. The second of the part's clock and the moments its timers reach (R22, R33, R34, R42, R58 to R60, R128,
R129, R158, R159, R165; log entries 7, 8 and 32). -/

namespace Sys2Proof.Machine

/-! ### CLOCK_SECOND (R165) -/

/-- The clocks at a second of the part's clock (R165). -/
def Clock.tick (c : Clock) : Clock :=
  match c.pendingTime with
  | some t => { partSeconds := c.partSeconds + 1, site := t, valid := true, pendingTime := none }
  | none => { c with partSeconds := c.partSeconds + 1, site := (c.site + 1) % 4294967296 }

/-- One second on a timer of a grant. -/
def Timer.tick (t : Timer) : Timer := { t with elapsed := t.elapsed + 1 }

/-- One second on both timers of a grant (R58, R59). -/
def Grant.tick (g : Grant) : Grant :=
  { g with accept := g.accept.map Timer.tick, keepalive := g.keepalive.map Timer.tick }

/-- One second on a line: its travel, hold timer, record timer and grant timers (R33, R42, R58, R59, R158). -/
def Line.tick (holdLimit : Nat) (x : Line) : Line :=
  { x with
    travel := x.travel.map (fun t => { t with elapsed := t.elapsed + 1 })
    holdTimer := x.holdTimer.map (fun n => min (holdLimit * 60) (n + 1))
    recordTimer := x.recordTimer.map (fun n => n + 1)
    grant := x.grant.map Grant.tick }

/-- The top of injecting and holding seconds (section 1.8). -/
def secondsTop : Nat := 4294967295

/-- A count of seconds with one more; what follows its top is a free value (log entry 10). -/
def secondsSucc (free n : Nat) : Nat := if n < secondsTop then n + 1 else (Config.freeSeconds free).toNat

/-- The seconds of a progress record after a second in a line state (R22). -/
def Progress.tick (state : LineState) (free : Nat) (g : Progress) : Progress :=
  match state with
  | .injecting => { g with injecting := secondsSucc free g.injecting }
  | .holding => { g with holding := secondsSucc free g.holding }
  | .idle | .watch | .opening | .armed | .closing | .isolated => g

/-- A second of the stage that a line carries, and the counter of free values advanced when one was read (R22). -/
def tickStage (l : LineId) (s : State) : State :=
  let state := (s.line l).state
  let s' := addProgress l (Progress.tick state s.free) s
  match (s.boundStage l).bind Stage.progress with
  | some g =>
    if (state = .injecting ∧ secondsTop ≤ g.injecting) ∨ (state = .holding ∧ secondsTop ≤ g.holding) then
      { s' with free := s.free + 1 }
    else s'
  | none => s'

/-- A second of one line and of its stage. -/
def tickLine (l : LineId) (s : State) : State := tickStage l (s.updLine l (Line.tick s.settings.holdLimit))

/-- A second of the running level period (R129). -/
def Grout.tickPeriod (g : Grout) : Grout := { g with levelPeriod := g.levelPeriod + 1 }

/-- A second of the part's clock: the clocks and the level period, then the timers and the stage seconds of every line, then the aged
condition (R165, R22, R128, R129; log entry 45). -/
def execClockSecond (s : State) : Host.Outcome State Fault Refusal :=
  .next (decideAged (forLines tickLine ({ s with clock := s.clock.tick }.updGrout Grout.tickPeriod)))

/-! ### Valve travel and the hold limit (R34, R42) -/

/-- The seconds of a travel stand at the travel time allowed (R34), raised to it where the clock has counted fewer (log
entry 7). The fault is decided at the next sample. -/
def execValveTravelTimeElapsed (l : LineId) (s : State) : Host.Outcome State Fault Refusal :=
  .next (s.updLine l (fun x =>
    { x with travel := x.travel.map (fun t => { t with elapsed := max t.allowed t.elapsed }) }))

/-- The hold times out (R42). -/
def timeoutHold (l : LineId) (s : State) : State :=
  let causes := (s.line l).causes
  let s := withBound l (fun k => suspendStage (some l) k .holdTimeout) (closeLine .holdTimeout l s)
  enterFault .holdTimeout (.causes causes) (some (.line l)) .suspend s

/-- The hold timer has reached the hold limit (R42). -/
def Line.holdExpired (holdLimit : Nat) (x : Line) : Bool :=
  x.state == .holding && (match x.holdTimer with | some n => holdLimit * 60 ≤ n | none => false)

/-- The hold timer of a line reaches the hold limit (R42). -/
def execHoldTimeout (l : LineId) (s : State) : Host.Outcome State Fault Refusal :=
  .next (if (s.line l).holdExpired s.settings.holdLimit then timeoutHold l s else s)

/-! ### The timers of a grant (R58, R60) -/

/-- A timer of a grant is present and its length has elapsed (R58, R60). -/
def timerElapsed (t : Option Timer) : Bool := t.any (fun w => w.length ≤ w.elapsed)

/-- The line stands in OPENING or ARMED under a LIVE grant whose accept window has elapsed (R58). -/
def Line.acceptElapsed (x : Line) : Bool :=
  (x.state == .opening || x.state == .armed) && x.grant.any (fun g => g.phase == .live && timerElapsed g.accept)

/-- The accept window elapses (R58). -/
def execAcceptWindowExpiry (l : LineId) (s : State) : Host.Outcome State Fault Refusal :=
  .next (
    if (s.line l).acceptElapsed then withBound l returnToReady (closeLine .acceptExpired l s) else s)

/-- The LIVE grant of a line whose keepalive length has elapsed since the timer was last restarted (R59, R60). -/
def Line.lapsedGrant (x : Line) : Option Grant :=
  x.grant.filter (fun g => g.phase == .live && timerElapsed g.keepalive)

/-- The keepalive of a grant expires (R60). -/
def expireKeepalive (l : LineId) (g : Grant) (s : State) : State :=
  let state := (s.line l).state
  let s := closeLine .keepaliveLost l s
  let s := withBound l (fun k =>
    if g.startTaken then suspendStage (some l) k .keepaliveLost else returnToReady k) s
  let s := postLine l .keepaliveLost (some (state.code : Int)) s
  enterFault .keepaliveLost (.port g.owner) (some (.line l)) (if g.startTaken then .suspend else .record) s

/-- The keepalive elapses on a LIVE grant (R60). -/
def execKeepaliveExpiry (l : LineId) (s : State) : Host.Outcome State Fault Refusal :=
  .next (match (s.line l).lapsedGrant with
    | some g => expireKeepalive l g s
    | none => s)

/-! ### The record interval (R158, R159) -/

/-- The injection record a line writes (R102, R158). -/
def State.injectionRecord (s : State) (l : LineId) (k : StageKey) : InjectionRecord :=
  let x := s.line l
  let shown (f : Computed → Nat) : Nat := match x.values with | some c => f c | none => 0
  { number := s.record.nextRecord, time := s.clock.site, key := k, line := l, state := x.state,
    pg := shown Computed.pg, pe := shown Computed.pe, ce := shown Computed.ce, cg := shown Computed.cg,
    q := shown Computed.q, volume := s.volumeOf k, v := shown Computed.v, j := shown Computed.j,
    effective := x.effectiveClass, demanded := (match x.classes with | some c => c.demanded | none => 0),
    causes := x.causes, stale := (match x.values with | some c => c.stale | none => true) }

/-- The reader stands on the oldest record of a full queue (R159). -/
def Reader.onOldest (held : Nat) (x : Reader) : Bool := x.enabled && x.unread == held

/-- An enabled reader after a record has been appended; one that stood on the overwritten record keeps its count of
unread records and counts a slip. -/
def Reader.afterWrite (full : Bool) (held top : Nat) (x : Reader) : Reader × Bool × Bool :=
  if x.enabled then
    if full && x.onOldest held then
      let r := x.slips.bump top
      ({ x with slips := r.1 }, true, r.2)
    else ({ x with unread := x.unread + 1 }, false, false)
  else (x, false, false)

/-- RECORD_SLIP posted to a console with the number of the lost record, and COUNTER_SATURATED where the slip brought
the counter to its top, in that order (R159, R164; log entry 13). -/
def postSlip (p : Port) (lost : Nat) (detail : Int) (r : Reader × Bool × Bool) (s : State) : State :=
  if r.2.1 then
    postSaturated r.2.2 detail
      (post { kind := .recordSlip, line := none, key := none, detail := some (lost : Int), exercise := false } [p] s)
  else s

/-- A record appended to the queue of 256; it is not held while neither reader is enabled (R159). -/
def appendRecord (e : InjectionRecord) (s : State) : State :=
  let r := s.record
  let s := s.updRecord (fun r => { r with nextRecord := nextNumber r.nextRecord })
  if r.readerC0.enabled || r.readerC1.enabled then
    let held := r.records.length
    let full : Bool := 256 ≤ held
    let c0 := r.readerC0.afterWrite full held s.counterTop
    let c1 := r.readerC1.afterWrite full held s.counterTop
    let lost := match r.records with | x :: _ => x.number | [] => 0
    let s := s.updRecord (fun r =>
      { r with records := lastN 256 (r.records ++ [e]), readerC0 := c0.1, readerC1 := c1.1 })
    postSlip .c1 lost 201 c1 (postSlip .c0 lost 200 c0 s)
  else s

/-- An injection record written, the record timer started again, and the stage's progress saved, with the stage's whole
stored record (R23, R158; log entry 42). -/
def writeRecord (l : LineId) (k : StageKey) (s : State) : State :=
  let e := s.injectionRecord l k
  let s := appendRecord e (s.updLine l (fun x => { x with recordTimer := some 0 }))
  match s.stage? k with
  | some x => if x.status = .active ∧ x.progress.isSome = true then saveStage k s else s
  | none => s

/-- The record timer of a line in ARMED, INJECTING or HOLDING has reached the record interval (R158). -/
def Line.recordDue (interval : Nat) (x : Line) : Bool :=
  x.state.evaluated && (match x.recordTimer with | some n => interval ≤ n | none => false)

/-- The record timer of a line reaches the record interval (R158). -/
def execRecordInterval (l : LineId) (s : State) : Host.Outcome State Fault Refusal :=
  .next (
    if (s.line l).recordDue s.settings.recordInterval then withBound l (writeRecord l) s else s)

/-! ### The level comparison (R129) -/

/-- The account after a comparison that found a difference (R129). -/
def Grout.compareLevel (tolerance : Nat) (difference : Int) (g : Grout) : Grout :=
  let g := { g with difference := difference }
  if (tolerance : Int) < difference.natAbs then
    let n := min 3 (g.mismatch + 1)
    { g with mismatch := n, matched := 0, levelMismatch := g.levelMismatch || n == 3 }
  else
    let n := min 3 (g.matched + 1)
    { g with matched := n, mismatch := 0, levelMismatch := g.levelMismatch && n != 3 }

/-- The comparison of the tank account with the level transducer (R129). -/
def compareLevels (s : State) : State :=
  if s.level.isValid then
    let difference : Int := s.level.value - ((s.grout.accounted / 1000 : Nat) : Int)
    let s' := s.updGrout (Grout.compareLevel s.settings.levelTolerance difference)
    if s'.grout.levelMismatch && !s.grout.levelMismatch then postPart .levelMismatch (some difference) s' else s'
  else s.updGrout (fun g => { g with mismatch := 0, matched := 0 })

/-- The level period, in seconds of the part's clock (R129). -/
def levelPeriodLength : Nat := 10

/-- A level period ended; what the clock has counted beyond it belongs to the next (R129; log entry 7). -/
def Grout.endPeriod (g : Grout) : Grout := { g with levelPeriod := g.levelPeriod - levelPeriodLength }

/-- The comparison at the end of a 10 s period; before the period has elapsed nothing happens (R129; log entry 7). -/
def execLevelComparison (s : State) : Host.Outcome State Fault Refusal :=
  .next (if levelPeriodLength ≤ s.grout.levelPeriod then compareLevels (s.updGrout Grout.endPeriod) else s)

/-- The oldest batch's age passes the limit: the aged condition is decided (R128). -/
def execGroutAgeLimitReached (s : State) : Host.Outcome State Fault Refusal := .next (decideAged s)

end Sys2Proof.Machine
end

