-- ==== Sys2Proof/Machine/StoreEvents.lean ====
section
/-! DEFINITION. The events of the non-volatile store and POWER_ON (R1, R23 to R25, R27, R49, R82, R137, R144, R151, R155,
R159, R161, R162, R165, R167, R174; log entries 9, 14 and 36). -/

namespace Sys2Proof.Machine

/-! ### Writes to the non-volatile store (R23, R24) -/

/-- The non-volatile copy once it holds a write (R23). -/
def NvCopy.apply (n : NvCopy) : StoreWrite → NvCopy
  | .stage x => { n with stages := insertStage x n.stages }
  | .stageRemoved k => { n with stages := removeStage k n.stages, completions := dropSummary k n.completions }
  | .line l c => { n with lines := n.lines.set l.val (some c) l.isLt }
  | .part c => { n with part := some c }
  | .summary m => { n with completions := putSummary m n.completions }
  | .fault e => { n with faults := appendFault e n.faults, nextFault := nextNumber e.number }
  | .readers c0 c1 => { n with readerC0 := c0, readerC1 := c1 }

/-- The oldest write begun completes, and the copy holds it (R23). -/
def execStoreWriteCompleted (s : State) : Host.Outcome State Fault Refusal :=
  .next (match s.store.writes with
    | w :: rest => { s with store := { s.store with writes := rest, nv := s.store.nv.apply w } }
    | [] => s)

/-- The stage a write was for: the location of its STORE_WRITE entry (R24), for its summary too (log entry 48). -/
def StoreWrite.location : StoreWrite → Option FaultLocation
  | .stage x => some (.stage x.key)
  | .stageRemoved k => some (.stage k)
  | .summary m => some (.stage m.key)
  | .line _ _ | .part _ | .fault _ | .readers _ _ => none

/-- STORE_FAULT stands: the alert is posted and the STORE_WRITE fault entered (R24). -/
def reportStoreFault (detail : FaultDetail) (location : Option FaultLocation) (s : State) : State :=
  enterFault .storeWrite detail location .record (postPart .storeFault none s)

/-- The oldest write begun fails: STORE_FAULT is latched and no further write is attempted (R24). -/
def execStoreWriteFailed (s : State) : Host.Outcome State Fault Refusal :=
  .next (match s.store.writes with
    | w :: _ =>
      reportStoreFault .absent w.location { s with store := { s.store with writes := [], fault := true } }
    | [] => s)

/-! ### POWER_ON (R24, R25, R27, R82, R137, R151, R165) -/

/-- A line built afresh at power-on, from its stored settings or the defaults (R27, R82). -/
def Line.atPowerOn (stored : Option LineSettings) (travelTime : Nat) : Line :=
  let c := stored.getD LineSettings.default
  let x := Line.fresh c travelTime
  if c.present then x
  else
    { x with state := .isolated, isolation := some .notPresent, travel := none, startCheck := false,
             pressure := x.pressure.switchOff, flow := x.flow.switchOff }

/-- A gauge at power-on; one not enabled has its channel OFF (R82, R137). -/
def Gauge.atPowerOn (enabled : Bool) : Gauge :=
  if enabled then Gauge.fresh else { Gauge.fresh with channel := Channel.fresh.switchOff }

/-- The site clock at power-on (R165; log entry 36). -/
def Clock.atPowerOn (kept : Bool) (elapsed : Nat) (c : Clock) : Clock :=
  { partSeconds := 0, site := if kept then (c.site + elapsed) % 4294967296 else 0, valid := kept,
    pendingTime := none }

/-- The part before the entries and alerts of power-on. The stages are loaded as stored (R25), a progress count above 255 with
wide counters off too (log entry 55). -/
def freshPart (storeOk kept : Bool) (elapsed : Nat) (s : State) : State :=
  let nv := s.store.nv
  let c := nv.part.getD PartSettings.default
  let line (l : LineId) : Line := Line.atPowerOn (nv.lines.get l) c.travelTime
  { pending := s.pending
    store := { stages := nv.stages, fault := !storeOk, writes := [], nv := nv }
    lines := #v[line 0, line 1, line 2, line 3, line 4, line 5, line 6, line 7]
    holdAll := false
    gauges := #v[Gauge.atPowerOn (c.gauges.get 0), Gauge.atPowerOn (c.gauges.get 1),
                 Gauge.atPowerOn (c.gauges.get 2), Gauge.atPowerOn (c.gauges.get 3)]
    level := Channel.fresh
    settings := c
    grout := Grout.fresh
    stop := { StopUnit.fresh with warn := false, degraded := false }
    ports := #v[PortRecord.fresh, PortRecord.fresh, PortRecord.fresh, PortRecord.fresh, PortRecord.fresh,
                PortRecord.fresh]
    exercise := 0
    record :=
      { records := [], nextRecord := 1, readerC0 := Reader.fresh nv.readerC0, readerC1 := Reader.fresh nv.readerC1,
        completions := nv.completions, faults := nv.faults, nextFault := nv.nextFault, latched := [] }
    connections := { records := [], nextNumber := 1 }
    clock := s.clock.atPowerOn kept elapsed
    free := s.free }

/-- A stage stored as ACTIVE is suspended POWER_LOSS, with its fault entry (R25). -/
def losePower (k : StageKey) (s : State) : State :=
  suspendStage none k .powerLoss (enterFault .powerLoss .absent (some (.stage k)) .suspend s)

/-- The keys of the ACTIVE stages, in key order. -/
def State.activeKeys (s : State) : List StageKey :=
  (s.store.stages.filter (fun x => x.status == .active)).map Stage.key

/-- Power is applied (R24, R25, R151, R165). -/
def powerUp (storeOk batteryKept : Bool) (elapsed : Nat) (s : State) : State :=
  let kept := batteryKept && s.clock.valid
  let s := freshPart storeOk kept elapsed s
  let s := if kept then s else enterFault .rtcInvalid (.value 0) none .record s
  let s := if storeOk then s else reportStoreFault (.value 0) none s
  let s := s.activeKeys.foldl (fun s k => losePower k s) s
  formWarn (settleStartCheck s)

/-- POWER_ON (R151). -/
def execPowerOn (storeOk batteryKept : Bool) (elapsed : Nat) (s : State) : Host.Outcome State Fault Refusal :=
  .next (powerUp storeOk batteryKept elapsed s)

end Sys2Proof.Machine
end

