-- ==== Sys2Proof/Machine/Layout.lean ====
section
/-! DEFINITION. The bytes in which answers are carried, for every layout R175 gives: the header, the PUMP_STATUS answer,
the stage record, the injection record, the alert entry and the fault location. -/

namespace Sys2Proof.Machine

/-- A signed value as four bytes, two's complement, low byte first (R175). -/
def eInt (n : Int) : List Byte := e32 (BitVec.ofInt 32 n).toNat

/-- An optional value; absent values are 0 (R175). -/
def eOpt {α : Type} (f : α → Nat) (x : Option α) : Nat := match x with | some a => f a | none => 0

/-- An optional line: FFh when absent (R175). -/
def eLine (l : Option LineId) : List Byte := e8 (match l with | some l => l.val | none => 255)

/-- An optional stage key: hole 0 and stage 0 when absent (R175). -/
def eKeyOpt (k : Option StageKey) : List Byte := eKey (k.getD ⟨0, 0⟩)

/-- A flag as its byte. -/
def flag (b : Bool) : Nat := if b then 1 else 0

/-- The four header bytes of an answer (R171, R175). -/
def Answer.headerBytes (a : Answer) : List Byte :=
  e8 a.status.code ++ e8 a.queued ++ e8 a.highest ++ e8 (128 * flag a.slip + a.mode.code)

/-- The 23 bytes of a PUMP_STATUS answer after the header (R175). -/
def PumpAnswer.bytes (a : PumpAnswer) : List Byte :=
  e8 a.line.val ++ eKey a.key ++ e8 a.state.code ++ e8 a.directive.code ++ e8 (eOpt EndReason.code a.endReason) ++
  e8 a.valuesFlag.code ++ e16 a.cg ++ e16 a.ce ++ e16 a.pe ++ e16 a.q ++ e32 a.volume ++
  e16 (causeWord a.causes) ++ e8 a.effective

/-- A list in four slots; unused slots are 0 (R175). -/
def slots {α : Type} (zero : α) (xs : List α) : List α := (xs ++ List.replicate 4 zero).take 4

/-- The presence bits of a stage record: end cause, pending decision, progress, start time, end time (log entry 33). -/
def Stage.presence (x : Stage) : Nat :=
  flag x.endCause.isSome + 2 * flag x.decision.isPending + 4 * flag x.progress.isSome +
  8 * flag x.startTime.isSome + 16 * flag x.endTime.isSome

/-- Bytes 0 to 51 of a stage record: the console-written fields (R175). -/
def StageFields.bytes (f : StageFields) : List Byte :=
  eKey f.key ++ e8 f.order ++ e16 f.top ++ e16 f.bottom ++ e16 f.pMax ++ e16 f.vMax ++ e32 f.jMax ++ e8 f.qRef ++
  e16 f.tRef ++ e8 f.band ++ e8 f.margin ++ e8 f.fractureDrop ++ e8 f.fractureRise ++ e8 f.startClass ++
  e16 f.thickStep ++ e16 f.riseThreshold ++ e8 (match f.policy with | .hold => 0 | .note => 1) ++
  e8 (flag f.overridden) ++ e8 f.neighbours.length ++ (slots 0 f.neighbours).flatMap e16 ++
  e8 f.prereqs.length ++ (slots ⟨0, 0⟩ f.prereqs).flatMap eKey

/-- Bytes 57 to 82 of a stage record: the progress; when it is absent its last line is FFh and the rest 0
(R175). -/
def progressBytes (g : Option Progress) : List Byte :=
  e32 (eOpt Progress.v g) ++ e16 (eOpt Progress.maxPe g) ++ e8 (eOpt Progress.maxClass g) ++
  e16 (eOpt Progress.unmetered g) ++ e16 (eOpt Progress.overpressure g) ++ e16 (eOpt Progress.connection g) ++
  e32 (eOpt Progress.injecting g) ++ e32 (eOpt Progress.holding g) ++ e32 (eOpt Progress.firstStart g) ++
  eLine (g.map Progress.lastLine)

/-- The 91 bytes of a stage record (R175). -/
def Stage.bytes (x : Stage) : List Byte :=
  x.fields.bytes ++ e8 x.status.code ++ e8 x.presence ++ e8 (eOpt EndCause.code x.endCause) ++
  e8 (flag x.decision.fracture + 2 * flag x.decision.connection) ++ e8 (flag x.waiting) ++
  progressBytes x.progress ++ e32 (x.startTime.getD 0) ++ e32 (x.endTime.getD 0)

/-- The 38 bytes of an injection record (R175). -/
def InjectionRecord.bytes (r : InjectionRecord) : List Byte :=
  e16 r.number ++ e32 r.time ++ eKey r.key ++ e8 r.line.val ++ e8 r.state.code ++ e16 r.pg ++ e16 r.pe ++ e16 r.ce ++
  e16 r.cg ++ e16 r.q ++ e32 r.volume ++ e32 r.v ++ e32 r.j ++ e8 r.effective ++ e8 r.demanded ++
  e16 (causeWord r.causes) ++ e8 (flag r.stale)

/-- The 16 bytes of an alert entry (R175). -/
def AlertEntry.bytes (e : AlertEntry) : List Byte :=
  e8 e.kind.code ++ e8 e.kind.level ++ e32 e.time ++ eLine e.line ++ eKeyOpt e.key ++ eInt (e.detail.getD 0) ++
  e8 (flag e.detail.isSome + 2 * flag e.exercise) ++ e8 e.repeats

/-- A fault location: a kind byte and three value bytes (R175). -/
def locationBytes : Option FaultLocation → List Byte
  | none => e8 0 ++ e8 0 ++ e8 0 ++ e8 0
  | some (.line l) => e8 1 ++ e8 l.val ++ e8 0 ++ e8 0
  | some (.gauge g) => e8 2 ++ e8 (g.val + 1) ++ e8 0 ++ e8 0
  | some (.port p) => e8 3 ++ e8 p.code ++ e8 0 ++ e8 0
  | some (.stage k) => e8 4 ++ eKey k

/-- The bytes of an answer's contents, where section 10.6 gives their layout; none where it gives none. -/
def Contents.bytes : Contents → Option (List Byte)
  | .header => some []
  | .pump a => some a.bytes
  | .stageRead count position x => some (e8 count ++ e8 position ++ x.bytes)
  | .claim _ | .directive _ | .status _ | .lineRead _ _ | .alerts _ _ | .mask _ | .stageStatus _ | .batch _ _ _ _
  | .dump _ _ | .baselines _ | .readers _ _ | .records _ _ | .completions _ _ | .faults _ _ | .connections _ _
  | .time _ => none

/-- The frame of an answer, where the layout of its contents is given (R168, R175). -/
def Answer.frame (a : Answer) : Option (List Byte) :=
  a.contents.bytes.map (fun body => encodeFrame a.kind a.tag (a.headerBytes ++ body))

end Sys2Proof.Machine
end

