-- ==== Sys2Proof/Machine/Dispatch.lean ====
section
/-! DEFINITION. The dispatch: one arm per constructor of `Instr`, each one call of its meaning. -/

namespace Sys2Proof.Machine

/-- The effect of a command on everything but the queue. -/
def exec (i : Instr) (s : State) : Host.Outcome State Fault Refusal :=
  match i with
  | .claim p tag b => Sys2Proof.Machine.execClaim p tag b s
  | .start p tag b => Sys2Proof.Machine.execStart p tag b s
  | .pause p tag b => Sys2Proof.Machine.execPause p tag b s
  | .pumpStatus p tag b => Sys2Proof.Machine.execPumpStatus p tag b s
  | .release p tag b => Sys2Proof.Machine.execRelease p tag b s
  | .status p tag b => Sys2Proof.Machine.execStatus p tag b s
  | .stageRead p tag b => Sys2Proof.Machine.execStageRead p tag b s
  | .lineRead p tag b => Sys2Proof.Machine.execLineRead p tag b s
  | .readAlerts p tag b => Sys2Proof.Machine.execReadAlerts p tag b s
  | .alertMask p tag b => Sys2Proof.Machine.execAlertMask p tag b s
  | .stageWrite p tag b => Sys2Proof.Machine.execStageWrite p tag b s
  | .stageRelease p tag b => Sys2Proof.Machine.execStageRelease p tag b s
  | .stageWithdraw p tag b => Sys2Proof.Machine.execStageWithdraw p tag b s
  | .stageDecideContinue p tag b => Sys2Proof.Machine.execStageDecideContinue p tag b s
  | .stageDecideClose p tag b => Sys2Proof.Machine.execStageDecideClose p tag b s
  | .stageDecideAbandon p tag b => Sys2Proof.Machine.execStageDecideAbandon p tag b s
  | .stageDecideResume p tag b => Sys2Proof.Machine.execStageDecideResume p tag b s
  | .stageDelete p tag b => Sys2Proof.Machine.execStageDelete p tag b s
  | .lineConfig p tag b => Sys2Proof.Machine.execLineConfig p tag b s
  | .lineWatch p tag b => Sys2Proof.Machine.execLineWatch p tag b s
  | .lineUnwatch p tag b => Sys2Proof.Machine.execLineUnwatch p tag b s
  | .lineIsolate p tag b => Sys2Proof.Machine.execLineIsolate p tag b s
  | .lineReturn p tag b => Sys2Proof.Machine.execLineReturn p tag b s
  | .holdAll p tag b => Sys2Proof.Machine.execHoldAll p tag b s
  | .releaseAll p tag b => Sys2Proof.Machine.execReleaseAll p tag b s
  | .batchReport p tag b => Sys2Proof.Machine.execBatchReport p tag b s
  | .tankDump p tag b => Sys2Proof.Machine.execTankDump p tag b s
  | .upliftZero p tag b => Sys2Proof.Machine.execUpliftZero p tag b s
  | .upliftClear p tag b => Sys2Proof.Machine.execUpliftClear p tag b s
  | .partConfig p tag b => Sys2Proof.Machine.execPartConfig p tag b s
  | .readerEnable p tag b => Sys2Proof.Machine.execReaderEnable p tag b s
  | .readRecords p tag b => Sys2Proof.Machine.execReadRecords p tag b s
  | .readCompletions p tag b => Sys2Proof.Machine.execReadCompletions p tag b s
  | .readFaults p tag b => Sys2Proof.Machine.execReadFaults p tag b s
  | .readConnections p tag b => Sys2Proof.Machine.execReadConnections p tag b s
  | .clearCounters p tag b => Sys2Proof.Machine.execClearCounters p tag b s
  | .clearLatches p tag b => Sys2Proof.Machine.execClearLatches p tag b s
  | .setTime p tag b => Sys2Proof.Machine.execSetTime p tag b s
  | .exerciseStep p tag b => Sys2Proof.Machine.execExerciseStep p tag b s
  | .reset p tag b => Sys2Proof.Machine.execReset p tag b s
  | .unknownKind p kind tag body => Sys2Proof.Machine.execUnknownKind p kind tag body s
  | .crcError p => Sys2Proof.Machine.execCrcError p s
  | .framingError p cause => Sys2Proof.Machine.execFramingError p cause s
  | .frameGapAbort p next => Sys2Proof.Machine.execFrameGapAbort p next s
  | .overrun p => Sys2Proof.Machine.execOverrun p s
  | .answerSent p => Sys2Proof.Machine.execAnswerSent p s
  | .discardSilenceEnd p => Sys2Proof.Machine.execDiscardSilenceEnd p s
  | .lineSampleEvent l current meterFault openMade closedMade => Sys2Proof.Machine.execLineSampleEvent l current meterFault openMade closedMade s
  | .flowPulse l => Sys2Proof.Machine.execFlowPulse l s
  | .gaugeSampleEvent g current => Sys2Proof.Machine.execGaugeSampleEvent g current s
  | .levelSampleEvent current => Sys2Proof.Machine.execLevelSampleEvent current s
  | .estopSample contactOpen => Sys2Proof.Machine.execEstopSample contactOpen s
  | .clockSecond => Sys2Proof.Machine.execClockSecond s
  | .valveTravelTimeElapsed l => Sys2Proof.Machine.execValveTravelTimeElapsed l s
  | .holdTimeout l => Sys2Proof.Machine.execHoldTimeout l s
  | .acceptWindowExpiry l => Sys2Proof.Machine.execAcceptWindowExpiry l s
  | .keepaliveExpiry l => Sys2Proof.Machine.execKeepaliveExpiry l s
  | .recordInterval l => Sys2Proof.Machine.execRecordInterval l s
  | .levelComparison => Sys2Proof.Machine.execLevelComparison s
  | .groutAgeLimitReached => Sys2Proof.Machine.execGroutAgeLimitReached s
  | .storeWriteFailed => Sys2Proof.Machine.execStoreWriteFailed s
  | .powerOn storeOk batteryKept elapsed => Sys2Proof.Machine.execPowerOn storeOk batteryKept elapsed s
  | .storeWriteCompleted => Sys2Proof.Machine.execStoreWriteCompleted s
  | .startByteReceived p => Sys2Proof.Machine.execStartByteReceived p s

end Sys2Proof.Machine
end

