-- ==== Sys2Proof/Safety.lean ====
section
/-! DEFINITION. The vocabulary of the statements: the parts of the state and what a command may change of them, a request
that is taken and its answer, and the invariants. -/

namespace Sys2Proof.Machine

/-! ### The parts of the state and the frame of a command -/

/-- The parts into which the state falls. -/
inductive Part where
  /-- The working stage table, the writes begun, the STORE_FAULT latch, the non-volatile copy (01). -/
  | stages | writes | storeFault | nvCopy
  /-- The line records, their settings, and their channels, flow windows and pulse counts (02 to 07, 04). -/
  | lines | lineSettings | meters
  | holdAll | gauges | level | settings
  /-- The batch list and its next number, the aged condition, the unaccounted grout, the mix order, the level
  comparison and its period (07). -/
  | batches | aged | account | mixOrder | comparison | levelPeriod
  /-- UPLIFT_WARN and its degraded flag, the latch, ESTOP and its counts, the start check, LOCKDOWN (08). -/
  | warn | upliftStop | estop | startCheck | lockdown
  /-- The alert queues with their slip flags and slip counters, the receivers and answers, the CRC, framing and
  overrun counters, the masks, the cut notices (09, 10, 03). -/
  | queues | links | portCounters | masks | cuts
  | exercise
  /-- The record queue and its readers, the completion list, the fault history and latched flags (09). -/
  | recordQueue | completions | faults
  | connections | clock | free
deriving DecidableEq, Repr

/-- The port's two records agree in a part of them. -/
def PortRecord.same (f : PortRecord → PortRecord) (s t : State) : Prop := ∀ p, f (t.port p) = f (s.port p)

/-- A port's record with its queue, slip flag and slip counter alone. -/
def PortRecord.queuePart (x : PortRecord) : PortRecord :=
  { PortRecord.fresh with queue := x.queue, slipFlag := x.slipFlag, slip := x.slip }

/-- A port's record with its receiver and answer alone. -/
def PortRecord.linkPart (x : PortRecord) : PortRecord :=
  { PortRecord.fresh with receiver := x.receiver, sending := x.sending, answer := x.answer }

/-- A port's record with its three protocol counters alone. -/
def PortRecord.counterPart (x : PortRecord) : PortRecord :=
  { PortRecord.fresh with crc := x.crc, framing := x.framing, overrun := x.overrun }

/-- A line's settings alone. -/
def Line.settingsPart (x : Line) : LineSettings × LineSettings := (x.settings, x.inForce)

/-- A line's channels, window, pulses and latest Q alone. -/
def Line.meterPart (x : Line) : Channel × Channel × List Nat × Nat × Nat :=
  (x.pressure, x.flow, x.window, x.pulses, x.lastQ)

/-- A line's record without its settings and its meters. -/
def Line.recordPart (x : Line) : Line :=
  { x with settings := LineSettings.default, inForce := LineSettings.default, pressure := Channel.fresh,
           flow := Channel.fresh, window := [], pulses := 0, lastQ := 0 }

/-- Two states agree in a part. -/
def Part.same (s t : State) : Part → Prop
  | .stages => t.store.stages = s.store.stages
  | .writes => t.store.writes = s.store.writes
  | .storeFault => t.store.fault = s.store.fault
  | .nvCopy => t.store.nv = s.store.nv
  | .lines => ∀ l, (t.line l).recordPart = (s.line l).recordPart
  | .lineSettings => ∀ l, (t.line l).settingsPart = (s.line l).settingsPart
  | .meters => ∀ l, (t.line l).meterPart = (s.line l).meterPart
  | .holdAll => t.holdAll = s.holdAll
  | .gauges => t.gauges = s.gauges
  | .level => t.level = s.level
  | .settings => t.settings = s.settings
  | .batches => t.grout.batches = s.grout.batches ∧ t.grout.nextBatch = s.grout.nextBatch
  | .aged => t.grout.aged = s.grout.aged
  | .account => t.grout.unaccounted = s.grout.unaccounted ∧ t.grout.noGrout = s.grout.noGrout
  | .mixOrder => t.grout.mixOrder = s.grout.mixOrder
  | .comparison =>
    t.grout.mismatch = s.grout.mismatch ∧ t.grout.matched = s.grout.matched ∧
    t.grout.levelMismatch = s.grout.levelMismatch ∧ t.grout.difference = s.grout.difference
  | .levelPeriod => t.grout.levelPeriod = s.grout.levelPeriod
  | .warn => t.stop.warn = s.stop.warn ∧ t.stop.degraded = s.stop.degraded
  | .upliftStop => t.stop.upliftStop = s.stop.upliftStop
  | .estop =>
    t.stop.estop = s.stop.estop ∧ t.stop.openCount = s.stop.openCount ∧ t.stop.closedCount = s.stop.closedCount
  | .startCheck => t.stop.startCheck = s.stop.startCheck ∧ t.stop.checkDone = s.stop.checkDone
  | .lockdown => t.stop.lockdown = s.stop.lockdown
  | .queues => PortRecord.same PortRecord.queuePart s t
  | .links => PortRecord.same PortRecord.linkPart s t
  | .portCounters => PortRecord.same PortRecord.counterPart s t
  | .masks => ∀ p, (t.port p).mask = (s.port p).mask
  | .cuts => ∀ p, (t.port p).cut = (s.port p).cut
  | .exercise => t.exercise = s.exercise
  | .recordQueue =>
    t.record.records = s.record.records ∧ t.record.nextRecord = s.record.nextRecord ∧
    t.record.readerC0 = s.record.readerC0 ∧ t.record.readerC1 = s.record.readerC1
  | .completions => t.record.completions = s.record.completions
  | .faults =>
    t.record.faults = s.record.faults ∧ t.record.nextFault = s.record.nextFault ∧
    t.record.latched = s.record.latched
  | .connections => t.connections = s.connections
  | .clock => t.clock = s.clock
  | .free => t.free = s.free

/-- The queue of commands and every part outside `parts` stand in `t` as in `s`. -/
def keeps (parts : List Part) (s t : State) : Prop := t.pending = s.pending ∧ ∀ q, q ∉ parts → q.same s t

/-- What taking any request changes: the receiver and answer of its port, and the keepalive of the grant its port
owns (in the line records). An overrun counts and may post COUNTER_SATURATED. -/
def requestParts : List Part := [.links, .lines, .portCounters, .queues]

/-- The parts of the state that a command may change. -/
def footprint : Instr → List Part
  | .claim _ _ _ => requestParts ++ [.meters, .cuts, .stages, .writes, .mixOrder]
  | .start _ _ _ => requestParts ++ [.stages]
  | .pause _ _ _ => requestParts
  | .pumpStatus _ _ _ => requestParts ++ [.cuts]
  | .release _ _ _ => requestParts ++ [.cuts, .stages, .writes, .mixOrder]
  | .status _ _ _ | .stageRead _ _ _ | .lineRead _ _ _ | .readAlerts _ _ _ | .readCompletions _ _ _
  | .readFaults _ _ _ | .readConnections _ _ _ | .unknownKind _ _ _ _ => requestParts
  | .alertMask _ _ _ => requestParts ++ [.masks]
  | .stageWrite _ _ _ | .stageRelease _ _ _ => requestParts ++ [.stages, .writes]
  | .stageWithdraw _ _ _ | .stageDecideResume _ _ _ => requestParts ++ [.stages, .writes, .mixOrder]
  | .stageDecideContinue _ _ _ => requestParts ++ [.stages, .writes]
  | .stageDecideClose _ _ _ | .stageDecideAbandon _ _ _ | .stageDelete _ _ _ =>
    requestParts ++ [.stages, .writes, .completions, .mixOrder]
  | .lineConfig _ _ _ => requestParts ++ [.lineSettings, .meters, .writes]
  | .lineWatch _ _ _ | .lineUnwatch _ _ _ | .lineIsolate _ _ _ | .lineReturn _ _ _ => requestParts
  | .holdAll _ _ _ | .releaseAll _ _ _ => requestParts ++ [.holdAll]
  | .batchReport _ _ _ => requestParts ++ [.batches, .account, .aged, .stages]
  | .tankDump _ _ _ => requestParts ++ [.batches, .aged]
  | .upliftZero _ _ _ => requestParts ++ [.gauges, .warn]
  | .upliftClear _ _ _ => requestParts ++ [.upliftStop]
  | .partConfig _ _ _ =>
    requestParts ++ [.settings, .writes, .meters, .gauges, .level, .recordQueue, .stages, .warn]
  | .readerEnable _ _ _ => requestParts ++ [.recordQueue, .writes]
  | .readRecords _ _ _ => requestParts ++ [.recordQueue]
  | .clearCounters _ _ _ => requestParts ++ [.meters, .gauges, .level, .recordQueue, .account]
  | .clearLatches _ _ _ => requestParts ++ [.faults]
  | .setTime _ _ _ => requestParts ++ [.clock]
  | .exerciseStep _ _ _ => requestParts ++ [.exercise]
  | .reset _ _ _ =>
    requestParts ++ [.lockdown, .exercise, .holdAll, .cuts, .stages, .writes, .mixOrder, .startCheck]
  | .crcError _ | .framingError _ _ | .frameGapAbort _ _ | .overrun _ | .answerSent _ | .discardSilenceEnd _
  | .startByteReceived _ => [.links, .portCounters, .queues]
  | .lineSampleEvent _ _ _ _ _ =>
    [.lines, .lineSettings, .meters, .queues, .faults, .writes, .stages, .completions, .mixOrder, .cuts, .lockdown,
     .exercise, .startCheck, .connections]
  | .flowPulse _ => [.lines, .meters, .stages, .batches, .account, .aged, .queues]
  | .gaugeSampleEvent _ _ =>
    [.gauges, .queues, .faults, .writes, .upliftStop, .exercise, .lines, .mixOrder, .stages, .warn]
  | .levelSampleEvent _ => [.level, .queues, .faults, .writes]
  | .estopSample _ => [.estop, .exercise, .queues, .faults, .writes, .lines, .mixOrder, .stages]
  | .clockSecond => [.clock, .levelPeriod, .lines, .stages, .free, .aged, .queues]
  | .valveTravelTimeElapsed _ => [.lines]
  | .holdTimeout _ | .keepaliveExpiry _ => [.lines, .mixOrder, .queues, .stages, .writes, .faults]
  | .acceptWindowExpiry _ => [.lines, .mixOrder, .queues, .stages, .writes]
  | .recordInterval _ => [.lines, .recordQueue, .queues, .writes]
  | .levelComparison => [.comparison, .levelPeriod, .queues]
  | .groutAgeLimitReached => [.aged, .queues, .lines]
  | .storeWriteFailed => [.writes, .storeFault, .queues, .faults]
  | .storeWriteCompleted => [.writes, .nvCopy]
  | .powerOn _ _ _ =>
    [.stages, .writes, .storeFault, .lines, .lineSettings, .meters, .holdAll, .gauges, .level, .settings,
     .batches, .aged, .account, .mixOrder, .comparison, .levelPeriod, .warn, .upliftStop, .estop, .startCheck, .lockdown, .queues,
     .links, .portCounters, .masks, .cuts, .exercise, .recordQueue, .completions, .faults, .connections, .clock]

/-! ### Requests taken and answered -/

/-- The port's receiver collects frames: a whole frame with an agreeing CRC is taken (R168). -/
def listening (s : State) (p : Port) : Prop :=
  (s.port p).receiver = .awaitStart ∨ (s.port p).receiver = .receiving

/-- The state as a request finds it once it is taken: the receiver in ANSWERING, the keepalive of a LIVE grant that the
port owns restarted (R50, R168). -/
def heard (p : Port) (s : State) : State := restartKeepalive p (s.updPort p (fun x => { x with receiver := .answering }))

/-- A state with an answer made and begun to be sent (R170, R171). -/
def answering (p : Port) (k : RequestKind) (tag : Byte) (st : Status) (c : Contents) (s : State) : State :=
  respond p k.code tag { status := st, contents := c, state := s }

/-- A console port listens, outside LOCKDOWN. -/
def consoleReady (s : State) (p : Port) : Prop :=
  p.isConsole = true ∧ listening s p ∧ s.stop.lockdown = false

/-- A pump port listens, outside LOCKDOWN. -/
def pumpReady (s : State) (p : Port) : Prop :=
  p.isConsole = false ∧ listening s p ∧ s.stop.lockdown = false

/-- The port's LIVE or ENDING grant is on the line. -/
def holdsGrant (s : State) (p : Port) (l : LineId) (g : Grant) : Prop :=
  s.portGrant p = some l ∧ (s.line l).grant = some g

/-- The port's latest answer has a status and contents. -/
def answered (t : State) (p : Port) (st : Status) (c : Contents) : Prop :=
  ∃ a, (t.port p).answer = some a ∧ a.status = st ∧ a.contents = c

/-- The command is a request refused with a status: its answer is a header alone, and it leaves the state as the
request found it (R170). -/
def refuses (c : Instr) (s : State) (p : Port) (k : RequestKind) (tag : Byte) (st : Status) : Prop :=
  exec c s = .next (answering p k tag st .header (heard p s))

/-- A line's record without the keepalive of its grant. -/
def Line.apartFromKeepalive (x : Line) : Line :=
  { x with grant := x.grant.map (fun g => { g with keepalive := none }) }

/-- The lines a command may change beyond restarting a keepalive; none where it may change any of them. -/
def touchedLines (s : State) : Instr → Option (List LineId)
  | .claim _ _ (.args a) => some (lineOf? a.line).toList
  | .lineConfig _ _ (.args a) => some (lineOf? a.line).toList
  | .lineWatch _ _ (.args a) => some (lineOf? a.line).toList
  | .lineUnwatch _ _ (.args n) | .lineIsolate _ _ (.args n) | .lineReturn _ _ (.args n) =>
    some (lineOf? n).toList
  | .start p _ _ | .pause p _ _ | .pumpStatus p _ _ | .release p _ _ => some (s.portGrant p).toList
  | .stageDecideContinue _ _ (.args a) | .stageDecideClose _ _ (.args a) | .stageDecideAbandon _ _ (.args a) =>
    some (s.carrier? a.key).toList
  | .valveTravelTimeElapsed l | .holdTimeout l | .acceptWindowExpiry l | .keepaliveExpiry l
  | .recordInterval l => some [l]
  | .holdAll _ _ _ | .releaseAll _ _ _ | .batchReport _ _ _ | .tankDump _ _ _ | .upliftClear _ _ _
  | .partConfig _ _ _ | .clearCounters _ _ _ | .reset _ _ _ | .lineSampleEvent _ _ _ _ _ | .flowPulse _
  | .gaugeSampleEvent _ _ | .estopSample _ | .clockSecond | .groutAgeLimitReached | .powerOn _ _ _ => none
  | _ => some []

/-- A console port listens, outside LOCKDOWN, and no STORE_FAULT is latched: a stage edit goes on to its own
checks (R3). -/
def editReady (s : State) (p : Port) : Prop := consoleReady s p ∧ s.store.fault = false

/-- Every line but one is the same. -/
def sameOtherLines (l : LineId) (s t : State) : Prop := ∀ m, m ≠ l → t.line m = s.line m

/-- Every stage but one is the same. -/
def sameOtherStages (k : StageKey) (s t : State) : Prop := ∀ j, j ≠ k → t.stage? j = s.stage? j

/-- The writes to the non-volatile store that stand begun after one more (R23, R24). -/
def begun (s : State) (w : StoreWrite) : List StoreWrite :=
  if s.store.fault then s.store.writes else s.store.writes ++ [w]

/-- A line after a request to add a hold cause (R39). -/
def Line.held (c : HoldCause) (x : Line) : Line :=
  if x.causes.contains c then x
  else
    match x.state with
    | .armed | .holding => { x with causes := withCause c x.causes }
    | .injecting =>
      { x with causes := withCause c x.causes, state := .holding, holdTimer := some 0,
               decision := x.decision.map (fun d => { d with refusal := 0, intensity := 0 }) }
    | .idle | .watch | .opening | .closing | .isolated => x

/-- A line after a request to remove a hold cause (R40). -/
def Line.freed (c : HoldCause) (x : Line) : Line :=
  match x.state with
  | .armed | .holding => { x with causes := withoutCause c x.causes }
  | .idle | .watch | .opening | .injecting | .closing | .isolated => x

/-- What the end of a grant or stage leaves of its line: in CLOSING, the valve commanded CLOSED with a travel begun,
the cause set empty, the grant ENDING with its reason and without timers, every record of the injection absent; the
bound stage, the classes and the transit queue kept (R31, R62). -/
def Line.closed (r : EndReason) (travelTime : Nat) (x : Line) : Line :=
  { x with state := .closing, command := .closed, travel := some ⟨.closed, travelTime, 0⟩, causes := [],
           holdTimer := none, values := none, decision := none, recordTimer := none, ring := [], mixLag := false,
           grant := x.grant.map (fun g =>
             { g with phase := .ending, accept := none, keepalive := none, endReason := some r }) }

/-- A stage suspended (R14). -/
def Stage.suspendedBy (c : EndCause) (x : Stage) : Stage :=
  { x with status := .suspended, endCause := some c, decision := ⟨false, false⟩ }

/-- A stage ended (R13, R17, R18). -/
def Stage.endedBy (st : StageStatus) (c : EndCause) (site : Nat) (x : Stage) : Stage :=
  { x with status := st, endCause := some c, endTime := some site, decision := ⟨false, false⟩, waiting := false }

/-- A sample event with the valve read OPEN makes an evaluation of the line: present, in ARMED, INJECTING or HOLDING with
its valve at rest, a stage bound and a decision record (R32, R87, R103). -/
def evaluating (s : State) (l : LineId) (k : StageKey) (z : Stage) (d : DecisionRecord) : Prop :=
  let x := s.line l
  x.settings.present = true ∧ x.state ∈ [.armed, .injecting, .holding] ∧ x.command = .opened ∧ x.travel = none ∧
  x.stage = some k ∧ s.stage? k = some z ∧ x.decision = some d

/-- The values of one evaluation, written out from the formulas of section 5 (R86, R89 to R99). -/
def envelope (warn : Bool) (derate : Nat) (st : LineSettings) (z : Stage) (cls : Nat) (pressure flow : Channel) :
    Computed :=
  let f := z.fields
  let pg := pressure.value.toNat
  let q := flow.value.toNat
  let gc := if cls = 1 then 111 else if cls = 2 then 118 else if cls = 3 then 127 else if cls = 4 then 149
    else if cls = 5 then 158 else if cls = 6 then 171 else 0
  let head := gc * ((f.top + f.bottom) / 2) / 1000
  let friction := st.friction * q / 100
  let sum : Int := (pg : Int) + head - friction
  let pe := if sum < 0 then 0 else if 20000 < sum then 20000 else sum.toNat
  let volume := (z.progress.map Progress.v).getD 0
  let v := volume / (f.bottom - f.top)
  let governed := if v = 0 then f.pMax else min f.pMax (f.jMax * 10 / v)
  let ce := if warn = true then governed * derate / 100 else governed
  let gauge : Int := (ce : Int) - head + friction
  { pg := pg, q := q, cls := cls, head := head, friction := friction, pe := pe, vUsed := volume, v := v,
    j := if pe * v / 10 ≤ 999999999 then pe * v / 10 else 999999999,
    derated := warn, ce := ce, cg := if gauge < 0 then 0 else if (st.range : Int) < gauge then st.range else gauge.toNat,
    refusalThreshold := ce * (100 - f.band) / 100, overpressureLimit := ce + ce * f.margin / 100,
    stale := decide (pressure.validity ≠ .valid ∨ flow.validity ≠ .valid) }

/-- The end that a fresh evaluation of an INJECTING line decides, from the counts before it, in the order VOLUME_CAP,
INTENSITY_CAP, REFUSAL (R104, R106 to R109). -/
def endDecided (f : StageFields) (c : Computed) (d : DecisionRecord) : Option (EndCause × EndReason) :=
  if f.vMax ≤ c.v then some (.volumeCap, .volumeCap)
  else if f.jMax ≤ c.j ∧ 3 ≤ d.intensity then some (.intensityCap, .intensityCap)
  else if c.q ≤ f.qRef ∧ c.refusalThreshold ≤ c.pe ∧ 4 * f.tRef ≤ d.refusal + 1 then some (.refusal, .refusal)
  else none

/-- A line after a stop has begun: its OPENING ended, or its cause added (R62, R141, R143). -/
def Line.stoppedBy (c : HoldCause) (r : EndReason) (travelTime : Nat) (x : Line) : Line :=
  if x.state = .opening then x.closed r travelTime else x.held c

/-! ### Invariants -/

/-- The stages stand in key order, each key once (R1). -/
def inKeyOrder (stages : List Stage) : Prop := stages.Pairwise (fun x y => keyBefore x.key y.key = true)

/-- A reader has no more unread records than the queue holds, and none while it is disabled (R159). -/
def Reader.standsIn (held : Nat) (x : Reader) : Prop := x.unread ≤ held ∧ (x.enabled = false → x.unread = 0)

/-- The non-volatile copy once the first `n` writes begun have completed (R23). -/
def Store.copyAfter (n : Nat) (x : Store) : NvCopy := (x.writes.take n).foldl NvCopy.apply x.nv

/-- A table of stages and a completion list that go together: at most 64 stages, in key order, and one summary at most of
each, none of a stage that is not in the table (R1, R161). -/
def tableOk (stages : List Stage) (completions : List Summary) : Prop :=
  inKeyOrder stages ∧ stages.length ≤ 64 ∧ (completions.map Summary.key).Nodup ∧
  ∀ m ∈ completions, m.key ∈ stages.map Stage.key

/-- The copy is such a table after any number of the writes begun, and after all of them it has the keys of the working
table, unless STORE_FAULT is latched (R1, R23, R24, R161; log entries 9 and 47). -/
def Store.copyOk (x : Store) : Prop :=
  (∀ n, tableOk (x.copyAfter n).stages (x.copyAfter n).completions) ∧
  (x.fault = false → (x.copyAfter x.writes.length).stages.map Stage.key = x.stages.map Stage.key)

/-- A line's flow window has at most 16 slots, its history ring 5 entries and its transit queue 3 (R71, R81, R135). -/
def Line.listsOk (x : Line) : Prop := x.window.length ≤ 16 ∧ x.ring.length ≤ 5 ∧ x.transit.length ≤ 3

/-- The tables keep their order and their bounds: the stage table and its completion list with their non-volatile copy, the
lists of each line, at most 8 batches with something remaining in each, at most 16 alerts a port, 16 faults, 32 connections
and 256 records (R1, R71, R81, R119, R121, R135, R155, R159, R161, R162). -/
def State.tablesOk (s : State) : Prop :=
  tableOk s.store.stages s.record.completions ∧ s.store.copyOk ∧ (∀ l, (s.line l).listsOk) ∧
  s.grout.batches.length ≤ 8 ∧ (∀ b ∈ s.grout.batches, 0 < b.remaining) ∧
  (∀ p, (s.port p).queue.length ≤ 16) ∧
  s.record.faults.length ≤ 16 ∧ s.store.nv.faults.length ≤ 16 ∧ s.connections.records.length ≤ 32 ∧
  s.record.records.length ≤ 256 ∧ s.record.readerC0.standsIn s.record.records.length ∧
  s.record.readerC1.standsIn s.record.records.length

/-- An INJECTING line has an empty cause set. While UPLIFT_STOP is latched or ESTOP is active, no line is OPENING and
every line in ARMED, INJECTING or HOLDING has the stop's cause. In LOCKDOWN no line is in one of those four states (R41,
R48, R141, R143, R145). -/
def State.stopsHold (s : State) : Prop :=
  (∀ l, (s.line l).state = .injecting → (s.line l).causes = []) ∧
  (s.stop.upliftStop = true → ∀ l, (s.line l).state ≠ .opening ∧
    ((s.line l).state.evaluated = true → .uplift ∈ (s.line l).causes)) ∧
  (s.stop.estop = true → ∀ l, (s.line l).state ≠ .opening ∧
    ((s.line l).state.evaluated = true → .estop ∈ (s.line l).causes)) ∧
  (s.stop.lockdown = true → ∀ l, (s.line l).state.live = false)

/-- A line's valve is commanded OPEN exactly in OPENING, ARMED, INJECTING and HOLDING, any travel is towards its command,
and its grant agrees with its state: LIVE in those four, ENDING or none in CLOSING, none elsewhere (R30, R31, R33,
R49). -/
def Line.grantOk (x : Line) : Prop :=
  (x.command = .opened ↔ x.state.live = true) ∧ (∀ w, x.travel = some w → w.target = x.command) ∧
  (x.state.live = true → x.stage.isSome = true ∧ ∃ g, x.grant = some g ∧ g.phase = .live) ∧
  (x.state = .closing → ∀ g, x.grant = some g → g.phase = .ending) ∧
  (x.state.live = false → x.state ≠ .closing → x.grant = none ∧ x.stage = none)

/-- Every line's valve and grant agree with its state, each owner is a pump port, and no port owns two lines (R49). -/
def State.grantsOk (s : State) : Prop :=
  (∀ l, (s.line l).grantOk) ∧ (∀ l p, (s.line l).owner = some p → p.isConsole = false) ∧
  (∀ l m p, (s.line l).owner = some p → (s.line m).owner = some p → l = m)

/-- The stage table stands in key order, and a stage is ACTIVE exactly when one line, and one alone, carries it
(R1, R11). -/
def State.carriersOk (s : State) : Prop :=
  inKeyOrder s.store.stages ∧ inKeyOrder s.store.nv.stages ∧
  (∀ x ∈ s.store.stages, x.status = .active → ∃ l, (s.line l).carried = some x.key) ∧
  (∀ l, (s.line l).state.live = true → ∃ k x, (s.line l).stage = some k ∧ s.stage? k = some x ∧ x.status = .active) ∧
  (∀ l m k, (s.line l).carried = some k → (s.line m).carried = some k → l = m)

end Sys2Proof.Machine

namespace Sys2Proof

/-- The request kind of a command and its port and tag; none for an event. -/
def Instr.kind? (c : Instr) : Option (Port × RequestKind × Byte) :=
  match encodeRequest c with
  | some (p, code, tag, _) => (RequestKind.ofCode? code).map (fun k => (p, k, tag))
  | none => none

/-- The port a frame arrives on, whole, broken or begun; none for any other event. -/
def Instr.frameOn? (c : Instr) : Option Port :=
  match c with
  | .crcError p | .framingError p _ | .frameGapAbort p _ | .overrun p | .startByteReceived p => some p
  | c => (encodeRequest c).map (fun r => r.1)

/-- The body length of a request as carried. -/
def Instr.carried (c : Instr) : Nat :=
  match encodeRequest c with
  | some (_, _, _, b) => b.length
  | none => 0

end Sys2Proof
end

