-- ==== Sys2Proof/WellFormed.lean ====
section
/-! DEFINITION. The well-formed commands: those whose operands the link and the table can carry (section 10.6).
A value in range of its field but outside the range a request's rule gives is well-formed; the rule refuses it. -/

namespace Sys2Proof

/-- The value fits in one byte. -/
def fits8 (n : Nat) : Bool := n < 256

/-- The value fits in two bytes. -/
def fits16 (n : Nat) : Bool := n < 65536

/-- The value fits in four bytes. -/
def fits32 (n : Nat) : Bool := n < 4294967296

/-- The key fits in its three bytes. -/
def StageKey.fits (k : StageKey) : Bool := fits16 k.hole && fits8 k.stage

def ClaimArgs.wf (a : ClaimArgs) : Bool := fits8 a.line && a.key.fits
def PumpStatusArgs.wf (a : PumpStatusArgs) : Bool := fits8 a.running && fits8 a.stroke
def StageReadArgs.wf (a : StageReadArgs) : Bool := fits8 a.selector && a.key.fits && fits8 a.position

/-- Both lists of a STAGE_WRITE are carried in four slots. -/
def StageWriteArgs.wf (a : StageWriteArgs) : Bool :=
  fits8 a.clear && a.key.fits && fits8 a.order && fits16 a.top && fits16 a.bottom && fits16 a.pMax &&
  fits16 a.vMax && fits32 a.jMax && fits8 a.qRef && fits16 a.tRef && fits8 a.band && fits8 a.margin &&
  fits8 a.fractureDrop && fits8 a.fractureRise && fits8 a.startClass && fits16 a.thickStep &&
  fits16 a.riseThreshold && fits8 a.policy && fits8 a.overridden && fits8 a.neighbourCount &&
  (a.neighbourSlots.length == 4) && a.neighbourSlots.all fits16 && fits8 a.prereqCount &&
  (a.prereqSlots.length == 4) && a.prereqSlots.all StageKey.fits

def DecideArgs.wf (a : DecideArgs) : Bool := a.key.fits && fits8 a.action && fits8 a.given && fits16 a.pMax

def LineConfigArgs.wf (a : LineConfigArgs) : Bool :=
  fits8 a.line && fits8 a.present && fits16 a.range && fits16 a.weight && fits16 a.hose && fits16 a.friction &&
  fits16 a.watch

def LineWatchArgs.wf (a : LineWatchArgs) : Bool := fits8 a.line && fits16 a.hole && fits8 a.stage
def BatchArgs.wf (a : BatchArgs) : Bool := fits8 a.cls && fits16 a.volume && fits8 a.given && fits32 a.mixedAt

def PartConfigArgs.wf (a : PartConfigArgs) : Bool :=
  fits8 a.travelTime && fits16 a.acceptWindow && fits8 a.keepalive && fits8 a.holdLimit && fits8 a.recordInterval &&
  fits8 a.ageLimit && fits16 a.residueLimit && fits16 a.levelTolerance && fits16 a.tankCapacity && fits8 a.derate &&
  fits8 a.lossCount && fits16 a.warnThreshold && fits16 a.stopThreshold && fits8 a.hysteresis && fits8 a.wide &&
  fits8 a.gauges

def ReaderArgs.wf (a : ReaderArgs) : Bool := fits8 a.reader && fits8 a.enable
def RangeArgs.wf (a : RangeArgs) : Bool := fits8 a.start && fits8 a.count

/-- A body of the kind's length with well-formed fields, or 0 to 240 bytes of another length (R168, R170). -/
def Body.wf {α : Type} (k : RequestKind) (ok : α → Bool) : Body α → Bool
  | .args a => ok a
  | .wrongLength b => b.length ≤ 240 && b.length != k.bodyLength

/-- STAGE_DECIDE's body for one of the rows CLOSE, ABANDON and RESUME: the row's own action code. -/
def Body.wfDecide (code : Nat) : Body DecideArgs → Bool
  | .args a => a.wf && a.action == code
  | .wrongLength _ => false

/-- STAGE_DECIDE's body for the row CONTINUE, which also takes the malformed ones (log entry 22). -/
def Body.wfContinue : Body DecideArgs → Bool
  | .args a => a.wf && (a.action == 0 || 3 < a.action)
  | .wrongLength b => b.length ≤ 240 && b.length != RequestKind.stageDecide.bodyLength

/-- The well-formed commands. -/
def Instr.wf : Instr → Bool
  | .claim _ _ b => b.wf .claim ClaimArgs.wf
  | .start _ _ b => b.wf .start (fun _ => true)
  | .pause _ _ b => b.wf .pause (fun _ => true)
  | .pumpStatus _ _ b => b.wf .pumpStatus PumpStatusArgs.wf
  | .release _ _ b => b.wf .release (fun _ => true)
  | .status _ _ b => b.wf .status (fun _ => true)
  | .stageRead _ _ b => b.wf .stageRead StageReadArgs.wf
  | .lineRead _ _ b => b.wf .lineRead fits8
  | .readAlerts _ _ b => b.wf .readAlerts (fun _ => true)
  | .alertMask _ _ b => b.wf .alertMask fits32
  | .stageWrite _ _ b => b.wf .stageWrite StageWriteArgs.wf
  | .stageRelease _ _ b => b.wf .stageRelease StageKey.fits
  | .stageWithdraw _ _ b => b.wf .stageWithdraw StageKey.fits
  | .stageDecideContinue _ _ b => b.wfContinue
  | .stageDecideClose _ _ b => b.wfDecide 1
  | .stageDecideAbandon _ _ b => b.wfDecide 2
  | .stageDecideResume _ _ b => b.wfDecide 3
  | .stageDelete _ _ b => b.wf .stageDelete StageKey.fits
  | .lineConfig _ _ b => b.wf .lineConfig LineConfigArgs.wf
  | .lineWatch _ _ b => b.wf .lineWatch LineWatchArgs.wf
  | .lineUnwatch _ _ b => b.wf .lineUnwatch fits8
  | .lineIsolate _ _ b => b.wf .lineIsolate fits8
  | .lineReturn _ _ b => b.wf .lineReturn fits8
  | .holdAll _ _ b => b.wf .holdAll (fun _ => true)
  | .releaseAll _ _ b => b.wf .releaseAll (fun _ => true)
  | .batchReport _ _ b => b.wf .batchReport BatchArgs.wf
  | .tankDump _ _ b => b.wf .tankDump (fun _ => true)
  | .upliftZero _ _ b => b.wf .upliftZero (fun _ => true)
  | .upliftClear _ _ b => b.wf .upliftClear (fun _ => true)
  | .partConfig _ _ b => b.wf .partConfig PartConfigArgs.wf
  | .readerEnable _ _ b => b.wf .readerEnable ReaderArgs.wf
  | .readRecords _ _ b => b.wf .readRecords (fun _ => true)
  | .readCompletions _ _ b => b.wf .readCompletions RangeArgs.wf
  | .readFaults _ _ b => b.wf .readFaults RangeArgs.wf
  | .readConnections _ _ b => b.wf .readConnections RangeArgs.wf
  | .clearCounters _ _ b => b.wf .clearCounters fits8
  | .clearLatches _ _ b => b.wf .clearLatches fits8
  | .setTime _ _ b => b.wf .setTime fits32
  | .exerciseStep _ _ b => b.wf .exerciseStep (fun _ => true)
  | .reset _ _ b => b.wf .reset fits8
  | .unknownKind _ kind _ body => (RequestKind.ofCode? kind).isNone && body.length ≤ 240
  | .framingError _ (.length n) => 240 < n.toNat
  | .framingError _ .parity => true
  | .crcError _ | .frameGapAbort _ _ | .overrun _ | .answerSent _ | .discardSilenceEnd _
  | .lineSampleEvent _ _ _ _ _ | .flowPulse _ | .gaugeSampleEvent _ _ | .levelSampleEvent _ | .estopSample _
  | .clockSecond | .valveTravelTimeElapsed _ | .holdTimeout _ | .acceptWindowExpiry _ | .keepaliveExpiry _
  | .recordInterval _ | .levelComparison | .groutAgeLimitReached | .storeWriteFailed | .powerOn _ _ _
  | .storeWriteCompleted | .startByteReceived _ => true

end Sys2Proof
end

