-- ==== Sys2Proof/Certificates/Slice0/Obligations.lean ====
section
/-! DEFINITION. The statements for the provers, from the numbered rules of spec/. -/

open Sys2Proof Sys2Proof.Machine

/-! ### The machine -/

/-- The step with a command at the front of the queue is that command's effect on the state with the queue's rest. -/
def Obligations.StepRunsTheFrontCommand : Prop :=
  ∀ (c : Instr) (rest : List Instr) (s : State),
    step { s with pending := c :: rest } = exec c { s with pending := rest }

/-- Every command has a next state in every state, and so has every step; on an empty queue the block idles (log
entry 4). -/
def Obligations.NoCommandStops : Prop :=
  (∀ (c : Instr) (s : State), ∃ t, exec c s = .next t) ∧
  (∀ s : State, ∃ t, step s = .next t) ∧
  (∀ s : State, s.pending = [] → step s = .next s)

/-- A command leaves the queue of commands and every part of the state outside its footprint unchanged. -/
def Obligations.EveryCommandKeepsItsFrame : Prop :=
  ∀ (c : Instr) (s t : State), exec c s = .next t → keeps (footprint c) s t

/-- A command for which `touchedLines` lists lines changes no other line, but for the keepalive of the line that its port
owns; the part-wide commands and the events that may reach every line have no such list and are outside this. A request or
a broken frame changes neither the receiver, the answer nor the mask of another port; another port's alert queue, counters
and cut notice are outside this. -/
def Obligations.LineCommandsAndRequestsKeepOtherLinesAndLinks : Prop :=
  (∀ (c : Instr) (s t : State) (ls : List LineId), exec c s = .next t → touchedLines s c = some ls → ∀ l, l ∉ ls →
    (t.line l).apartFromKeepalive = (s.line l).apartFromKeepalive ∧
    ((∀ p, c.frameOn? = some p → s.portGrant p ≠ some l) → t.line l = s.line l)) ∧
  (∀ (c : Instr) (s t : State) (p q : Port), exec c s = .next t → c.frameOn? = some p → q ≠ p →
    (t.port q).linkPart = (s.port q).linkPart ∧ (t.port q).mask = (s.port q).mask)

/-- POWER_ON builds every line afresh from the stored settings, or the defaults (R27, R82, R151). That the latest
level difference stands at 0, and the bad count of a channel in OFF, are the model's choices (log entries 3 and 49). -/
def Obligations.PowerOnBuildsTheLinesAfresh : Prop :=
  ∀ (storeOk kept : Bool) (secs : Nat) (s : State), ∃ t, exec (.powerOn storeOk kept secs) s = .next t ∧
    t.settings = s.store.nv.part.getD PartSettings.default ∧
    (∀ l : LineId,
      let c := (s.store.nv.lines.get l).getD LineSettings.default
      let x := t.line l
      x.settings = c ∧ x.command = .closed ∧ x.causes = [] ∧ x.invalid = 0 ∧ x.stage = none ∧ x.owner = none ∧
      x.holdTimer = none ∧ x.watch = none ∧ x.values = none ∧ x.classes = none ∧ x.transit = [] ∧ x.decision = none ∧
      x.recordTimer = none ∧ x.window = [] ∧ x.ring = [] ∧
      (c.present = true → x.state = .closing ∧ x.startCheck = true ∧ x.isolation = none ∧
        x.travel = some ⟨.closed, t.settings.travelTime, 0⟩ ∧
        x.pressure = ⟨.suspect, 0, 0, true, none, ⟨0, false⟩⟩ ∧ x.flow = ⟨.suspect, 0, 0, true, none, ⟨0, false⟩⟩) ∧
      (c.present = false → x.state = .isolated ∧ x.startCheck = false ∧ x.isolation = some .notPresent ∧
        x.travel = none ∧
        x.pressure = ⟨.off, 0, 0, true, none, ⟨0, false⟩⟩ ∧ x.flow = ⟨.off, 0, 0, true, none, ⟨0, false⟩⟩)) ∧
    (t.stop.startCheck = true ↔ ∃ l : LineId, ((s.store.nv.lines.get l).getD LineSettings.default).present = true) ∧
    t.holdAll = false ∧ t.exercise = 0 ∧ t.stop.upliftStop = false ∧ t.stop.estop = false ∧ t.stop.lockdown = false ∧
    t.permitClosed = !t.stop.startCheck ∧ t.stop.warn = true ∧ t.stop.degraded = true ∧
    t.grout = ⟨[], 1, false, 0, false, 0, 0, 0, false, 0, 0⟩

/-- POWER_ON loads the stage table, the completion list, the fault history and the reader enables from the non-volatile
copy; each stage stored as ACTIVE is SUSPENDED by POWER_LOSS; the site clock comes from the battery-backed clock. Of a
part as delivered it makes the reset state (the model's choice, log entry 1). The clock's operands are log entry 36. That
a progress count above 255 is loaded as stored, with wide counters off too, is the model's choice (log entry 55). -/
def Obligations.PowerOnLoadsTheStore : Prop :=
  (∀ (storeOk kept : Bool) (secs : Nat) (s : State), ∃ t, exec (.powerOn storeOk kept secs) s = .next t ∧
    (∀ k, t.stage? k = (lookupStage k s.store.nv.stages).map (fun x =>
      if x.status = .active then x.suspendedBy .powerLoss else x)) ∧
    t.store.fault = !storeOk ∧ t.store.nv = s.store.nv ∧
    t.record.completions = s.store.nv.completions ∧ t.record.records = [] ∧ t.record.nextRecord = 1 ∧
    t.record.readerC0 = ⟨s.store.nv.readerC0, 0, ⟨0, false⟩⟩ ∧ t.record.readerC1 = ⟨s.store.nv.readerC1, 0, ⟨0, false⟩⟩ ∧
    (storeOk = true → kept = true → s.clock.valid = true → (∀ x ∈ s.store.nv.stages, x.status ≠ .active) →
      t.record.faults = s.store.nv.faults ∧ t.record.latched = []) ∧
    (storeOk = false → .storeWrite ∈ t.record.latched) ∧
    t.clock.partSeconds = 0 ∧ t.clock.pendingTime = none ∧ t.clock.valid = (kept && s.clock.valid) ∧
    (t.clock.valid = true → t.clock.site = (s.clock.site + secs) % 4294967296) ∧
    (t.clock.valid = false → t.clock.site = 0 ∧ .rtcInvalid ∈ t.record.latched) ∧
    t.connections = ⟨[], 1⟩ ∧
    (∀ p, (t.port p).receiver = .awaitStart ∧ (t.port p).cut = none ∧ (t.port p).answer = none ∧
      (t.port p).crc = ⟨0, false⟩ ∧ (t.port p).framing = ⟨0, false⟩ ∧ (t.port p).overrun = ⟨0, false⟩)) ∧
  exec (.powerOn true true 0) State.reset = .next State.reset

/-! ### The port protocol -/

/-- A well-formed request frame that a collecting receiver takes: the receiver goes to ANSWERING and one answer is made
with the request's kind plus 80h and its tag; a refused request is answered by its header alone (R168, R170). The request
leaves the keepalive timer of a LIVE grant that its port owns at zero, or ends the grant; a frame that is not taken
restarts nothing (R50, R59). -/
def Obligations.TakenRequestIsAnsweredAndRestartsTheKeepalive : Prop :=
  (∀ (c : Instr) (s : State) (p : Port) (k : RequestKind) (tag : Byte),
    c.wf = true → c.kind? = some (p, k, tag) → listening s p → ∃ t a, exec c s = .next t ∧
      (t.port p).receiver = .answering ∧ (t.port p).sending = true ∧ (t.port p).answer = some a ∧
      a.kind = k.code + 0x80 ∧ a.tag = tag ∧ (a.status ≠ .ok → a.contents = .header) ∧
      ∀ l g w, s.portGrant p = some l → (t.line l).grant = some g → g.phase = .live → g.keepalive = some w →
        w.elapsed = 0) ∧
  (∀ (c : Instr) (s t : State) (p : Port) (l : LineId), c.wf = true → c.frameOn? = some p → ¬ listening s p →
    exec c s = .next t → t.line l = s.line l) ∧
  (∀ (s t : State) (p : Port) (l : LineId), exec (.crcError p) s = .next t → t.line l = s.line l)

/-- The first three checks of a request, in their order: the kind, the port's role, the body's length (R170), with the
roles of section 10.4. In LOCKDOWN every request that passes them is then refused LOCKED, except the reading requests,
ALERT_MASK and RESET (R149). -/
def Obligations.RequestChecksComeInOrder : Prop :=
  (∀ (s : State) (p : Port) (kind tag : Byte) (body : List Byte), listening s p →
    (∀ k : RequestKind, k.code ≠ kind) → ∃ a, exec (.unknownKind p kind tag body) s =
      .next ((heard p s).updPort p (fun x => { x with sending := true, answer := some a })) ∧
      a.kind = (if kind.toNat < 0x80 then kind + 0x80 else 0xFF) ∧ a.tag = tag ∧ a.status = .unknownKind ∧
      a.contents = .header) ∧
  (∀ (c : Instr) (s : State) (p : Port) (k : RequestKind) (tag : Byte), c.wf = true → c.kind? = some (p, k, tag) →
    listening s p →
    (k.permits p = false → refuses c s p k tag .notPermitted) ∧
    (k.permits p = true → c.carried ≠ k.bodyLength → refuses c s p k tag .badArgument) ∧
    (k.permits p = true → c.carried = k.bodyLength → s.stop.lockdown = true →
      k ∉ [.status, .stageRead, .lineRead, .readRecords, .readCompletions, .readFaults, .readConnections, .readAlerts,
           .alertMask, .reset] →
      refuses c s p k tag .locked)) ∧
  (∀ (k : RequestKind) (p : Port),
    k.permits p =
      if k ∈ [.claim, .start, .pause, .pumpStatus, .release] then !p.isConsole
      else if k ∈ [.status, .stageRead, .lineRead, .readAlerts, .alertMask] then true
      else p.isConsole)

/-- The receiver's moves and the CRC, framing and overrun counts (R168, R169). How an event reaches a receiver that is
not collecting is the model's (log entry 5). -/
def Obligations.ReceiverMovesAndCounts : Prop :=
  ∀ (s : State) (p : Port),
    ((s.port p).receiver = .awaitStart →
      exec (.startByteReceived p) s = .next (s.updPort p (fun x => { x with receiver := .receiving }))) ∧
    (listening s p →
      (∃ t, exec (.crcError p) s = .next t ∧ (t.port p).receiver = .awaitStart ∧
        (t.port p).crc.count = satSucc s.counterTop (s.port p).crc.count ∧ (t.port p).answer = (s.port p).answer) ∧
      (∀ cause, ∃ t, exec (.framingError p cause) s = .next t ∧ (t.port p).receiver = .discarding ∧
        (t.port p).framing.count = satSucc s.counterTop (s.port p).framing.count) ∧
      (∀ b : Byte, ∃ t, exec (.frameGapAbort p b) s = .next t ∧
        (t.port p).receiver = (if b = 0xA5 then .receiving else .awaitStart) ∧
        (t.port p).framing.count = satSucc s.counterTop (s.port p).framing.count)) ∧
    ((s.port p).receiver = .answering →
      (∀ c : Instr, c.wf = true → c.frameOn? = some p → ∃ t, exec c s = .next t ∧
        (t.port p).receiver = .discarding ∧ (t.port p).overrun.count = satSucc s.counterTop (s.port p).overrun.count ∧
        (t.port p).answer = (s.port p).answer ∧ (t.port p).sending = (s.port p).sending ∧
        keeps [.links, .portCounters, .queues] s t) ∧
      exec (.answerSent p) s = .next (s.updPort p (fun x => { x with receiver := .awaitStart, sending := false }))) ∧
    ((s.port p).receiver = .discarding →
      (∀ c : Instr, c.wf = true → c.frameOn? = some p → exec c s = .next s) ∧
      exec (.answerSent p) s = .next (s.updPort p (fun x => { x with sending := false })) ∧
      ((s.port p).sending = true → exec (.discardSilenceEnd p) s = .next s) ∧
      ((s.port p).sending = false →
        exec (.discardSilenceEnd p) s = .next (s.updPort p (fun x => { x with receiver := .awaitStart }))))

/-- Every well-formed request is read back from the frame it is carried in, with every operand at every value its field
admits: no byte is lost, and the frame's CRC agrees (R168, R175, section 10.6). -/
def Obligations.RequestFrameDecodesToItself : Prop :=
  ∀ (c : Instr) (p : Port) (kind tag : Byte) (body : List Byte),
    c.wf = true → encodeRequest c = some (p, kind, tag, body) →
    body.length ≤ 240 ∧ decodeRequest p kind tag body = c ∧ decodeFrame p (encodeFrame kind tag body) = some c
/-! ### Readings, alerts and records -/

/-- STATUS changes nothing and reports every item R172 lists, as it stands; the permit relay and the part mode are what
R145 and R146 form. -/
def Obligations.StatusReportsThePart : Prop :=
  (∀ (s : State) (p : Port) (tag : Byte), listening s p → ∃ r : StatusReport,
    exec (.status p tag (.args ())) s = .next (answering p .status tag .ok (.status r) (heard p s)) ∧
    r.mode = s.mode ∧ r.lockdown = s.stop.lockdown ∧ r.upliftStop = s.stop.upliftStop ∧ r.estop = s.stop.estop ∧
    r.exercise = s.exercise ∧ r.startCheck = s.stop.startCheck ∧ r.permitClosed = s.permitClosed ∧
    r.warn = s.stop.warn ∧ r.degraded = s.stop.degraded ∧ r.enables = s.settings.gauges ∧ r.gauges = s.gauges ∧
    r.holdAll = s.holdAll ∧ r.tankClass = s.grout.tankClass ∧ r.mixOrder = s.grout.mixOrder ∧
    r.batches = s.grout.batches.length ∧ r.accountedLitres = (s.grout.batches.map Batch.remaining).sum / 1000 ∧
    r.unaccountedLitres = s.grout.unaccounted / 1000 ∧ r.oldestMinutes = s.oldestAge / 60 ∧ r.level = s.level ∧
    r.difference = s.grout.difference ∧ r.levelMismatch = s.grout.levelMismatch ∧
    r.waiting = (s.store.stages.filter Stage.waiting).length ∧
    r.waitingKeys = ((s.store.stages.filter Stage.waiting).map Stage.key).take 4 ∧
    (∀ l : LineId, r.lines[l.val]? = some ⟨(s.line l).state, (s.line l).owner, (s.line l).stage, (s.line l).causes⟩) ∧
    (∀ c, c ∈ r.live ↔ s.live c = true) ∧ (∀ c, c ∈ r.latched ↔ c ∈ s.record.latched) ∧
    r.time = s.clock.site ∧ r.timeValid = s.clock.valid ∧
    (∀ q : Port, r.portCounters[q.code]? =
      some ((s.port q).crc.count, (s.port q).framing.count, (s.port q).overrun.count, (s.port q).slip.count)) ∧
    r.readerSlips = (s.record.readerC0.slips.count, s.record.readerC1.slips.count)) ∧
  (∀ s : State, s.permitClosed = true ↔
    s.stop.lockdown = false ∧ s.stop.upliftStop = false ∧ s.stop.estop = false ∧ s.stop.startCheck = false ∧
    s.stop.checkDone = true ∧ s.exercise ≠ 1) ∧
  (∀ s : State, s.mode =
    if s.stop.lockdown = true then .lockdown else if s.stop.upliftStop = true then .upliftStop
    else if s.stop.estop = true then .estop else if s.exercise ≠ 0 then .exercise else .normal)

/-- STAGE_READ answers the record named by key or by position, with the count and the position; LINE_READ answers the
line's whole record and its grant record with the line and its stage key; READ_COMPLETIONS, READ_FAULTS
and READ_CONNECTIONS answer the entries from a start index on, with the number held. What is not there is refused
BAD_ARGUMENT, and nothing changes (R9, R49, R119, R161, R162, R173). -/
def Obligations.ReadingsAnswerAndChangeNothing : Prop :=
  (∀ (s : State) (p : Port) (tag : Byte) (a : StageReadArgs), listening s p →
    let n := s.store.stages.length
    let c : Instr := .stageRead p tag (.args a)
    (a.selector = 0 → s.stage? a.key = none → refuses c s p .stageRead tag .badArgument) ∧
    (a.selector = 0 → ∀ x, s.stage? a.key = some x → ∃ i, s.store.stages[i]? = some x ∧
      (∀ j y, j < i → s.store.stages[j]? = some y → y.key ≠ a.key) ∧
      exec c s = .next (answering p .stageRead tag .ok (.stageRead n i x) (heard p s))) ∧
    (a.selector = 1 → n ≤ a.position → refuses c s p .stageRead tag .badArgument) ∧
    (a.selector = 1 → ∀ x, s.store.stages[a.position]? = some x →
      exec c s = .next (answering p .stageRead tag .ok (.stageRead n a.position x) (heard p s))) ∧
    (1 < a.selector → refuses c s p .stageRead tag .badArgument)) ∧
  (∀ (s : State) (p : Port) (tag : Byte), listening s p →
    (∀ l : LineId, exec (.lineRead p tag (.args l.val)) s =
      .next (answering p .lineRead tag .ok
        (.lineRead ((heard p s).line l) (((heard p s).line l).grant.map (fun g => ⟨l, (s.line l).stage, g⟩)))
        (heard p s))) ∧
    (∀ n, 8 ≤ n → refuses (.lineRead p tag (.args n)) s p .lineRead tag .badArgument)) ∧
  (∀ (s : State) (p : Port) (tag : Byte) (a : RangeArgs), p.isConsole = true → listening s p →
     let ok (n : Nat) : Prop := 1 ≤ a.count ∧ a.count ≤ 4 ∧ (a.start < n ∨ (a.start = 0 ∧ n = 0))
     let m := s.record.completions
     let f := s.record.faults
     let r := s.connections.records
     (ok m.length → exec (.readCompletions p tag (.args a)) s = .next
       (answering p .readCompletions tag .ok (.completions m.length ((m.drop a.start).take a.count)) (heard p s))) ∧
     (¬ ok m.length → refuses (.readCompletions p tag (.args a)) s p .readCompletions tag .badArgument) ∧
     (ok f.length → exec (.readFaults p tag (.args a)) s = .next
       (answering p .readFaults tag .ok (.faults f.length ((f.drop a.start).take a.count)) (heard p s))) ∧
     (¬ ok f.length → refuses (.readFaults p tag (.args a)) s p .readFaults tag .badArgument) ∧
     (ok r.length → exec (.readConnections p tag (.args a)) s = .next
       (answering p .readConnections tag .ok (.connections r.length ((r.drop a.start).take a.count)) (heard p s))) ∧
     (¬ ok r.length → refuses (.readConnections p tag (.args a)) s p .readConnections tag .badArgument))

/-- READ_ALERTS takes up to 8 of the oldest entries off the queue, returns them and clears the slip flag; every answer
header carries the port's queue as the request leaves it, the slip flag and the part mode (R157). -/
def Obligations.ReadAlertsAndTheAlertSummary : Prop :=
  (∀ (s : State) (p : Port) (tag : Byte), listening s p → ∃ t a, exec (.readAlerts p tag (.args ())) s = .next t ∧
    (t.port p).queue = (s.port p).queue.drop 8 ∧ (t.port p).slipFlag = false ∧ (t.port p).answer = some a ∧
    a.status = .ok ∧ a.contents = .alerts ((s.port p).queue.take 8) (s.port p).slipFlag ∧
    a.slip = (s.port p).slipFlag) ∧
  (∀ (c : Instr) (s : State) (p : Port) (k : RequestKind) (tag : Byte),
    c.wf = true → c.kind? = some (p, k, tag) → listening s p → ∃ t a, exec c s = .next t ∧
      (t.port p).answer = some a ∧ a.queued = (t.port p).queue.length ∧ a.mode = t.mode ∧
      (∀ e ∈ (t.port p).queue, e.kind.level ≤ a.highest) ∧
      (a.highest = 0 ∨ ∃ e ∈ (t.port p).queue, e.kind.level = a.highest) ∧
      (k ≠ .readAlerts → a.slip = (t.port p).slipFlag)) ∧
  (∀ (top time : Nat) (a : Posting) (x : PortRecord),
    (x.offer top time a).1.slipFlag = true ↔ x.slipFlag = true ∨
      (x.unmasked a.kind = true ∧ x.queue.any (fun e => e.matchesPosting a) = false ∧ 16 ≤ x.queue.length))

/-- The kind masks: every kind enabled at power-on, kept by every command but ALERT_MASK and POWER_ON, a masked kind
offered in vain; ALERT_MASK replaces the sending port's mask alone, unless it disables UPLIFT_STOP or LOCKDOWN (R154) or
sets one of bits 25 to 31 (section 10.6). -/
def Obligations.AlertMaskRules : Prop :=
  (∀ (storeOk kept : Bool) (secs : Nat) (s t : State) (p : Port) (k : AlertKind),
    exec (.powerOn storeOk kept secs) s = .next t → (t.port p).unmasked k = true) ∧
  (∀ (c : Instr) (s t : State), exec c s = .next t → (∀ p tag b, c ≠ .alertMask p tag b) →
    (∀ a b n, c ≠ .powerOn a b n) → ∀ q, (t.port q).mask = (s.port q).mask) ∧
  (∀ (top time : Nat) (a : Posting) (x : PortRecord),
    x.unmasked a.kind = false → x.offer top time a = (x, false)) ∧
  (∀ (s : State) (p : Port) (tag : Byte) (m : Nat), listening s p → m < 2 ^ 32 →
    let c : Instr := .alertMask p tag (.args m)
    (m.testBit (AlertKind.upliftStop.code - 1) = false ∨ m.testBit (AlertKind.lockdown.code - 1) = false ∨
        2 ^ 25 ≤ m → refuses c s p .alertMask tag .badArgument) ∧
    (m.testBit (AlertKind.upliftStop.code - 1) = true → m.testBit (AlertKind.lockdown.code - 1) = true →
        m < 2 ^ 25 → ∃ u, exec c s = .next (answering p .alertMask tag .ok (.mask (BitVec.ofNat 32 m)) u) ∧
      u = (heard p s).updPort p (fun x => { x with mask := BitVec.ofNat 32 m }) ∧
      ∀ k, (u.port p).unmasked k = m.testBit (k.code - 1)))

/-- An alert offered to a port's queue: merged into the entry of its kind, line and stage; else appended while there is
room; a full queue gives up the oldest of its lowest entries to a new one of level 5 or above that outranks it, and
otherwise drops the new one, each counted as a slip (R155, R156). -/
def Obligations.AlertQueueMergesAppendsAndEvicts : Prop :=
  ∀ (top time : Nat) (a : Posting) (x : PortRecord), x.unmasked a.kind = true →
    let y := (x.offer top time a).1
    let new : AlertEntry := ⟨a.kind, time, a.line, a.key, a.detail, a.exercise, 1⟩
    let same (e : AlertEntry) : Prop := e.kind = a.kind ∧ e.line = a.line ∧ e.key = a.key
    ((∃ e ∈ x.queue, same e) → y.slip = x.slip ∧ y.slipFlag = x.slipFlag ∧ y.queue.length = x.queue.length ∧
      ∀ (i : Nat) (e : AlertEntry), x.queue[i]? = some e →
        (¬ same e → y.queue[i]? = some e) ∧
        (same e → y.queue[i]? = some { e with time := time, detail := a.detail, exercise := e.exercise && a.exercise,
                                              repeats := if e.repeats < 255 then e.repeats + 1 else e.repeats })) ∧
    ((∀ e ∈ x.queue, ¬ same e) → x.queue.length < 16 →
      y.slip = x.slip ∧ y.slipFlag = x.slipFlag ∧ y.queue = x.queue ++ [new]) ∧
    ((∀ e ∈ x.queue, ¬ same e) → 16 ≤ x.queue.length →
      y.slipFlag = true ∧ y.slip.count = satSucc top x.slip.count ∧
      (a.kind.level < 5 → y.queue = x.queue) ∧
      (5 ≤ a.kind.level → (∀ e ∈ x.queue, a.kind.level ≤ e.kind.level) → y.queue = x.queue) ∧
      (5 ≤ a.kind.level → ∀ before e after, x.queue = before ++ e :: after → e.kind.level < a.kind.level →
        (∀ d ∈ x.queue, e.kind.level ≤ d.kind.level) → (∀ d ∈ before, d.kind.level ≠ e.kind.level) →
        y.queue = before ++ after ++ [new]))

/-- An alert reaches each port of its route once, under that port's own mask and queue, stamped with the site time, and
no other port, as long as no slip counter saturates by it. The routes are those of R153: the line's grant and the
consoles for a line; the consoles, and from level 5 each pump port with a grant, for the part. -/
def Obligations.AlertsReachTheirRoutes : Prop :=
  (∀ (a : Posting) (route : List Port) (s : State), route.Nodup →
    (∀ p ∈ route, ((s.port p).offer s.counterTop s.clock.site a).2 = false) →
    ∀ q, (post a route s).port q =
      if q ∈ route then ((s.port q).offer s.counterTop s.clock.site a).1 else s.port q) ∧
  (∀ (s : State) (l : LineId), s.lineRoute l = (s.line l).owner.toList ++ [.c0, .c1]) ∧
  (∀ (s : State) (k : AlertKind) (p : Port), p ∈ s.partRoute k ↔
    p = .c0 ∨ p = .c1 ∨ (5 ≤ k.level ∧ p.isConsole = false ∧ ∃ l, (s.line l).owner = some p))

/-- READ_RECORDS returns up to 4 records from the sending console's position on, oldest first, moves the position past
them, and lets go of the records that every enabled reader has read; a disabled reader is refused WRONG_STATE (R160). -/
def Obligations.ReadRecordsMovesTheReader : Prop :=
  ∀ (s : State) (p : Port) (tag : Byte) (x : Reader), listening s p → s.record.reader? p = some x →
    let c : Instr := .readRecords p tag (.args ())
    (x.enabled = false → refuses c s p .readRecords tag .wrongState) ∧
    (x.enabled = true → x.unread ≤ s.record.records.length → ∃ u,
      let rest := s.record.records.drop (s.record.records.length - x.unread)
      exec c s = .next (answering p .readRecords tag .ok (.records (rest.take 4) (rest.drop 4).length) u) ∧
      u.record.reader? p = some { x with unread := (rest.drop 4).length } ∧
      (∀ q, q ≠ p → u.record.reader? q = s.record.reader? q) ∧
      u.record.nextRecord = s.record.nextRecord ∧
      (∀ n, (∀ q y, u.record.reader? q = some y → y.enabled = true → y.unread ≤ n) →
        (∃ q y, u.record.reader? q = some y ∧ y.enabled = true ∧ y.unread = n) →
        u.record.records = s.record.records.drop (s.record.records.length - n)))

/-! ### The curtain stage program -/

/-- The checks that every stage edit makes before its own: STORE_FAULT, then the key and the arguments (R3). -/
def Obligations.StageEditChecksComeFirst : Prop :=
  (∀ (c : Instr) (s : State) (p : Port) (k : RequestKind) (tag : Byte),
    c.wf = true → c.kind? = some (p, k, tag) → c.carried = k.bodyLength → consoleReady s p → s.store.fault = true →
    k ∈ [.stageWrite, .stageRelease, .stageWithdraw, .stageDecide, .stageDelete] →
    refuses c s p k tag .storeFault) ∧
  (∀ (s : State) (p : Port) (tag : Byte) (key : StageKey), editReady s p → s.stage? key = none →
    refuses (.stageRelease p tag (.args key)) s p .stageRelease tag .badArgument ∧
    refuses (.stageWithdraw p tag (.args key)) s p .stageWithdraw tag .badArgument ∧
    refuses (.stageDelete p tag (.args key)) s p .stageDelete tag .badArgument) ∧
  (∀ (s : State) (p : Port) (tag : Byte) (a : DecideArgs), editReady s p →
    s.stage? a.key = none ∨ 3 < a.action ∨ 1 < a.given ∨ (a.given = 1 ∧ a.action ≠ 0) →
    refuses (.stageDecideContinue p tag (.args a)) s p .stageDecide tag .badArgument ∧
    refuses (.stageDecideClose p tag (.args a)) s p .stageDecide tag .badArgument ∧
    refuses (.stageDecideAbandon p tag (.args a)) s p .stageDecide tag .badArgument ∧
    refuses (.stageDecideResume p tag (.args a)) s p .stageDecide tag .badArgument)

/-- STAGE_WRITE: its ranges (R2, section 1.1), a new record in DRAFT, a DRAFT record rewritten with its progress cleared
or kept, and its refusals (R4, R5). That the slots beyond the two counts are ignored is the model's choice (log entry 23);
which ranges it checks in the two lists is its reading (log entry 30). -/
def Obligations.StageWriteAddsOrRewritesADraft : Prop :=
  ∀ (s : State) (p : Port) (tag : Byte) (a : StageWriteArgs), editReady s p →
    a.neighbourSlots.length = 4 → a.prereqSlots.length = 4 →
    let c : Instr := .stageWrite p tag (.args a)
    let keyOk (k : StageKey) : Prop := 1 ≤ k.hole ∧ k.hole ≤ 9999 ∧ 1 ≤ k.stage ∧ k.stage ≤ 20
    let neighbours := a.neighbourSlots.take a.neighbourCount
    let prereqs := a.prereqSlots.take a.prereqCount
    let inRange : Prop :=
      a.clear ≤ 1 ∧ keyOk a.key ∧ 1 ≤ a.order ∧ a.order ≤ 4 ∧ a.top ≤ 20000 ∧ a.bottom ≤ 20000 ∧
      a.top + 50 ≤ a.bottom ∧ a.bottom ≤ a.top + 1500 ∧ 50 ≤ a.pMax ∧ a.pMax ≤ 12000 ∧ 10 ≤ a.vMax ∧ a.vMax ≤ 30000 ∧
      10000 ≤ a.jMax ∧ a.jMax ≤ 999999 ∧ 1 ≤ a.qRef ∧ a.qRef ≤ 100 ∧ 60 ≤ a.tRef ∧ a.tRef ≤ 1800 ∧ 1 ≤ a.band ∧
      a.band ≤ 20 ∧ 1 ≤ a.margin ∧ a.margin ≤ 20 ∧ 5 ≤ a.fractureDrop ∧ a.fractureDrop ≤ 50 ∧ 10 ≤ a.fractureRise ∧
      a.fractureRise ≤ 200 ∧ 1 ≤ a.startClass ∧ a.startClass ≤ 6 ∧ 50 ≤ a.thickStep ∧ a.thickStep ≤ 5000 ∧
      10 ≤ a.riseThreshold ∧ a.riseThreshold ≤ 2000 ∧ a.policy ≤ 1 ∧ a.overridden ≤ 1 ∧
      a.neighbourCount ≤ 4 ∧ (∀ n ∈ neighbours, 1 ≤ n ∧ n ≤ 9999 ∧ n ≠ a.key.hole) ∧ neighbours.Nodup ∧
      a.prereqCount ≤ 4 ∧ (∀ k ∈ prereqs, keyOk k ∧ k ≠ a.key) ∧ prereqs.Nodup
    let fields : StageFields :=
      ⟨a.key, a.order, a.top, a.bottom, a.pMax, a.vMax, a.jMax, a.qRef, a.tRef, a.band, a.margin, a.fractureDrop,
       a.fractureRise, a.startClass, a.thickStep, a.riseThreshold, if a.policy = 0 then .hold else .note, neighbours,
       prereqs, a.overridden == 1⟩
    (¬ inRange → refuses c s p .stageWrite tag .badArgument) ∧
    (inRange → s.stage? a.key = none → 64 ≤ s.store.stages.length → refuses c s p .stageWrite tag .tableFull) ∧
    (inRange → s.stage? a.key = none → s.store.stages.length < 64 → ∃ u,
      let x : Stage := ⟨fields, false, .draft, none, ⟨false, false⟩, none, none, none⟩
      exec c s = .next (answering p .stageWrite tag .ok (.stageStatus (some .draft)) u) ∧
      u.stage? a.key = some x ∧ sameOtherStages a.key s u ∧ u.store.stages.length = s.store.stages.length + 1 ∧
      u.store.writes = begun s (.stage x)) ∧
    (∀ x, inRange → s.stage? a.key = some x → x.status ≠ .draft → refuses c s p .stageWrite tag .wrongState) ∧
    (∀ x, inRange → s.stage? a.key = some x → x.status = .draft → ∃ u,
      let y : Stage := if a.clear = 1 then { x with fields := fields, progress := none, startTime := none, endTime := none }
        else { x with fields := fields }
      exec c s = .next (answering p .stageWrite tag .ok (.stageStatus (some .draft)) u) ∧
      u.stage? a.key = some y ∧ sameOtherStages a.key s u ∧ u.store.writes = begun s (.stage y.stored))

/-- STAGE_RELEASE takes a DRAFT stage to READY when override is set or every prerequisite is COMPLETE, and to BLOCKED
otherwise; STAGE_WITHDRAW takes a READY or BLOCKED stage back to DRAFT, and RESUME a SUSPENDED one to READY without its end
cause; both clear waiting-for-mix and have the mix order formed again (R6, R7, R19, R20). That RESUME
ignores the P_max field it does not give is the model's choice (log entry 23). -/
def Obligations.StageReleaseWithdrawAndResume : Prop :=
  (∀ (s : State) (p : Port) (tag : Byte) (k : StageKey) (x : Stage), editReady s p → s.stage? k = some x →
     let c : Instr := .stageRelease p tag (.args k)
     let free : Prop := x.fields.overridden = true ∨
       ∀ q ∈ x.fields.prereqs, ∃ y, s.stage? q = some y ∧ y.status = .complete
     (x.status ≠ .draft → refuses c s p .stageRelease tag .wrongState) ∧
     (x.status = .draft → (∃ q ∈ x.fields.prereqs, s.stage? q = none) → refuses c s p .stageRelease tag .badArgument) ∧
     (∀ st, x.status = .draft → (∀ q ∈ x.fields.prereqs, s.stage? q ≠ none) →
       (free ∧ st = .ready ∨ ¬ free ∧ st = .blocked) → ∃ u,
       exec c s = .next (answering p .stageRelease tag .ok (.stageStatus (some st)) u) ∧
       u.stage? k = some { x with status := st } ∧ sameOtherStages k s u ∧
       u.store.writes = begun s (.stage { x with status := st }.stored) ∧ u.grout.mixOrder = s.grout.mixOrder ∧
       ∀ q, (u.port q).queue = (s.port q).queue)) ∧
  (∀ (s : State) (p : Port) (tag : Byte) (k : StageKey) (x : Stage), editReady s p → s.stage? k = some x →
    let c : Instr := .stageWithdraw p tag (.args k)
    let y : Stage := { x with status := .draft, waiting := false }
    (x.status ∉ [.ready, .blocked] → refuses c s p .stageWithdraw tag .wrongState) ∧
    (x.status ∈ [.ready, .blocked] → ∃ u,
      exec c s = .next (answering p .stageWithdraw tag .ok (.stageStatus (some .draft)) u) ∧
      u.stage? k = some y ∧ sameOtherStages k s u ∧ u.store.writes = begun s (.stage y.stored) ∧
      u.grout.mixOrder = lowestClass u.orderInputs)) ∧
  (∀ (s : State) (p : Port) (tag : Byte) (a : DecideArgs) (x : Stage), editReady s p → s.stage? a.key = some x →
    a.action = 3 → a.given = 0 →
    let c : Instr := .stageDecideResume p tag (.args a)
    let y : Stage := { x with status := .ready, endCause := none, waiting := false }
    (x.status ≠ .suspended → refuses c s p .stageDecide tag .wrongState) ∧
    (x.status = .suspended → ∃ u,
      exec c s = .next (answering p .stageDecide tag .ok (.stageStatus (some .ready)) u) ∧
      u.stage? a.key = some y ∧ sameOtherStages a.key s u ∧ u.store.writes = begun s (.stage y.stored) ∧
      u.grout.mixOrder = lowestClass u.orderInputs))

/-- STAGE_DELETE removes a DRAFT, COMPLETE or ABANDONED stage that no stage outside DRAFT names, with its completion
summary (R8, R161). The model's choices: one write carries the removal of both (log entry 47); the answer carries no status
(log entry 52). -/
def Obligations.StageDeleteRemovesUnusedStages : Prop :=
  ∀ (s : State) (p : Port) (tag : Byte) (k : StageKey) (x : Stage), editReady s p → s.stage? k = some x →
    let c : Instr := .stageDelete p tag (.args k)
    let ended : Prop := x.status ∈ [.draft, .complete, .abandoned]
    let used : Prop := ∃ y ∈ s.store.stages, y.status ≠ .draft ∧ k ∈ y.fields.prereqs
    (¬ ended → refuses c s p .stageDelete tag .wrongState) ∧
    (ended → used → refuses c s p .stageDelete tag .inUse) ∧
    (ended → ¬ used → ∃ u, exec c s = .next (answering p .stageDelete tag .ok (.stageStatus none) u) ∧
      u.store.stages = s.store.stages.filter (fun y => y.key ≠ k) ∧ u.stage? k = none ∧ sameOtherStages k s u ∧
      u.record.completions = s.record.completions.filter (fun m => m.key ≠ k) ∧
      u.store.writes = begun s (.stageRemoved k) ∧
      u.grout.mixOrder = lowestClass u.orderInputs)

/-- STAGE_DECIDE CONTINUE of an ACTIVE stage with a pending decision: P_max lowered and the ceilings of its line
re-formed at once, the decided causes removed from the line's set, the decision removed, the record written (R16,
R101). That a P_max field not given is ignored is the model's choice (log entry 23). -/
def Obligations.ContinueTakesTheDecision : Prop :=
  ∀ (s : State) (p : Port) (tag : Byte) (a : DecideArgs) (x : Stage), editReady s p → s.stage? a.key = some x →
    a.action = 0 → a.given ≤ 1 →
    let c : Instr := .stageDecideContinue p tag (.args a)
    let pending : Prop := x.status = .active ∧ (x.decision.fracture = true ∨ x.decision.connection = true)
    let pMaxOk : Prop := a.given = 1 → 50 ≤ a.pMax ∧ a.pMax < x.fields.pMax
    (¬ pending → refuses c s p .stageDecide tag .wrongState) ∧
    (pending → ¬ pMaxOk → refuses c s p .stageDecide tag .badArgument) ∧
    (pending → pMaxOk → ∃ u,
      let f : StageFields := if a.given = 1 then { x.fields with pMax := a.pMax } else x.fields
      let y : Stage := { x with fields := f, decision := ⟨false, false⟩ }
      exec c s = .next (answering p .stageDecide tag .ok (.stageStatus (some .active)) u) ∧
      u.stage? a.key = some y ∧ sameOtherStages a.key s u ∧ u.store.writes = begun s (.stage y.stored) ∧
      (∀ l, s.carrier? a.key = some l → sameOtherLines l (heard p s) u ∧
        let z := (heard p s).line l
        let reform : Computed → Computed := Computed.withCeilings s.stop.warn s.settings.derate z.inForce.range f
        let z : Line := if a.given = 1 then { z with values := z.values.map reform } else z
        let z := if x.decision.fracture = true then z.freed .fracture else z
        u.line l = if x.decision.connection = true then z.freed .connection else z) ∧
      (s.carrier? a.key = none → ∀ l, u.line l = (heard p s).line l))

/-- STAGE_DECIDE CLOSE and ABANDON end a SUSPENDED stage, or an ACTIVE one with a pending decision: the stage's record,
its summary, the writes of both; the carrying line goes to CLOSING with its grant ENDING; CLOSE alone frees the BLOCKED stages
whose prerequisites are now all COMPLETE (R10, R17, R18, R31, R62). The stage table stands in key order (R1), as
`State.tablesOk` says. That a P_max field not given is ignored is the model's choice (log entry 23), and so is that
the summary's C_e is the re-formed one after a CONTINUE (log entry 50). -/
def Obligations.CloseAndAbandonEndTheStage : Prop :=
  ∀ (s : State) (p : Port) (tag : Byte) (a : DecideArgs) (x : Stage), editReady s p → s.stage? a.key = some x →
    a.given = 0 → inKeyOrder s.store.stages →
    ∀ (c : Instr) (st : StageStatus) (cause : EndCause) (reason : EndReason),
      (a.action = 1 ∧ c = .stageDecideClose p tag (.args a) ∧ st = .complete ∧ cause = .closedByConsole ∧
          reason = .closedByConsole ∨
       a.action = 2 ∧ c = .stageDecideAbandon p tag (.args a) ∧ st = .abandoned ∧ cause = .abandonedByConsole ∧
          reason = .abandonedByConsole) →
      let pending : Prop := x.decision.fracture = true ∨ x.decision.connection = true
      let taken : Prop := x.status = .suspended ∨ (x.status = .active ∧ pending)
      let total (f : Progress → Nat) : Nat := (x.progress.map f).getD 0
      let summary (values : Option Computed) : Summary :=
        ⟨a.key, cause, x.startTime.getD 0, s.clock.site, total Progress.v,
         total Progress.v / (x.fields.bottom - x.fields.top), total Progress.maxPe, total Progress.maxClass,
         (values.map Computed.ce).getD 0, (values.map Computed.j).getD 0, total Progress.overpressure,
         total Progress.connection, total Progress.unmetered, total Progress.injecting, total Progress.holding⟩
      (¬ taken → refuses c s p .stageDecide tag .wrongState) ∧
      (taken → ∃ u,
        exec c s = .next (answering p .stageDecide tag .ok (.stageStatus (some st)) u) ∧
        let y : Stage := x.endedBy st cause s.clock.site
        let freed (j : StageKey) (w : Stage) : Prop := j ≠ a.key ∧ s.stage? j = some w ∧ st = .complete ∧
          w.status = .blocked ∧ a.key ∈ w.fields.prereqs ∧
          ∀ q ∈ w.fields.prereqs, q = a.key ∨ ∃ z, s.stage? q = some z ∧ z.status = .complete
        let recorded (m : Summary) : Prop :=
          u.record.completions = s.record.completions.filter (fun n => n.key ≠ a.key) ++ [m] ∧
          ∃ more, u.store.writes = s.store.writes ++ [.stage y.stored, .summary m] ++ more ∧
            ∀ w, w ∈ more ↔ ∃ j z, freed j z ∧ w = .stage { z with status := .ready }.stored
        u.stage? a.key = some y ∧
        (∀ j w, freed j w → u.stage? j = some { w with status := .ready }) ∧
        (∀ j w, j ≠ a.key → s.stage? j = some w → ¬ freed j w → u.stage? j = some w) ∧
        (∀ l, x.status = .active → s.carrier? a.key = some l →
          sameOtherLines l (heard p s) u ∧
          u.line l = (((heard p s).line l).closed reason s.settings.travelTime) ∧
          recorded (summary (s.line l).values)) ∧
        (x.status = .suspended → (∀ l, u.line l = (heard p s).line l) ∧ recorded (summary none)) ∧
        u.grout.mixOrder = lowestClass u.orderInputs)
/-! ### Line requests -/

/-- LINE_CONFIG of an IDLE or ISOLATED line: every setting replaced and written through; Present set to no isolates the
line and takes its channels out of service, Present set to yes starts them as at power-on (R28, R29, R84). That the other
new settings wait for the next sample event is the model's reading (log entry 17); that a channel that returns to service
stands in SUSPECT at once, and that one in OFF has bad count 0, are its choices (log entries 18 and 49). -/
def Obligations.LineConfigReplacesTheSettings : Prop :=
  ∀ (s : State) (p : Port) (tag : Byte) (a : LineConfigArgs), consoleReady s p →
    let c : Instr := .lineConfig p tag (.args a)
    let inRange : Prop :=
      a.present ≤ 1 ∧ 1000 ≤ a.range ∧ a.range ≤ 16000 ∧ 10 ≤ a.weight ∧ a.weight ≤ 1000 ∧ 10 ≤ a.hose ∧ a.hose ≤ 200 ∧
      a.friction ≤ 500 ∧ 20 ≤ a.watch ∧ a.watch ≤ 2000
    let new : LineSettings := ⟨a.present == 1, a.range, a.weight, a.hose, a.friction, a.watch⟩
    (8 ≤ a.line ∨ ¬ inRange → refuses c s p .lineConfig tag .badArgument) ∧
    (∀ l : LineId, a.line = l.val → inRange →
      ((s.line l).state ∉ [.idle, .isolated] → refuses c s p .lineConfig tag .wrongState) ∧
      ((s.line l).state ∈ [.idle, .isolated] → ∃ u, exec c s = .next (answering p .lineConfig tag .ok .header u) ∧
        sameOtherLines l (heard p s) u ∧ u.store.writes = begun s (.line l new) ∧
        (u.line l).settings = new ∧ (u.line l).inForce = (s.line l).inForce ∧
        (a.present = 0 → (u.line l).state = .isolated ∧ (u.line l).isolation = some .notPresent ∧
          (u.line l).pressure = { (s.line l).pressure with
            validity := .off, bad := 0, value := 0, noValue := true, ref := none } ∧
          (u.line l).flow = { (s.line l).flow with
            validity := .off, bad := 0, value := 0, noValue := true, ref := none } ∧
          (u.line l).window = [] ∧ (u.line l).ring = []) ∧
        (a.present = 1 → (s.line l).settings.present = true →
          u.line l = { (heard p s).line l with settings := new }) ∧
        (a.present = 1 → (s.line l).settings.present = false →
          (u.line l).state = (s.line l).state ∧ (u.line l).isolation = (s.line l).isolation ∧
          (u.line l).pressure = { (s.line l).pressure with
            validity := .suspect, bad := 0, value := 0, noValue := true, ref := none } ∧
          (u.line l).flow = { (s.line l).flow with
            validity := .suspect, bad := 0, value := 0, noValue := true, ref := none })))

/-- LINE_WATCH, LINE_UNWATCH, LINE_ISOLATE and LINE_RETURN: their checks in order and their moves (R44, R45). HOLD_ALL
sets the flag and adds CONSOLE to every line as R39 takes it; RELEASE_ALL clears the flag and removes it as R40 takes it; a
repeated one changes nothing (R43). -/
def Obligations.LineRequestsMoveAndHoldTheLines : Prop :=
  (∀ (s : State) (p : Port) (tag : Byte) (a : LineWatchArgs), consoleReady s p →
    let c : Instr := .lineWatch p tag (.args a)
    let inRange : Prop := 1 ≤ a.hole ∧ a.hole ≤ 9999 ∧ a.stage ≤ 20
    let stage : Option Nat := if a.stage = 0 then none else some a.stage
    (8 ≤ a.line ∨ ¬ inRange → refuses c s p .lineWatch tag .badArgument) ∧
    (∀ l : LineId, a.line = l.val → inRange →
      ((s.line l).state ≠ .idle → refuses c s p .lineWatch tag .lineHeld) ∧
      ((s.line l).state = .idle → exec c s = .next (answering p .lineWatch tag .ok .header
        ((heard p s).updLine l (fun x =>
          { x with state := .watch, watch := some ⟨a.hole, stage, none, 0, true, 0, 0⟩ })))))) ∧
  (∀ (s : State) (p : Port) (tag : Byte) (n : Nat), consoleReady s p → 8 ≤ n →
    refuses (.lineUnwatch p tag (.args n)) s p .lineUnwatch tag .badArgument ∧
    refuses (.lineIsolate p tag (.args n)) s p .lineIsolate tag .badArgument ∧
    refuses (.lineReturn p tag (.args n)) s p .lineReturn tag .badArgument) ∧
  (∀ (s : State) (p : Port) (tag : Byte) (l : LineId), consoleReady s p →
    let x := s.line l
    (x.state ≠ .watch → refuses (.lineUnwatch p tag (.args l.val)) s p .lineUnwatch tag .wrongState) ∧
    (x.state = .watch → exec (.lineUnwatch p tag (.args l.val)) s = .next (answering p .lineUnwatch tag .ok .header
      ((heard p s).updLine l (fun x => { x with state := .idle, watch := none })))) ∧
    (x.state ∉ [.idle, .watch] → refuses (.lineIsolate p tag (.args l.val)) s p .lineIsolate tag .wrongState) ∧
    (x.state ∈ [.idle, .watch] → exec (.lineIsolate p tag (.args l.val)) s = .next
      (answering p .lineIsolate tag .ok .header ((heard p s).updLine l (fun x =>
        { x with state := .isolated, isolation := some .console, watch := none })))) ∧
    (x.state ≠ .isolated ∨ x.settings.present = false ∨ x.readback ≠ .closed →
      refuses (.lineReturn p tag (.args l.val)) s p .lineReturn tag .wrongState) ∧
    (x.state = .isolated → x.settings.present = true → x.readback = .closed →
      exec (.lineReturn p tag (.args l.val)) s = .next (answering p .lineReturn tag .ok .header
        ((heard p s).updLine l (fun x =>
          { x with state := .idle, command := .closed, isolation := none, invalid := 0 }))))) ∧
  (∀ (s : State) (p : Port) (tag : Byte), consoleReady s p →
     (s.holdAll = true → exec (.holdAll p tag (.args ())) s = .next (answering p .holdAll tag .ok .header (heard p s))) ∧
     (s.holdAll = false → ∃ u, exec (.holdAll p tag (.args ())) s = .next (answering p .holdAll tag .ok .header u) ∧
       u.holdAll = true ∧ ∀ l, u.line l = ((heard p s).line l).held .console) ∧
     (s.holdAll = false → exec (.releaseAll p tag (.args ())) s =
       .next (answering p .releaseAll tag .ok .header (heard p s))) ∧
     (s.holdAll = true → ∃ u, exec (.releaseAll p tag (.args ())) s = .next (answering p .releaseAll tag .ok .header u) ∧
       u.holdAll = false ∧ ∀ l, u.line l = ((heard p s).line l).freed .console))

/-! ### Grout and uplift requests -/

/-- BATCH_REPORT appends the batch with the next number, forms the tank class again and gives every line with a valve
commanded OPEN a transit entry when that class changes; its refusals (R121, R122, R127). That a mixed-at field not
given is ignored is the model's choice (log entry 23). -/
def Obligations.BatchReportAppendsTheBatch : Prop :=
  ∀ (s : State) (p : Port) (tag : Byte) (a : BatchArgs), consoleReady s p →
    let c : Instr := .batchReport p tag (.args a)
    let inRange : Prop := 1 ≤ a.cls ∧ a.cls ≤ 6 ∧ 20 ≤ a.volume ∧ a.volume ≤ 2000 ∧ a.given ≤ 1 ∧
      (a.given = 1 → a.mixedAt ≤ s.clock.site)
    (¬ inRange → refuses c s p .batchReport tag .badArgument) ∧
    (inRange → 8 ≤ s.grout.batches.length → refuses c s p .batchReport tag .tableFull) ∧
    (inRange → s.grout.batches.length < 8 → ∃ u,
      let b : Batch :=
        ⟨s.grout.nextBatch, a.cls, a.volume, a.volume * 1000, if a.given = 1 then a.mixedAt else s.clock.site⟩
      let held := s.grout.batches.length + 1
      let cls := max s.grout.tankClass a.cls
      exec c s = .next (answering p .batchReport tag .ok
        (.batch b.number held cls (((s.grout.batches.map Batch.remaining).sum + a.volume * 1000) / 1000)) u) ∧
      u.grout.batches = s.grout.batches ++ [b] ∧ u.grout.tankClass = cls ∧
      u.grout.nextBatch = (if s.grout.nextBatch < 65535 then s.grout.nextBatch + 1 else 1) ∧
      u.grout.noGrout = false ∧ u.grout.unaccounted = s.grout.unaccounted ∧ u.grout.mixOrder = s.grout.mixOrder ∧
      (∀ l, (u.line l).transit =
        if (s.line l).state.live = true ∧ cls ≠ s.grout.tankClass then
          (if (s.line l).transit.length < 3 then (s.line l).transit else (s.line l).transit.drop 1) ++
            [⟨cls, (s.line l).inForce.hose * 1000⟩]
        else (s.line l).transit) ∧
      (s.grout.batches ≠ [] → u.grout.aged = s.grout.aged) ∧
      (s.grout.batches = [] → u.grout.aged = decide (s.settings.ageLimit * 60 < s.clock.site - b.mixedAt)))

/-- TANK_DUMP empties the batch list, keeps the next number, and ends the aged condition; the aged condition stands when a
batch is held and the oldest is over the limit, and its beginning and end put the AGED cause on the lines and take it off
(R124, R128). The level channel's sample, and the comparison of the tank account with it (R70, R77, R129). The
model's choice (log entry 7): GROUT_AGE_LIMIT_REACHED decides the aged condition whenever the command is given;
LEVEL_COMPARISON changes nothing before 10 s of the clock have passed, and leaves what they have passed by to the next
period. -/
def Obligations.TankDumpAgingAndLevel : Prop :=
  (∀ (s : State) (p : Port) (tag : Byte), consoleReady s p → ∃ u,
    exec (.tankDump p tag (.args ())) s = .next (answering p .tankDump tag .ok
      (.dump s.grout.batches.length ((s.grout.batches.map Batch.remaining).sum / 1000)) u) ∧
    u.grout.batches = [] ∧ u.grout.tankClass = 0 ∧ u.grout.nextBatch = s.grout.nextBatch ∧ u.grout.aged = false ∧
    (∀ l, u.line l = if s.grout.aged = true then ((heard p s).line l).freed .aged else (heard p s).line l)) ∧
  (∀ s : State, ∃ t, exec .groutAgeLimitReached s = .next t ∧
    let aged : Prop := ∃ b bs, s.grout.batches = b :: bs ∧ s.settings.ageLimit * 60 < s.clock.site - b.mixedAt
    (t.grout.aged = true ↔ aged) ∧ t.grout.batches = s.grout.batches ∧
    ∀ l, t.line l =
      if t.grout.aged = s.grout.aged then s.line l
      else if t.grout.aged = true then (s.line l).held .aged else (s.line l).freed .aged) ∧
  (∀ (s : State) (i : Nat), ∃ t, exec (.levelSampleEvent i) s = .next t ∧
    t.level = (s.level.sample s.counterTop s.settings.lossCount (some (s.settings.tankCapacity * 2 / 100))
      (convertSpan s.settings.tankCapacity i)).channel ∧
    (s.level.validity = .suspect → t.level.validity = .lost → .levelLost ∈ t.record.latched) ∧
    t.grout = s.grout ∧ ∀ l, t.line l = s.line l) ∧
  (∀ s : State, s.grout.levelPeriod < 10 → exec .levelComparison s = .next s) ∧
  (∀ s : State, 10 ≤ s.grout.levelPeriod → ∃ t, exec .levelComparison s = .next t ∧
    (s.level.validity ≠ .valid → t = { s with grout := { s.grout with
      mismatch := 0, matched := 0, levelPeriod := s.grout.levelPeriod - 10 } }) ∧
    (s.level.validity = .valid →
      let difference : Int := s.level.value - (((s.grout.batches.map Batch.remaining).sum / 1000 : Nat) : Int)
      let beyond : Prop := s.settings.levelTolerance < difference.natAbs
      t.grout = { s.grout with
        difference := difference
        mismatch := if beyond then min 3 (s.grout.mismatch + 1) else 0
        matched := if beyond then 0 else min 3 (s.grout.matched + 1)
        levelMismatch := t.grout.levelMismatch
        levelPeriod := s.grout.levelPeriod - 10 } ∧
      (t.grout.levelMismatch = true ↔
        (beyond ∧ 2 ≤ s.grout.mismatch) ∨ (s.grout.levelMismatch = true ∧ ¬ (¬ beyond ∧ 2 ≤ s.grout.matched)))))

/-- UPLIFT_ZERO takes the reading of each enabled gauge as its zero, refused while UPLIFT_STOP is latched; UPLIFT_CLEAR
clears the latch when every enabled gauge is below warn and takes UPLIFT off the lines (R138, R140, R142). The model's
own: the degraded flag counts the gauges as they stand now (log entry 15); below warn is judged by the warn threshold in
force at the request (log entry 46). -/
def Obligations.UpliftZeroAndUpliftClear : Prop :=
  (∀ (s : State) (p : Port) (tag : Byte), consoleReady s p →
    (s.stop.upliftStop = true → refuses (.upliftZero p tag (.args ())) s p .upliftZero tag .conditionPresent) ∧
    (s.stop.upliftStop = false → ∃ u,
      exec (.upliftZero p tag (.args ())) s = .next (answering p .upliftZero tag .ok
        (.baselines (gaugeIds.map (fun g => (u.gauge g).baseline))) u) ∧
      (∀ g, s.enabled g = true → u.gauge g = { s.gauge g with
        baseline := if (s.gauge g).channel.validity = .valid then some (s.gauge g).channel.value else none,
        u := 0, warning := false, warnCount := 0, clearCount := 0, stopCount := 0 }) ∧
      (∀ g, s.enabled g = false → u.gauge g = s.gauge g) ∧
      (u.stop.degraded = true ↔ (gaugeIds.filter (fun g => s.enabled g && (s.gauge g).channel.isValid)).length < 2) ∧
      (u.stop.warn = true ↔ u.stop.degraded = true ∨
        ∃ g, s.enabled g = true ∧ (s.gauge g).channel.validity ∈ [.lost, .regain1, .regain2]))) ∧
  (∀ (s : State) (p : Port) (tag : Byte), consoleReady s p →
    let below : Prop := ∀ g, s.enabled g = true →
      (s.gauge g).judged = true ∧ (s.gauge g).u < s.settings.warnThreshold
    (s.stop.upliftStop = false →
      exec (.upliftClear p tag (.args ())) s = .next (answering p .upliftClear tag .ok .header (heard p s))) ∧
    (s.stop.upliftStop = true → ¬ below →
      refuses (.upliftClear p tag (.args ())) s p .upliftClear tag .conditionPresent) ∧
    (s.stop.upliftStop = true → below → ∃ u,
      exec (.upliftClear p tag (.args ())) s = .next (answering p .upliftClear tag .ok .header u) ∧
      u.stop = { s.stop with upliftStop := false } ∧ ∀ l, u.line l = ((heard p s).line l).freed .uplift))

/-! ### Part-wide requests -/

/-- PART_CONFIG replaces every part setting and has the gauge enables and the wide counters take effect; refused
BAD_ARGUMENT outside the ranges and BUSY while a valve is commanded OPEN (R174, R84, R137). Where it turns wide counters off,
every count of the channels, ports, readers and stages above 255 becomes 255, and otherwise none changes; an alert slip
counter may count on, no further than its top, for alerts that the request itself posts (R22, R79, R164). The model's choices: the
non-volatile copy keeps its counts as they were written (log entry 55); a gauge whose enable does not change is left as it
is (log entry 19); an enabled one stands in SUSPECT at once (log entry 18). -/
def Obligations.PartConfigReplacesEverySetting : Prop :=
  ∀ (s : State) (p : Port) (tag : Byte) (a : PartConfigArgs), consoleReady s p →
    let c : Instr := .partConfig p tag (.args a)
    let inRange : Prop :=
      2 ≤ a.travelTime ∧ a.travelTime ≤ 30 ∧ 10 ≤ a.acceptWindow ∧ a.acceptWindow ≤ 300 ∧ 1 ≤ a.keepalive ∧
      a.keepalive ≤ 10 ∧ 5 ≤ a.holdLimit ∧ a.holdLimit ≤ 60 ∧ 5 ≤ a.recordInterval ∧ a.recordInterval ≤ 60 ∧
      30 ≤ a.ageLimit ∧ a.ageLimit ≤ 240 ∧ a.residueLimit ≤ 500 ∧ 10 ≤ a.levelTolerance ∧ a.levelTolerance ≤ 500 ∧
      200 ≤ a.tankCapacity ∧ a.tankCapacity ≤ 5000 ∧ 50 ≤ a.derate ∧ a.derate ≤ 95 ∧ 3 ≤ a.lossCount ∧
      a.lossCount ≤ 4 ∧ 10 ≤ a.warnThreshold ∧ a.warnThreshold ≤ 1000 ∧ a.warnThreshold < a.stopThreshold ∧
      a.stopThreshold ≤ 2000 ∧ 1 ≤ a.hysteresis ∧ a.hysteresis ≤ 100 ∧ a.hysteresis < a.warnThreshold ∧ a.wide ≤ 1 ∧
      a.gauges < 16
    let busy : Prop := ∃ l, (s.line l).state ∈ [.opening, .armed, .injecting, .holding]
    let new : PartSettings :=
      ⟨a.travelTime, a.acceptWindow, a.keepalive, a.holdLimit, a.recordInterval, a.ageLimit, a.residueLimit,
       a.levelTolerance, a.tankCapacity, a.derate, a.lossCount, a.warnThreshold, a.stopThreshold, a.hysteresis,
       a.wide == 1, #v[a.gauges.testBit 0, a.gauges.testBit 1, a.gauges.testBit 2, a.gauges.testBit 3]⟩
    let narrowed (n : Nat) : Nat := if s.settings.wide = true ∧ a.wide = 0 then min 255 n else n
    (¬ inRange → refuses c s p .partConfig tag .badArgument) ∧
    (inRange → busy → refuses c s p .partConfig tag .busy) ∧
    (inRange → ¬ busy → ∃ u, exec c s = .next (answering p .partConfig tag .ok .header u) ∧
      u.settings = new ∧ u.store.writes = begun s (.part new) ∧ u.store.nv = s.store.nv ∧
      (∀ g, s.enabled g = u.enabled g → (u.gauge g).baseline = (s.gauge g).baseline ∧
        (u.gauge g).channel.validity = (s.gauge g).channel.validity) ∧
      (∀ g, s.enabled g = false → u.enabled g = true → (u.gauge g).baseline = none ∧ (u.gauge g).warning = false ∧
        (u.gauge g).channel.validity = .suspect ∧ (u.gauge g).channel.noValue = true) ∧
      (∀ g, s.enabled g = true → u.enabled g = false → (u.gauge g).baseline = (s.gauge g).baseline ∧
        (u.gauge g).warning = false ∧ (u.gauge g).channel.validity = .off) ∧
      (∀ l, (u.line l).pressure.counter.count = narrowed (s.line l).pressure.counter.count ∧
        (u.line l).flow.counter.count = narrowed (s.line l).flow.counter.count) ∧
      (∀ g, (u.gauge g).channel.counter.count = narrowed (s.gauge g).channel.counter.count) ∧
      u.level.counter.count = narrowed s.level.counter.count ∧
      (∀ q, (u.port q).crc.count = narrowed (s.port q).crc.count ∧
        (u.port q).framing.count = narrowed (s.port q).framing.count ∧
        (u.port q).overrun.count = narrowed (s.port q).overrun.count ∧
        narrowed (s.port q).slip.count ≤ (u.port q).slip.count ∧
        (u.port q).slip.count ≤ max (narrowed (s.port q).slip.count) u.counterTop) ∧
      u.record.readerC0.slips.count = narrowed s.record.readerC0.slips.count ∧
      u.record.readerC1.slips.count = narrowed s.record.readerC1.slips.count ∧
      (∀ k, u.stage? k = (s.stage? k).map (fun x => { x with progress := x.progress.map (fun r => { r with
        unmetered := narrowed r.unmetered, overpressure := narrowed r.overpressure,
        connection := narrowed r.connection }) })))

/-- READER_ENABLE enables a disabled reader at the next record to be written, keeps an enabled one's position, and discards
a disabled one's; a record that no enabled reader still needs leaves the queue (R159). It writes the enables whenever it is
taken (the model's choice, log entry 37). At the record interval a line writes its injection record and the stage's
progress; a full queue overwrites its oldest record, and a reader standing on it slips (R23, R158, R159). The model's choices: an interval that
is not due changes nothing (log entry 7); the progress is written with the whole stored record (log entry 42). -/
def Obligations.RecordsAreWrittenAndReadersPlaced : Prop :=
  (∀ (s : State) (p : Port) (tag : Byte) (a : ReaderArgs), consoleReady s p →
     let c : Instr := .readerEnable p tag (.args a)
     let switched (x : Reader) : Reader :=
       if a.enable = 1 ∧ x.enabled = true then x else { x with enabled := a.enable == 1, unread := 0 }
     let c0 := if a.reader = 0 then switched s.record.readerC0 else s.record.readerC0
     let c1 := if a.reader = 1 then switched s.record.readerC1 else s.record.readerC1
     let needed := max (if c0.enabled then c0.unread else 0) (if c1.enabled then c1.unread else 0)
     (1 < a.reader ∨ 1 < a.enable → refuses c s p .readerEnable tag .badArgument) ∧
     (a.reader ≤ 1 → a.enable ≤ 1 → ∃ u,
       exec c s = .next (answering p .readerEnable tag .ok (.readers c0.enabled c1.enabled) u) ∧
       u.record = { s.record with
         readerC0 := c0, readerC1 := c1, records := s.record.records.drop (s.record.records.length - needed) } ∧
       u.store.writes = begun s (.readers c0.enabled c1.enabled))) ∧
  (∀ (s : State) (l : LineId),
     let x := s.line l
     let due : Prop := x.state ∈ [.armed, .injecting, .holding] ∧
       ∃ n, x.recordTimer = some n ∧ s.settings.recordInterval ≤ n
     (¬ due → exec (.recordInterval l) s = .next s) ∧
     (∀ k z, due → x.stage = some k → s.stage? k = some z → ∃ t,
       let value (f : Computed → Nat) : Nat := (x.values.map f).getD 0
       let e : InjectionRecord :=
         ⟨s.record.nextRecord, s.clock.site, k, l, x.state, value Computed.pg, value Computed.pe, value Computed.ce,
          value Computed.cg, value Computed.q, (z.progress.map Progress.v).getD 0, value Computed.v, value Computed.j,
          (x.classes.map Classes.effective).getD 0, (x.classes.map Classes.demanded).getD 0, x.causes,
          (x.values.map Computed.stale).getD true⟩
       let held := s.record.records.length
       let enabled : Prop := s.record.readerC0.enabled = true ∨ s.record.readerC1.enabled = true
       let moved (r : Reader) : Reader → Prop := fun r' => r'.enabled = r.enabled ∧
         (r.enabled = false → r' = r) ∧
         (r.enabled = true → 256 ≤ held → r.unread = held →
           r'.unread = r.unread ∧ r'.slips.count = satSucc s.counterTop r.slips.count) ∧
         (r.enabled = true → held < 256 ∨ r.unread ≠ held → r'.unread = r.unread + 1 ∧ r'.slips = r.slips)
       exec (.recordInterval l) s = .next t ∧ t.line l = { x with recordTimer := some 0 } ∧ sameOtherLines l s t ∧
       t.record.nextRecord = (if s.record.nextRecord < 65535 then s.record.nextRecord + 1 else 1) ∧
       (enabled → t.record.records = (s.record.records ++ [e]).drop (held + 1 - 256)) ∧
       (¬ enabled → t.record.records = s.record.records) ∧
       moved s.record.readerC0 t.record.readerC0 ∧ moved s.record.readerC1 t.record.readerC1 ∧
       t.store.stages = s.store.stages ∧
       t.store.writes = if z.status = .active ∧ z.progress ≠ none then begun s (.stage z.stored) else s.store.writes))

/-- The saturating counters, and CLEAR_COUNTERS: one channel's counter, or every counter, flag and the unaccounted-grout
count; CLEAR_LATCHES: one code's latched flag, or every one, and no live state (R80, R163, R164). -/
def Obligations.CountersAndLatchesAreCleared : Prop :=
  (∀ (top : Nat) (x : Counter),
    (x.bump top).1.count = (if x.count < top then x.count + 1 else x.count) ∧
    ((x.bump top).2 = true ↔ x.count < top ∧ x.count + 1 = top ∧ x.posted = false) ∧
    ((x.bump top).1.posted = true ↔ x.posted = true ∨ (x.count < top ∧ x.count + 1 = top))) ∧
  (∀ (s : State) (p : Port) (tag : Byte), consoleReady s p →
    (∃ u, exec (.clearCounters p tag (.args 255)) s = .next (answering p .clearCounters tag .ok .header u) ∧
      (∀ l, (u.line l).pressure = { (s.line l).pressure with counter := ⟨0, false⟩ } ∧
        (u.line l).flow = { (s.line l).flow with counter := ⟨0, false⟩ }) ∧
      (∀ g, (u.gauge g).channel = { (s.gauge g).channel with counter := ⟨0, false⟩ }) ∧
      u.level = { s.level with counter := ⟨0, false⟩ } ∧
      (∀ q, (u.port q).crc = ⟨0, false⟩ ∧ (u.port q).framing = ⟨0, false⟩ ∧ (u.port q).overrun = ⟨0, false⟩ ∧
        (u.port q).slip = ⟨0, false⟩ ∧ (u.port q).slipFlag = (s.port q).slipFlag) ∧
      u.record.readerC0 = { s.record.readerC0 with slips := ⟨0, false⟩ } ∧
      u.record.readerC1 = { s.record.readerC1 with slips := ⟨0, false⟩ } ∧
      u.grout = { s.grout with unaccounted := 0 }) ∧
    (∀ n, 20 < n → n ≠ 255 → refuses (.clearCounters p tag (.args n)) s p .clearCounters tag .badArgument) ∧
    (∀ l : LineId, exec (.clearCounters p tag (.args l.val)) s = .next (answering p .clearCounters tag .ok .header
      ((heard p s).updLine l (fun x => { x with pressure := { x.pressure with counter := ⟨0, false⟩ } })))) ∧
    (∀ l : LineId, exec (.clearCounters p tag (.args (8 + l.val))) s = .next (answering p .clearCounters tag .ok .header
      ((heard p s).updLine l (fun x => { x with flow := { x.flow with counter := ⟨0, false⟩ } })))) ∧
    (∀ g : GaugeId, exec (.clearCounters p tag (.args (16 + g.val))) s = .next
      (answering p .clearCounters tag .ok .header
        ((heard p s).updGauge g (fun x => { x with channel := { x.channel with counter := ⟨0, false⟩ } })))) ∧
    exec (.clearCounters p tag (.args 20)) s = .next (answering p .clearCounters tag .ok .header
      { heard p s with level := { s.level with counter := ⟨0, false⟩ } })) ∧
  (∀ (s : State) (p : Port) (tag : Byte), consoleReady s p →
    (exec (.clearLatches p tag (.args 255)) s = .next (answering p .clearLatches tag .ok .header
      { heard p s with record := { s.record with latched := [] } })) ∧
    (∀ f : FaultCode, ∃ u, exec (.clearLatches p tag (.args f.code)) s =
        .next (answering p .clearLatches tag .ok .header u) ∧
      u = { heard p s with record := { s.record with latched := u.record.latched } } ∧
      ∀ d, d ∈ u.record.latched ↔ d ∈ s.record.latched ∧ d ≠ f) ∧
    (∀ n, n ≠ 255 → (∀ f : FaultCode, f.code ≠ n) →
      refuses (.clearLatches p tag (.args n)) s p .clearLatches tag .badArgument))

/-- SET_TIME leaves its value pending and answers the site time as it stands; a second of the part's clock takes the
pending time, or raises site time by 1 with 0 after 4,294,967,295; it counts on the level period and on every line's travel,
hold timer, record timer and grant timers, decides the tank's age, and counts the seconds of the stage of an INJECTING or HOLDING line (R22,
R33, R42, R58, R59, R128, R129, R158, R165). The model's own: the accept and keepalive timers count the clock's seconds (log
entry 8); the hold timer stops at its limit (log entry 32); the timers and the stage's seconds count before the tank's age
is decided (log entry 45); past 4,294,967,295 seconds a stage's count is a free value (log entry 10). -/
def Obligations.SetTimeAndTheClockSecond : Prop :=
  (∀ (s : State) (p : Port) (tag : Byte) (n : Nat), consoleReady s p →
    exec (.setTime p tag (.args n)) s = .next (answering p .setTime tag .ok (.time s.clock.site)
      { heard p s with clock := { s.clock with pendingTime := some n } })) ∧
  (∀ s : State, ∃ t, exec .clockSecond s = .next t ∧
    t.clock.partSeconds = s.clock.partSeconds + 1 ∧ t.clock.pendingTime = none ∧
    (∀ n, s.clock.pendingTime = some n → t.clock.site = n ∧ t.clock.valid = true) ∧
    (s.clock.pendingTime = none → t.clock.valid = s.clock.valid ∧
      (s.clock.site < 4294967295 → t.clock.site = s.clock.site + 1) ∧
      (s.clock.site = 4294967295 → t.clock.site = 0)) ∧
    (t.grout.aged = true ↔
      ∃ b bs, s.grout.batches = b :: bs ∧ s.settings.ageLimit * 60 < t.clock.site - b.mixedAt) ∧
    t.grout.levelPeriod = s.grout.levelPeriod + 1 ∧
    ∀ l,
      let x := s.line l
      let one (w : Timer) : Timer := { w with elapsed := w.elapsed + 1 }
      let y : Line := { x with
        travel := x.travel.map (fun w => { w with elapsed := w.elapsed + 1 })
        holdTimer := x.holdTimer.map (fun n => min (s.settings.holdLimit * 60) (n + 1))
        recordTimer := x.recordTimer.map (fun n => n + 1)
        grant := x.grant.map (fun g => { g with accept := g.accept.map one, keepalive := g.keepalive.map one }) }
      t.line l =
        if t.grout.aged = s.grout.aged then y else if t.grout.aged = true then y.held .aged else y.freed .aged) ∧
  (∀ (s : State) (k : StageKey) (x : Stage) (g : Progress), s.stage? k = some x → x.progress = some g → ∃ t,
    exec .clockSecond s = .next t ∧
    (∀ l, x.status = .active → (∀ m, (s.line m).carried = some k ↔ m = l) →
      let top := 4294967295
      ((s.line l).state = .injecting → g.injecting < top →
        t.stage? k = some { x with progress := some { g with injecting := g.injecting + 1 } }) ∧
      ((s.line l).state = .holding → g.holding < top →
        t.stage? k = some { x with progress := some { g with holding := g.holding + 1 } }) ∧
      ((s.line l).state = .injecting → top ≤ g.injecting → ∃ n,
        t.stage? k = some { x with progress := some { g with injecting := (Config.freeSeconds n).toNat } }) ∧
      ((s.line l).state = .holding → top ≤ g.holding → ∃ n,
        t.stage? k = some { x with progress := some { g with holding := (Config.freeSeconds n).toNat } }) ∧
      ((s.line l).state ∉ [.injecting, .holding] → t.stage? k = some x)) ∧
    (x.status ≠ .active ∨ (∀ m, (s.line m).carried ≠ some k) → t.stage? k = some x))

/-- EXERCISE_STEP advances the step from 8 to 0 and posts the step's alert with the exercise flag; refused WRONG_STATE
while a valve is commanded OPEN or a stop stands (R166). -/
def Obligations.ExerciseStepAdvances : Prop :=
  ∀ (s : State) (p : Port) (tag : Byte), consoleReady s p →
    let c : Instr := .exerciseStep p tag (.args ())
    let barred : Prop := (∃ l, (s.line l).state ∈ [.opening, .armed, .injecting, .holding]) ∨
      s.stop.upliftStop = true ∨ s.stop.estop = true
    (barred → refuses c s p .exerciseStep tag .wrongState) ∧
    (¬ barred → 8 ≤ s.exercise → exec c s = .next (answering p .exerciseStep tag .ok .header
      { heard p s with exercise := 0 })) ∧
    (¬ barred → s.exercise < 8 → ∃ k, [AlertKind.upliftStop, .lockdown, .estop, .valveFault, .fracture, .overpressure,
        .sensorLost, .connectionHold][s.exercise]? = some k ∧
      exec c s = .next (answering p .exerciseStep tag .ok .header
        (post ⟨k, none, none, some ((s.exercise : Int) + 1), true⟩ [.p0, .p1, .p2, .p3, .c0, .c1]
          { heard p s with exercise := s.exercise + 1 })))

/-- RESET: BAD_ARGUMENT for another force byte, BUSY outside LOCKDOWN while a valve is commanded OPEN without force;
taken, it leaves LOCKDOWN, the exercise and HOLD_ALL, puts every line that is not ISOLATED into the start check, cuts
every grant with its reason, and suspends every carried stage by RESET (R26, R47, R64, R150). Every alert queue is emptied,
so that a pump port's holds nothing and a console's only what the reset itself posts; the slip flags and slip counters stand
(R150, R155, R156). The place of the argument
check is the model's (log entry 35), and so is that each line keeps its pulses and its invalid readback count, with its
settings and channels (log entry 34). -/
def Obligations.WarmResetRestartsTheCheck : Prop :=
  ∀ (s : State) (p : Port) (tag : Byte) (n : Nat), p.isConsole = true → listening s p →
    let c : Instr := .reset p tag (.args n)
    let busy : Prop := s.stop.lockdown = false ∧ n = 0 ∧
      ∃ l, (s.line l).state ∈ [.opening, .armed, .injecting, .holding]
    (1 < n → refuses c s p .reset tag .badArgument) ∧
    (busy → refuses c s p .reset tag .busy) ∧
    (n ≤ 1 → ¬ busy → ∃ u, exec c s = .next (answering p .reset tag .ok .header u) ∧
      u.stop = { s.stop with
        lockdown := false, startCheck := u.stop.startCheck, checkDone := s.stop.checkDone || !u.stop.startCheck } ∧
      (u.stop.startCheck = true ↔ ∃ l, (s.line l).state ≠ .isolated ∨ (s.line l).startCheck = true) ∧
      u.exercise = 0 ∧ u.holdAll = false ∧ u.grout.mixOrder = lowestClass u.orderInputs ∧
      (∀ q, (u.port q).slipFlag = (s.port q).slipFlag ∧ (u.port q).slip = (s.port q).slip ∧
        (q.isConsole = false → (u.port q).queue = []) ∧
        ∀ e ∈ (u.port q).queue, e.kind ∈ [.stageSuspended, .mixOrder] ∧ e.time = s.clock.site) ∧
      (∀ l, (s.line l).state = .isolated → u.line l = (heard p s).line l) ∧
      (∀ l, (s.line l).state ≠ .isolated → u.line l = { s.line l with
        state := .closing, stage := none, grant := none, command := .closed,
        travel := some ⟨.closed, s.settings.travelTime, 0⟩, causes := [], holdTimer := none, watch := none,
        startCheck := true, values := none, classes := none, transit := [], mixLag := false, decision := none,
        recordTimer := none, ring := [] }) ∧
      (∀ l g, (s.line l).state ≠ .isolated → (s.line l).grant = some g →
        (∀ m h, (s.line m).grant = some h → h.owner = g.owner → m = l) →
        (u.port g.owner).cut = some ⟨l, ((s.line l).stage.getD ⟨0, 0⟩),
          if g.phase = .live then .reset else g.endReason.getD .reset⟩) ∧
      (∀ k x, s.stage? k = some x →
        ((∃ l, (s.line l).carried = some k) → x.status = .active → u.stage? k = some (x.suspendedBy .reset)) ∧
        ((∀ l, (s.line l).carried ≠ some k) ∨ x.status ≠ .active → u.stage? k = some x)))
/-! ### Pump requests -/

/-- CLAIM's checks in the order of R51, the repeated claim and PORT_HAS_GRANT of R53, and what MIX_TOO_THICK leaves: the
stage waiting for its mix (R20). That a repeated claim answers the lengths of the settings is log entry 40. -/
def Obligations.ClaimChecksComeInOrder : Prop :=
  ∀ (s : State) (p : Port) (tag : Byte) (a : ClaimArgs), pumpReady s p →
    let c : Instr := .claim p tag (.args a)
    let permit : Prop := s.stop.upliftStop = false ∧ s.stop.estop = false
    (¬ permit → refuses c s p .claim tag .permitOpen) ∧
    (permit → s.exercise ≠ 0 → refuses c s p .claim tag .exerciseActive) ∧
    (permit → s.exercise = 0 → ∀ l, s.portGrant p = some l →
      let x := s.line l
      let repeated : Prop := (∃ g, x.grant = some g ∧ g.phase = .live) ∧ a.line = l.val ∧ x.stage = some a.key
      (repeated → exec c s = .next (answering p .claim tag .ok
        (.claim ⟨l, a.key, x.state, x.directive, x.effectiveClass, s.settings.acceptWindow, s.settings.keepalive⟩)
        (heard p s))) ∧
      (¬ repeated → refuses c s p .claim tag .portHasGrant)) ∧
    (permit → s.exercise = 0 → s.portGrant p = none →
      let keyOk : Prop := 1 ≤ a.key.hole ∧ a.key.hole ≤ 9999 ∧ 1 ≤ a.key.stage ∧ a.key.stage ≤ 20
      (8 ≤ a.line ∨ ¬ keyOk ∨ s.stage? a.key = none → refuses c s p .claim tag .badArgument) ∧
      ∀ (l : LineId) (x : Stage), a.line = l.val → keyOk → s.stage? a.key = some x →
        ((s.line l).state ≠ .idle → refuses c s p .claim tag .lineHeld) ∧
        ((s.line l).state = .idle → x.status ≠ .ready → refuses c s p .claim tag .stageNotReady) ∧
        ((s.line l).state = .idle → x.status = .ready → s.grout.batches = [] → refuses c s p .claim tag .noGrout) ∧
        ((s.line l).state = .idle → x.status = .ready → s.grout.batches ≠ [] → s.grout.aged = true →
          refuses c s p .claim tag .groutAged) ∧
        ((s.line l).state = .idle → x.status = .ready → s.grout.batches ≠ [] → s.grout.aged = false →
          x.fields.startClass < s.grout.tankClass → ∃ u,
          exec c s = .next (answering p .claim tag .mixTooThick .header u) ∧
          u.stage? a.key = some { x with waiting := true } ∧ sameOtherStages a.key s u ∧
          (∀ m, u.line m = s.line m) ∧ u.store.writes = s.store.writes ∧
          u.grout.mixOrder = lowestClass u.orderInputs))

/-- A claim that passes every check is granted in one step: the grant with its timers, the line in OPENING with its valve
commanded OPEN, the stage ACTIVE and no longer waiting, the classes from the start class or a lower tank class (R11, R30,
R52, R103, R131). The model's own: the pulses since the latest sample event are kept (log entry 26); the class that the
grant sets raises the max class of a resumed stage (log entry 41). -/
def Obligations.ClaimIsGranted : Prop :=
  ∀ (s : State) (p : Port) (tag : Byte) (a : ClaimArgs) (l : LineId) (x : Stage), pumpReady s p →
    s.stop.upliftStop = false → s.stop.estop = false → s.exercise = 0 → s.portGrant p = none →
    1 ≤ a.key.hole → a.key.hole ≤ 9999 → 1 ≤ a.key.stage → a.key.stage ≤ 20 →
    a.line = l.val → s.stage? a.key = some x → (s.line l).state = .idle → x.status = .ready →
    s.grout.batches ≠ [] → s.grout.aged = false → s.grout.tankClass ≤ x.fields.startClass → ∃ u,
      let cls := min x.fields.startClass s.grout.tankClass
      let y : Stage := { x with
        status := .active, waiting := false
        progress := x.progress.map (fun g => { g with maxClass := if g.maxClass < cls then cls else g.maxClass }) }
      let accept : Timer := ⟨s.settings.acceptWindow, 0⟩
      let keepalive : Timer := ⟨s.settings.keepalive, 0⟩
      exec (.claim p tag (.args a)) s = .next (answering p .claim tag .ok
        (.claim ⟨l, a.key, .opening, .none, cls, s.settings.acceptWindow, s.settings.keepalive⟩) u) ∧
      u.line l = { s.line l with
        state := .opening, stage := some a.key, command := .opened,
        travel := some ⟨.opened, s.settings.travelTime, 0⟩, causes := [], holdTimer := none,
        grant := some ⟨p, .live, false, some accept, some keepalive, none, none⟩,
        classes := some ⟨cls, cls, 0, 0, none⟩, transit := [], mixLag := false, values := none,
        decision := some ⟨0, 0, 0, 0⟩, recordTimer := none, window := [], ring := [] } ∧
      sameOtherLines l s u ∧ u.portGrant p = some l ∧ (u.port p).cut = none ∧
      u.stage? a.key = some y ∧ sameOtherStages a.key s u ∧ u.store.writes = begun s (.stage y.stored) ∧
      u.grout.mixOrder = lowestClass u.orderInputs

/-- START under a LIVE grant, by the line state: in ARMED it takes the line to INJECTING or HOLDING, ends the accept
window and creates the stage's progress or sets its last line; in HOLDING it removes PUMP and returns to INJECTING when
nothing is left; in INJECTING it changes nothing (R21, R41, R54). Without a grant it is refused NO_GRANT (R50). -/
def Obligations.StartByTheLineState : Prop :=
  (∀ (s : State) (p : Port) (tag : Byte) (l : LineId) (g : Grant), pumpReady s p → holdsGrant s p l g →
    let c : Instr := .start p tag (.args ())
    let x := (heard p s).line l
    let left := x.causes.filter (fun d => d ≠ .pump)
    let directive : Directive := if left = [] then .run else .hold
    (x.state ∉ [.armed, .injecting, .holding] → refuses c s p .start tag .wrongState) ∧
    (x.state = .injecting → g.phase = .live →
      exec c s = .next (answering p .start tag .ok (.directive .run) (heard p s))) ∧
    (x.state = .holding → g.phase = .live → ∃ u,
      exec c s = .next (answering p .start tag .ok (.directive directive) u) ∧ sameOtherLines l (heard p s) u ∧
      u.store = s.store ∧
      u.line l = if left = [] then { x with state := .injecting, causes := [], holdTimer := none, ring := [] }
        else { x with causes := left }) ∧
    (∀ k z, x.state = .armed → g.phase = .live → x.stage = some k → s.stage? k = some z → ∃ u,
      let y : Line := { x with grant := some { g with
        startTaken := true, accept := none, keepalive := g.keepalive.map (fun w => { w with elapsed := 0 }) } }
      exec c s = .next (answering p .start tag .ok (.directive directive) u) ∧ sameOtherLines l (heard p s) u ∧
      (left = [] → u.line l = { y with state := .injecting, causes := [], holdTimer := none, ring := [] }) ∧
      (left ≠ [] → u.line l = { y with
        state := .holding, causes := left, holdTimer := some 0,
        decision := x.decision.map (fun d => { d with refusal := 0, intensity := 0 }) }) ∧
      sameOtherStages k s u ∧
      (∀ r, z.progress = some r → u.stage? k = some { z with progress := some { r with lastLine := l } }) ∧
      (z.progress = none → u.stage? k = some { z with
        startTime := some s.clock.site,
        progress := some ⟨0, 0, x.effectiveClass, 0, 0, 0, 0, 0, s.clock.site, l⟩ }))) ∧
  (∀ (s : State) (p : Port) (tag : Byte), pumpReady s p → s.portGrant p = none →
    refuses (.start p tag (.args ())) s p .start tag .noGrant ∧
    refuses (.pause p tag (.args ())) s p .pause tag .noGrant)

/-- PAUSE under a LIVE grant: PUMP joins the cause set in ARMED, INJECTING and HOLDING, an INJECTING line goes to HOLDING
with its hold timer started, and the answer carries the directive after it; in OPENING and CLOSING it is refused
WRONG_STATE; repeated, it changes nothing (R55). -/
def Obligations.PauseAddsThePumpCause : Prop :=
  ∀ (s : State) (p : Port) (tag : Byte) (l : LineId) (g : Grant), pumpReady s p → holdsGrant s p l g →
    let c : Instr := .pause p tag (.args ())
    let x := (heard p s).line l
    (x.state ∉ [.armed, .injecting, .holding] → refuses c s p .pause tag .wrongState) ∧
    (x.state ∈ [.armed, .injecting, .holding] → (x.state = .injecting → x.causes = []) → g.phase = .live → ∃ u,
      exec c s = .next (answering p .pause tag .ok (.directive (if x.state = .armed then .none else .hold)) u) ∧
      sameOtherLines l (heard p s) u ∧ u.store = s.store ∧ u.line l = x.held .pump ∧
      (∀ d, d ∈ (u.line l).causes ↔ d = .pump ∨ d ∈ x.causes) ∧
      (x.state = .armed → (u.line l).state = .armed) ∧
      (x.state = .injecting → (u.line l).state = .holding ∧ (u.line l).holdTimer = some 0) ∧
      (x.state = .holding → (u.line l).state = .holding ∧ (u.line l).holdTimer = x.holdTimer) ∧
      (.pump ∈ x.causes → u.line l = x))

/-- PUMP_STATUS records the pump's report and answers the directive, the latest values of a line in ARMED, INJECTING or
HOLDING, the stage's V and the cause set; a cut notice is answered once with END (R56, R57, R65). That V is 0 for
a stage no longer in the table is the model's reading (log entry 39). That the flag is NONE with values 0 for an INJECTING or
HOLDING line that has not been evaluated since it entered ARMED is the model's choice (log entry 53). -/
def Obligations.PumpStatusReportsAndAnswers : Prop :=
  ∀ (s : State) (p : Port) (tag : Byte) (a : PumpStatusArgs), pumpReady s p →
    let c : Instr := .pumpStatus p tag (.args a)
    let inRange : Prop := a.running ≤ 1 ∧ a.stroke ≤ 250
    let volume (k : StageKey) : Nat := (((s.stage? k).bind Stage.progress).map Progress.v).getD 0
    (∀ l g, holdsGrant s p l g →
      let x := s.line l
      let key := x.stage.getD ⟨0, 0⟩
      let shown : Option Computed := if x.state ∈ [.armed, .injecting, .holding] then x.values else none
      let value (f : Computed → Nat) : Nat := (shown.map f).getD 0
      let directive : Directive :=
        if g.phase = .ending then .quit else if x.state = .injecting then .run
        else if x.state = .holding then .hold else .none
      (¬ inRange → refuses c s p .pumpStatus tag .badArgument) ∧
      (inRange → exec c s = .next (answering p .pumpStatus tag .ok
        (.pump ⟨l, key, x.state, directive, if g.phase = .ending then g.endReason else none,
          (match shown with | none => .none | some v => if v.stale = true then .stale else .fresh),
          value Computed.cg, value Computed.ce, value Computed.pe, value Computed.q, volume key, x.causes,
          (x.classes.map Classes.effective).getD 0⟩)
        ((heard p s).updLine l (fun y => { y with grant := y.grant.map (fun h =>
          { h with report := some ⟨a.running == 1, a.stroke, s.clock.site⟩ }) }))))) ∧
    (s.portGrant p = none → (s.port p).cut = none → refuses c s p .pumpStatus tag .noGrant) ∧
    (∀ n, s.portGrant p = none → (s.port p).cut = some n →
      (¬ inRange → refuses c s p .pumpStatus tag .badArgument) ∧
      (inRange → exec c s = .next (answering p .pumpStatus tag .ok
        (.pump ⟨n.line, n.key, (s.line n.line).state, .quit, some n.reason, .none, 0, 0, 0, 0, volume n.key, [], 0⟩)
        ((heard p s).updPort p (fun y => { y with cut := none })))))

/-- RELEASE of a LIVE grant closes its line with reason RELEASED, its stage READY before START and SUSPENDED after it; of
an ENDING grant it changes nothing, and is refused NO_GRANT after KEEPALIVE_LOST; without a grant it removes the cut
notice and is refused NO_GRANT (R12, R14, R61, R65). -/
def Obligations.ReleaseEndsTheGrant : Prop :=
  ∀ (s : State) (p : Port) (tag : Byte), pumpReady s p →
    let c : Instr := .release p tag (.args ())
    (∀ l g, holdsGrant s p l g →
      (g.phase = .live → ∃ u, exec c s = .next (answering p .release tag .ok (.directive .quit) u) ∧
        sameOtherLines l (heard p s) u ∧ u.line l = ((heard p s).line l).closed .released s.settings.travelTime ∧
        u.grout.mixOrder = lowestClass u.orderInputs ∧
        ∀ k x, (s.line l).stage = some k → s.stage? k = some x → sameOtherStages k s u ∧
          (x.status = .active → g.startTaken = false → u.stage? k = some { x with status := .ready } ∧
            u.store.writes = begun s (.stage ({ x with status := .ready } : Stage).stored)) ∧
          (x.status = .active → g.startTaken = true → u.stage? k = some (x.suspendedBy .releasedEarly) ∧
            u.store.writes = begun s (.stage (x.suspendedBy .releasedEarly).stored)) ∧
          (x.status ≠ .active → u.stage? k = some x)) ∧
      (g.phase = .ending → g.endReason ≠ some .keepaliveLost →
        exec c s = .next (answering p .release tag .ok (.directive .quit) (heard p s))) ∧
      (g.phase = .ending → g.endReason = some .keepaliveLost → refuses c s p .release tag .noGrant)) ∧
    (s.portGrant p = none → exec c s = .next (answering p .release tag .noGrant .header
      ((heard p s).updPort p (fun y => { y with cut := none }))))

/-! ### The line sample event -/

/-- The conversions of the current inputs (R70) and the moves of a channel's validity, value, reference and counter at a
good and at a bad sample (R73 to R75, R79). That a count above the loss count falls to it is the model's choice (log entry
49). -/
def Obligations.SamplesConvertAndChannelsMove : Prop :=
  (∀ span i : Nat, convertSpan span i =
    if i < 3600 ∨ 21000 < i then none
    else if i < 4000 then some 0
    else if 20000 < i then some (span : Int) else some (((i - 4000) * span / 16000 : Nat) : Int)) ∧
  (∀ i : Nat, convertUplift i =
    if i < 3600 ∨ 21000 < i then none
    else if i < 4000 then some (-2000)
    else if 20000 < i then some 2000
    else if i < 12000 then some (-(((12000 - i) / 4 : Nat) : Int)) else some (((i - 12000) / 4 : Nat) : Int)) ∧
  (∀ (top n : Nat) (band : Option Nat) (c : Channel),
    let y := c.sample top n band none
    y.channel.value = c.value ∧ y.channel.noValue = c.noValue ∧ y.channel.counter.count = satSucc top c.counter.count ∧
    y.channel.bad = min n (c.bad + 1) ∧ y.regain = false ∧
    (c.validity = .valid → y.channel.validity = .suspect) ∧
    (c.validity = .suspect → y.channel.validity = if n ≤ c.bad + 1 then .lost else .suspect) ∧
    (c.validity ∈ [.lost, .regain1, .regain2] → y.channel.validity = .lost ∧ y.channel.ref = none) ∧
    (y.loss = true ↔ c.validity = .suspect ∧ n ≤ c.bad + 1)) ∧
  (∀ (top n : Nat) (band : Option Nat) (v : Int) (c : Channel),
    let y := c.sample top n band (some v)
    let near : Prop := ∀ b r, band = some b → c.ref = some r → v - r ≤ b ∧ r - v ≤ b
    y.channel.bad = 0 ∧ y.channel.counter = c.counter ∧ y.loss = false ∧ y.saturated = false ∧
    (c.validity ∈ [.valid, .suspect, .regain2] → y.channel.validity = .valid ∧ y.channel.value = v ∧
      y.channel.noValue = false ∧ y.channel.ref = none) ∧
    (c.validity ∈ [.lost, .regain1] → y.channel.value = c.value ∧ y.channel.noValue = c.noValue) ∧
    (c.validity = .lost → y.channel.validity = .regain1 ∧ y.channel.ref = some v) ∧
    (c.validity = .regain1 → near → y.channel.validity = .regain2) ∧
    (c.validity = .regain1 → ¬ near → y.channel.validity = .regain1 ∧ y.channel.ref = some v) ∧
    (y.regain = true ↔ c.validity = .regain2))

/-- A line sample event of a present line takes both samples, the window and the readback, and enters a loss of either
channel in the fault history; of a line that is not present nothing is taken (R32, R68, R69, R71, R77). A loss that begins on a
line in ARMED, INJECTING or HOLDING adds SENSOR, and a regain removes it from a line in ARMED or HOLDING when neither
channel is left in a loss (R40, R78). That the
event of a line that is not present changes nothing is the model's choice (log entry 6). -/
def Obligations.LineSampleMeasuresAndHoldsBySensor : Prop :=
  (∀ (s : State) (l : LineId) (i : Nat) (m o c : Bool), (s.line l).settings.present = false →
    exec (.lineSampleEvent l i m o c) s = .next s) ∧
  (∀ (s : State) (l : LineId) (i : Nat) (m o c : Bool), (s.line l).settings.present = true → ∃ t,
    let x := s.line l
    let y := t.line l
    let window := (x.window ++ [x.pulses]).drop (x.window.length + 1 - 16)
    let q := min 9999 (3 * window.sum * x.settings.weight / 20)
    exec (.lineSampleEvent l i m o c) s = .next t ∧
    y.readback = (if o = true then (if c = true then .invalid else .opened)
      else (if c = true then .closed else .travel)) ∧
    y.settings = x.settings ∧ y.inForce = x.settings ∧ y.window = window ∧ y.pulses = 0 ∧ y.lastQ = q ∧
    y.pressure = (x.pressure.sample s.counterTop s.settings.lossCount (some (x.settings.range * 2 / 100))
      (convertSpan x.settings.range i)).channel ∧
    y.flow = (x.flow.sample s.counterTop s.settings.lossCount none (if m = true then none else some (q : Int))).channel ∧
    let entered (code : FaultCode) (detail : Nat) : Prop := code ∈ t.record.latched ∧
      ∃ e ∈ t.record.faults, e.code = code ∧ e.detail = .value detail ∧ e.location = some (.line l) ∧
        e.time = s.clock.site ∧
        e.consequence = if x.state ∈ [.armed, .injecting, .holding] then .hold else .record
    (x.pressure.validity = .suspect → y.pressure.validity = .lost → entered .pressureLost i) ∧
    (x.flow.validity = .suspect → y.flow.validity = .lost → entered .flowLost 0) ∧
    (∀ n, n ≠ l → (t.line n).meterPart = (s.line n).meterPart ∧ (t.line n).settingsPart = (s.line n).settingsPart)) ∧
  (∀ (s : State) (l : LineId) (i : Nat) (m : Bool) (k : StageKey) (z : Stage) (d : DecisionRecord),
     evaluating s l k z d → ∃ t,
     let x := s.line l
     let y := t.line l
     let lost (a b : Channel) : Prop := a.validity = .suspect ∧ b.validity = .lost
     let back (a b : Channel) : Prop := a.validity = .regain2 ∧ b.validity = .valid
     let inLoss (a : Channel) : Prop := a.validity ∈ [.lost, .regain1, .regain2]
     exec (.lineSampleEvent l i m true false) s = .next t ∧
     (lost x.pressure y.pressure ∨ lost x.flow y.flow → .sensor ∈ y.causes ∧
       (x.state = .injecting → .sensor ∉ x.causes → y.state = .holding ∧ y.holdTimer = some 0) ∧
       (x.state ≠ .injecting → y.state = x.state)) ∧
     (back x.pressure y.pressure ∨ back x.flow y.flow → ¬ inLoss y.pressure → ¬ inLoss y.flow →
       x.state ∈ [.armed, .holding] → .sensor ∉ y.causes ∧ y.state = x.state) ∧
     (inLoss y.pressure ∨ inLoss y.flow → .sensor ∈ x.causes → .sensor ∈ y.causes))

/-- The moves a readback confirms: OPENING to ARMED with the standing causes, without an evaluation (R30, R87, R158);
CLOSING to IDLE with everything of the grant and stage absent (R31, R46, R63, R144); and a travel still on its way, which
changes neither (R33). -/
def Obligations.ReadbackConfirmsTheValve : Prop :=
  ∀ (s : State) (l : LineId) (i : Nat) (m : Bool), (s.line l).settings.present = true →
    let x := s.line l
    let towards (pos : ValvePos) : Prop :=
      x.command = pos ∧ ∀ w, x.travel = some w → w.target = pos
    (x.state = .opening → towards .opened → ∃ t, exec (.lineSampleEvent l i m true false) s = .next t ∧
      let y := t.line l
      y.state = .armed ∧ y.travel = none ∧ y.recordTimer = some 0 ∧ y.values = x.values ∧ y.stage = x.stage ∧
      y.grant = x.grant ∧ y.classes = x.classes ∧
      (∀ d, d ∈ y.causes ↔ d = .console ∧ s.holdAll = true ∨
        d = .sensor ∧ (y.pressure.inLoss = true ∨ y.flow.inLoss = true) ∨ d = .aged ∧ s.grout.aged = true) ∧
      t.grout.mixOrder = lowestClass t.orderInputs ∧ sameOtherLines l s t ∧ t.store.stages = s.store.stages) ∧
    (x.state = .closing → towards .closed → ∃ t, exec (.lineSampleEvent l i m false true) s = .next t ∧
      let y := t.line l
      y.state = .idle ∧ y.travel = none ∧ y.stage = none ∧ y.grant = none ∧ y.values = none ∧ y.classes = none ∧
      y.transit = [] ∧ y.startCheck = false ∧ sameOtherLines l s t ∧ t.store.stages = s.store.stages ∧
      (s.stop.startCheck = true → (∀ n, n ≠ l → (s.line n).startCheck = false) →
        t.stop = { s.stop with startCheck := false, checkDone := true })) ∧
    (∀ (o c : Bool) (w : Travel), x.state ∈ [.opening, .closing] → x.travel = some w → w.elapsed < w.allowed →
      (o = true → c = true → x.invalid < 2) → (w.target = .opened → o = true → c = true) →
      (w.target = .closed → c = true → o = true) → ∃ t, exec (.lineSampleEvent l i m o c) s = .next t ∧
      let y := t.line l
      y.state = x.state ∧ y.command = x.command ∧ y.travel = x.travel ∧ y.stage = x.stage ∧ y.grant = x.grant ∧
      sameOtherLines l s t ∧ t.store.stages = s.store.stages)

/-- The valve faults: when each is decided (R34 to R36), and what it does to the line, its grant, its stage, the fault
history and, where it is a trigger, to the part (R37, R38, R46, R48, R64, R148). An ISOLATED line raises none (R33). -/
def Obligations.ValveFaultIsolatesTheLine : Prop :=
  ∀ (s : State) (l : LineId) (i : Nat) (m o c : Bool), (s.line l).settings.present = true →
    let x := s.line l
    let rb : Readback := if o = true then (if c = true then .invalid else .opened)
      else (if c = true then .closed else .travel)
    let arrived (pos : ValvePos) : Prop := pos = .opened ∧ rb = .opened ∨ pos = .closed ∧ rb = .closed
    let both : Prop := rb = .invalid ∧ 2 ≤ x.invalid
    let late (pos : ValvePos) : Prop := ∃ w, x.travel = some w ∧ w.target = pos ∧ w.allowed ≤ w.elapsed ∧ ¬ arrived pos
    (x.state = .isolated → ∃ t, exec (.lineSampleEvent l i m o c) s = .next t ∧
      (t.line l).state = .isolated ∧ (t.line l).isolation = x.isolation ∧ (t.line l).command = x.command ∧
      sameOtherLines l s t ∧ ∀ f : ValveFault, f.faultCode ∈ t.record.latched → f.faultCode ∈ s.record.latched) ∧
    (∀ f : ValveFault, x.state ≠ .isolated →
      (both ∧ f = .bothSwitches ∨ ¬ both ∧ late .opened ∧ f = .noOpen ∨ ¬ both ∧ late .closed ∧ f = .noClose ∨
        x.travel = none ∧ rb ≠ .invalid ∧ ¬ arrived x.command ∧ f = .uncommanded) → ∃ t,
      let y := t.line l
      let trigger : Prop := s.stop.lockdown = false ∧
        ((s.stop.upliftStop = true ∨ s.stop.estop = true) ∧ (f = .noClose ∨ f = .uncommanded) ∨
          f = .noClose ∧ rb = .opened ∧ x.startCheck = true)
      exec (.lineSampleEvent l i m o c) s = .next t ∧
      y.state = .isolated ∧ y.isolation = some (.fault f) ∧ y.command = .closed ∧ y.stage = none ∧ y.grant = none ∧
      y.causes = [] ∧ y.holdTimer = none ∧ y.watch = none ∧ y.values = none ∧ y.classes = none ∧ y.transit = [] ∧
      y.startCheck = false ∧ (f = .bothSwitches → y.invalid = 0) ∧
      f.faultCode ∈ t.record.latched ∧
      (∀ st, (trigger → st = .lockdown) → (¬ trigger → x.state ∈ [.armed, .injecting, .holding] → st = .suspend) →
        (¬ trigger → x.state ∉ [.armed, .injecting, .holding] → st = .isolate) →
        ∃ e ∈ t.record.faults, e.code = f.faultCode ∧ e.detail = .readback rb ∧ e.location = some (.line l) ∧
          e.consequence = st) ∧
      (∀ g, x.grant = some g → (∀ n, n ≠ l → (s.line n).owner ≠ some g.owner) →
        (t.port g.owner).cut = some ⟨l, x.stage.getD ⟨0, 0⟩,
          if g.phase = .live then .valveFault else g.endReason.getD .valveFault⟩) ∧
      (∀ k z, x.stage = some k → s.stage? k = some z → z.status = .active →
        (x.state = .opening → t.stage? k = some { z with status := .ready }) ∧
        (x.state ∈ [.armed, .injecting, .holding] → t.stage? k = some (z.suspendedBy .valveFault)) ∧
        (x.state = .closing → ¬ trigger → t.stage? k = some z)) ∧
      (¬ trigger → sameOtherLines l s t ∧ t.stop.lockdown = s.stop.lockdown) ∧
      (trigger → t.stop.lockdown = true ∧ t.stop.upliftStop = s.stop.upliftStop ∧ t.stop.estop = s.stop.estop ∧
        t.holdAll = s.holdAll ∧ t.exercise = 0 ∧ t.permitClosed = false ∧ .lockdown ∈ t.record.latched ∧
        (∀ n, n ≠ l → t.line n =
          if (s.line n).state.live = true then
            { (s.line n).closed .lockdown s.settings.travelTime with grant := none }
          else if (s.line n).state = .closing then { s.line n with grant := none } else s.line n) ∧
        (∀ n k z, n ≠ l → (s.line n).carried = some k → x.carried ≠ some k → s.stage? k = some z →
          z.status = .active → t.stage? k = some (z.suspendedBy .lockdown))))

/-! ### The evaluation, the stage ends and the hazards -/

/-- One evaluation: its values by the formulas of the envelope, the history ring and max p_e, unless it ends the stage
(R86 to R100). The formulas are written out in `envelope`. That a line in HOLDING is not ended, after a PAUSE taken first
too, is the model's reading of R66 and R104 (log entry 43). -/
def Obligations.EvaluationFormsTheEnvelope : Prop :=
  ∀ (s : State) (l : LineId) (i : Nat) (m : Bool) (k : StageKey) (z : Stage) (d : DecisionRecord),
    evaluating s l k z d → 1 ≤ z.fields.tRef → ∃ t,
    let x := s.line l
    let y := t.line l
    let e := envelope s.stop.warn s.settings.derate x.settings z ((x.classes.map Classes.effective).getD 0) y.pressure
      y.flow
    let ring := if x.pressure.validity = .regain2 ∨ x.flow.validity = .regain2 then [] else x.ring
    let ring' := ring ++ [(e.pe, e.q)]
    exec (.lineSampleEvent l i m true false) s = .next t ∧
    (e.stale = true ∨ x.state ≠ .injecting ∨ endDecided z.fields e d = none →
      y.state.evaluated = true ∧ y.values = some e ∧ y.stage = some k ∧ y.grant = x.grant ∧
      (e.stale = true → y.ring = [] ∧ t.stage? k = some z) ∧
      (e.stale = false → y.ring = ring'.drop (ring'.length - 5))) ∧
    (e.stale = false → z.status = .active → ∀ g, z.progress = some g → ∃ z' g', t.stage? k = some z' ∧
      z'.progress = some g' ∧ g'.maxPe = max g.maxPe e.pe ∧ g'.v = g.v ∧ g'.injecting = g.injecting)

/-- A fresh evaluation of an INJECTING line that decides an end: the stage COMPLETE with its summary, the grant ENDING, the
line CLOSING (R104, R106 to R110, R102). The stage table stands in key order (R1), as `State.tablesOk` says. -/
def Obligations.EndConditionEndsTheStage : Prop :=
  ∀ (s : State) (l : LineId) (i : Nat) (m : Bool) (k : StageKey) (z : Stage) (d : DecisionRecord),
    evaluating s l k z d → 1 ≤ z.fields.tRef → (s.line l).state = .injecting → inKeyOrder s.store.stages → ∃ t,
    let x := s.line l
    let y := t.line l
    let e := envelope s.stop.warn s.settings.derate x.settings z ((x.classes.map Classes.effective).getD 0) y.pressure
      y.flow
    exec (.lineSampleEvent l i m true false) s = .next t ∧
    (∀ cause reason, e.stale = false → endDecided z.fields e d = some (cause, reason) →
      y.state = .closing ∧ y.command = .closed ∧ y.travel = some ⟨.closed, s.settings.travelTime, 0⟩ ∧ y.causes = [] ∧
      y.values = none ∧ y.decision = none ∧ y.ring = [] ∧ y.recordTimer = none ∧ y.stage = some k ∧
      y.classes = x.classes ∧
      y.grant = x.grant.map (fun g =>
        { g with phase := .ending, accept := none, keepalive := none, endReason := some reason }) ∧
      (∃ z', t.stage? k = some z' ∧ z'.fields = z.fields ∧ z'.status = .complete ∧ z'.endCause = some cause ∧
        z'.endTime = some s.clock.site ∧ z'.decision = ⟨false, false⟩ ∧ z'.waiting = false) ∧
      (∃ u, t.record.completions = s.record.completions.filter (fun n => n.key ≠ k) ++ [u] ∧ u.key = k ∧ u.endCause = cause ∧
        u.endTime = s.clock.site ∧ u.finalCe = e.ce ∧ u.finalJ = e.j ∧ u.volume = e.vUsed ∧ u.v = e.v) ∧
      (∀ j w, j ≠ k → s.stage? j = some w →
        let freed : Prop := w.status = .blocked ∧ k ∈ w.fields.prereqs ∧
          ∀ q ∈ w.fields.prereqs, q = k ∨ ∃ v, s.stage? q = some v ∧ v.status = .complete
        (freed → t.stage? j = some { w with status := .ready }) ∧ (¬ freed → t.stage? j = some w)) ∧
      t.grout.mixOrder = lowestClass t.orderInputs ∧ sameOtherLines l s t)

/-- The decision counts of an evaluation that ends nothing: the intensity and refusal counts in INJECTING (R107, R108), the
overpressure counts in INJECTING and HOLDING (R111, R112), all zero after a stale one (R105). -/
def Obligations.EvaluationCountsTowardsEndsAndOverpressure : Prop :=
  ∀ (s : State) (l : LineId) (i : Nat) (m : Bool) (k : StageKey) (z : Stage) (d : DecisionRecord),
    evaluating s l k z d → 1 ≤ z.fields.tRef → ∃ t,
    let x := s.line l
    let y := t.line l
    let e := envelope s.stop.warn s.settings.derate x.settings z ((x.classes.map Classes.effective).getD 0) y.pressure
      y.flow
    exec (.lineSampleEvent l i m true false) s = .next t ∧
    (e.stale = true → y.decision = some ⟨0, 0, 0, 0⟩ ∧ (.overpressure ∈ y.causes ↔ .overpressure ∈ x.causes) ∧
      (.fracture ∈ y.causes ↔ .fracture ∈ x.causes)) ∧
    (e.stale = false → x.state = .armed → y.decision = some d ∧ y.state = .armed) ∧
    (e.stale = false → x.state = .injecting → endDecided z.fields e d = none → y.state = .injecting → ∃ d',
      y.decision = some d' ∧
      d'.intensity = (if z.fields.jMax ≤ e.j then d.intensity + 1 else 0) ∧
      d'.refusal = (if e.q ≤ z.fields.qRef ∧ e.refusalThreshold ≤ e.pe then d.refusal + 1 else 0)) ∧
    (e.stale = false → x.state ∈ [.injecting, .holding] →
      (x.state = .injecting → endDecided z.fields e d = none) → .overpressure ∉ x.causes →
      (e.overpressureLimit < e.pe → 1 ≤ d.raise → y.state = .holding ∧ .overpressure ∈ y.causes ∧
        (x.state = .injecting → y.holdTimer = some 0) ∧
        (∃ d', y.decision = some d' ∧ d'.raise = 0 ∧ d'.clear = 0) ∧
        (∀ g, z.status = .active → z.progress = some g → ∃ z' g', t.stage? k = some z' ∧ z'.progress = some g' ∧
          g'.overpressure = satSucc s.counterTop g.overpressure)) ∧
      (e.pe ≤ e.overpressureLimit ∨ d.raise = 0 → .overpressure ∉ y.causes ∧
        ∃ d', y.decision = some d' ∧ d'.raise = if e.overpressureLimit < e.pe then d.raise + 1 else 0)) ∧
    (e.stale = false → x.state = .holding → .overpressure ∈ x.causes → y.state = .holding ∧
      (e.pe ≤ e.ce → 3 ≤ d.clear → .overpressure ∉ y.causes ∧ ∃ d', y.decision = some d' ∧ d'.clear = 0) ∧
      (e.ce < e.pe ∨ d.clear < 3 → .overpressure ∈ y.causes ∧
        ∃ d', y.decision = some d' ∧ d'.clear = if e.pe ≤ e.ce then d.clear + 1 else 0))

/-- The fracture check of a fresh evaluation of an INJECTING line that ends nothing: with five entries in the ring, its
four tests hold the line, add the pending decision and keep the stage ACTIVE; otherwise nothing (R113, R114, R15). -/
def Obligations.FractureHoldsTheLine : Prop :=
  ∀ (s : State) (l : LineId) (i : Nat) (m : Bool) (k : StageKey) (z : Stage) (d : DecisionRecord),
    evaluating s l k z d → 1 ≤ z.fields.tRef → (s.line l).state = .injecting → (s.line l).causes = [] →
    (s.line l).pressure.validity ≠ .regain2 → (s.line l).flow.validity ≠ .regain2 → ∃ t,
    let x := s.line l
    let y := t.line l
    let e := envelope s.stop.warn s.settings.derate x.settings z ((x.classes.map Classes.effective).getD 0) y.pressure
      y.flow
    let ring := (x.ring ++ [(e.pe, e.q)]).drop (x.ring.length + 1 - 5)
    let suspected : Prop := ring.length = 5 ∧ ∃ old, ring[0]? = some old ∧ e.ce * 20 / 100 ≤ old.1 ∧
      e.pe + old.1 * z.fields.fractureDrop / 100 ≤ old.1 ∧ old.2 + old.2 * z.fields.fractureRise / 100 ≤ e.q ∧
      old.2 + 10 ≤ e.q
    exec (.lineSampleEvent l i m true false) s = .next t ∧
    (e.stale = false → endDecided z.fields e d = none →
      (suspected → y.state = .holding ∧ y.holdTimer = some 0 ∧ .fracture ∈ y.causes ∧
        (z.status = .active → ∃ z', t.stage? k = some z' ∧ z'.status = .active ∧
          z'.decision = { z.decision with fracture := true })) ∧
      (¬ suspected → .fracture ∉ y.causes ∧ ∃ z', t.stage? k = some z' ∧ z'.decision = z.decision))

/-- The connection watch of a line in WATCH: its settling, its baseline, the rise and re-arm counts (R115, R116), and the
event that its fourth rise makes: its candidates, what happens to each by its policy, and its record (R117 to R119). -/
def Obligations.WatchFindsConnections : Prop :=
  ∀ (s : State) (l : LineId) (i : Nat) (m : Bool) (w : Watch),
    let x := s.line l
    x.settings.present = true → x.state = .watch → x.command = .closed → x.travel = none → x.watch = some w → ∃ t,
    let y := t.line l
    let pg := y.pressure.value.toNat
    let threshold := x.settings.watch
    exec (.lineSampleEvent l i m false true) s = .next t ∧ y.state = .watch ∧
    (y.pressure.validity ≠ .valid → y.watch = some { w with rise := 0, rearm := 0 } ∧ t.connections = s.connections) ∧
    (y.pressure.validity = .valid → x.pressure.validity = .regain2 → t.connections = s.connections ∧
      y.watch = some { w with baseline := none, settle := 1, armed := true, rise := 0, rearm := 0 }) ∧
    (y.pressure.validity = .valid → x.pressure.validity ≠ .regain2 → w.baseline = none →
      t.connections = s.connections ∧
      y.watch = some { w with settle := w.settle + 1, baseline := if w.settle = 7 then some pg else none }) ∧
    (∀ b, y.pressure.validity = .valid → x.pressure.validity ≠ .regain2 → w.baseline = some b →
      let event : Prop := w.armed = true ∧ b + threshold ≤ pg ∧ 3 ≤ w.rise
      (w.armed = true → ¬ event → y.watch = some { w with rise := if b + threshold ≤ pg then w.rise + 1 else 0 }) ∧
      (w.armed = false → y.watch = some (
        if pg < b + threshold / 2 then
          (if 3 ≤ w.rearm then { w with armed := true, rearm := 0 } else { w with rearm := w.rearm + 1 })
        else { w with rearm := 0 })) ∧
      (¬ event → t.connections = s.connections ∧ sameOtherLines l s t ∧ t.store.stages = s.store.stages) ∧
      (event → y.watch = some { w with armed := false, rise := 0, rearm := 0 } ∧
        let neighbour (n : LineId) : Prop := (s.line n).state ∈ [.injecting, .holding] ∧
          ∃ z, (s.line n).stage.bind s.stage? = some z ∧ w.hole ∈ z.fields.neighbours
        let attributed : Prop := ∃ n, neighbour n
        let candidate (n : LineId) (z : Stage) : Prop := (s.line n).stage.bind s.stage? = some z ∧
          (neighbour n ∨ ¬ attributed ∧ (s.line n).state = .injecting)
        (∃ r : ConnectionRecord, t.connections.records =
            (s.connections.records ++ [r]).drop (s.connections.records.length + 1 - 32) ∧
          r.number = s.connections.nextNumber ∧ r.time = s.clock.site ∧ r.line = l ∧ r.hole = w.hole ∧
          r.stage = w.stage ∧ r.baseline = b ∧ r.rise = (pg : Int) - b ∧ (r.attributed = true ↔ attributed) ∧
          (r.candidates.map Prod.fst).Pairwise (· < ·) ∧
          (∀ n j, (n, j) ∈ r.candidates ↔ ∃ z, candidate n z ∧ z.fields.key = j)) ∧
        t.connections.nextNumber =
          (if s.connections.nextNumber < 65535 then s.connections.nextNumber + 1 else 1) ∧
        (∀ n z, candidate n z → z.fields.policy = .hold → t.line n = (s.line n).held .connection) ∧
        (∀ n z, candidate n z → z.fields.policy = .note → t.line n = s.line n) ∧
        (∀ n, n ≠ l → (∀ z, ¬ candidate n z) → t.line n = s.line n) ∧
        (∀ n z g, candidate n z → (∀ n', (s.line n').stage = (s.line n).stage → n' = n) → z.status = .active →
          z.progress = some g → t.stage? z.fields.key = some { z with
            progress := some { g with connection := satSucc s.counterTop g.connection },
            decision := if z.fields.policy = .hold then { z.decision with connection := true } else z.decision })))

/-- The thickening step: the demanded class rises by one, at most to 6, when a thickening step of volume has passed
without the pressure rise, the thickening record follows the evaluation, and a mix order that is the lowest of its inputs
stays so, formed again whenever the demanded class changes (R130, R133). That a stale evaluation drops the pending volume of a line that its SENSOR cause has
held is the model's choice (log entry 51). -/
def Obligations.ThickeningFollowsTheEvaluation : Prop :=
  ∀ (s : State) (l : LineId) (i : Nat) (m : Bool) (k : StageKey) (z : Stage) (d : DecisionRecord) (c : Classes),
    evaluating s l k z d → 1 ≤ z.fields.tRef → (s.line l).state = .injecting → (s.line l).classes = some c → ∃ t,
    let x := s.line l
    let y := t.line l
    let e := envelope s.stop.warn s.settings.derate x.settings z c.effective y.pressure y.flow
    let count := c.thickening + c.pendingVolume
    exec (.lineSampleEvent l i m true false) s = .next t ∧
    (e.stale = true → y.classes = some { c with pendingVolume := 0 }) ∧
    (e.stale = false → y.state ≠ .injecting → y.classes = some c) ∧
    (e.stale = false → y.state = .injecting →
      (c.effective ≠ c.demanded → y.classes = some { c with pendingVolume := 0 }) ∧
      (c.effective = c.demanded → c.pRef = none →
        y.classes = some { c with thickening := count, pendingVolume := 0, pRef := some e.pe }) ∧
      (∀ p, c.effective = c.demanded → c.pRef = some p →
        y.classes = some (
          if p + z.fields.riseThreshold ≤ e.pe then { c with thickening := 0, pendingVolume := 0, pRef := some e.pe }
          else if z.fields.thickStep * 1000 ≤ count then
            { c with demanded := if c.demanded < 6 then c.demanded + 1 else 6, thickening := 0, pendingVolume := 0,
                     pRef := some e.pe }
          else { c with thickening := count, pendingVolume := 0 })) ∧
      (s.grout.mixOrder = lowestClass s.orderInputs → t.grout.mixOrder = lowestClass t.orderInputs))

/-! ### Flow pulses, gauges, stops and timers -/

/-- A flow pulse: metered or not by its channel's state, added to V or to the unmetered count, taken from the oldest
batches and from the transit queue when the valve is commanded OPEN (R72, R92, R125 to R127, R132, R133, R135, R136). The
model's own: the order in which one pulse does its work (log entry 12); a transit entry that the pulse itself causes keeps
its whole volume (log entry 44); a pulse of a line that is not present changes nothing (log entry 6). -/
def Obligations.FlowPulseMetersTheGrout : Prop :=
  (∀ (s : State) (l : LineId), (s.line l).settings.present = false → exec (.flowPulse l) s = .next s) ∧
  (∀ (s : State) (l : LineId), (s.line l).settings.present = true → (s.line l).flow.validity ≠ .valid → ∃ t,
    exec (.flowPulse l) s = .next t ∧ t.line l = { s.line l with pulses := (s.line l).pulses + 1 } ∧
    sameOtherLines l s t ∧ t.grout = s.grout ∧
    (∀ k z g, (s.line l).carried = some k → s.stage? k = some z → z.status = .active → z.progress = some g →
      t.stage? k = some { z with progress := some { g with unmetered := satSucc s.counterTop g.unmetered } })) ∧
  (∀ (s : State) (l : LineId), (s.line l).settings.present = true → (s.line l).flow.validity = .valid → ∃ t,
    let x := s.line l
    let y := t.line l
    let w := x.inForce.weight
    let held := (s.grout.batches.map Batch.remaining).sum
    let sameClass : Prop := t.grout.tankClass = s.grout.tankClass ∨ t.grout.tankClass = 0
    exec (.flowPulse l) s = .next t ∧ y.pulses = x.pulses + 1 ∧
    (∀ k z g, x.carried = some k → s.stage? k = some z → z.status = .active → z.progress = some g → ∃ z' g',
      t.stage? k = some z' ∧ z'.progress = some g' ∧ z'.status = .active ∧ g'.unmetered = g.unmetered ∧
      g'.v = if g.v + w ≤ 4000000000 then g.v + w else 4000000000) ∧
    (x.command = .closed → t.grout = s.grout ∧ y.transit = x.transit ∧ sameOtherLines l s t) ∧
    (x.command = .opened →
      (t.grout.batches.map Batch.remaining).sum = held - w ∧
      t.grout.unaccounted =
        (if held < w then min 4000000000 (s.grout.unaccounted + (w - held)) else s.grout.unaccounted) ∧
      (t.grout.noGrout = true ↔ s.grout.noGrout = true ∨ held < w) ∧
      (∀ b bs, s.grout.batches = b :: bs → w < b.remaining →
        t.grout.batches = { b with remaining := b.remaining - w } :: bs) ∧
      (∀ b b' bs, s.grout.batches = b :: b' :: bs → b.remaining ≤ w → w < b.remaining + b'.remaining →
        t.grout.batches = { b' with remaining := b.remaining + b'.remaining - w } :: bs) ∧
      t.grout.mixOrder = s.grout.mixOrder ∧
      (∀ n, n ≠ l → (t.line n).transit =
        if (s.line n).state.live = true ∧ ¬ sameClass then
          (if (s.line n).transit.length < 3 then (s.line n).transit else (s.line n).transit.drop 1) ++
            [⟨t.grout.tankClass, (s.line n).inForce.hose * 1000⟩]
        else (s.line n).transit) ∧
      (sameClass → x.transit = [] → y.transit = [] ∧ ∀ c, x.classes = some c → y.classes = some (
        if x.state = .injecting ∧ c.effective = c.demanded then { c with pendingVolume := c.pendingVolume + w }
        else c)) ∧
      (∀ e es c, sameClass → x.transit = e :: es → x.classes = some c → ∃ c', y.classes = some c' ∧
        c'.demanded = c.demanded ∧
        (w < e.remaining → y.transit = { e with remaining := e.remaining - w } :: es ∧ c'.effective = c.effective) ∧
        (e.remaining ≤ w → c'.effective = e.cls ∧
          (e.cls ≠ c.effective → c'.thickening = 0 ∧ c'.pendingVolume = 0 ∧ c'.pRef = none) ∧
          y.transit.map Transit.cls = es.map Transit.cls ∧
          (∀ f fs, es = f :: fs → y.transit = { f with remaining := f.remaining - (w - e.remaining) } :: fs))) ∧
      (x.state.live = true → ¬ sameClass →
        let drained : List Transit := match x.transit with
          | [] => []
          | e :: es =>
            if w < e.remaining then { e with remaining := e.remaining - w } :: es
            else match es with
              | [] => []
              | f :: fs => { f with remaining := f.remaining - (w - e.remaining) } :: fs
        y.transit = (if drained.length < 3 then drained else drained.drop 1) ++
          [⟨t.grout.tankClass, x.inForce.hose * 1000⟩])))

/-- A gauge sample: the channel, the stop count and the warning state of a judged gauge, UPLIFT_WARN and its degraded flag,
and the latching of UPLIFT_STOP, which holds or closes every line and opens the permit relay (R139 to R141, R145, R166,
R62). The model's own: a sample of a gauge that is not enabled changes nothing (log entry 6); the degraded flag counts the
gauges as they stand now (log entry 15). -/
def Obligations.GaugeSampleJudgesAndLatches : Prop :=
  (∀ (s : State) (g : GaugeId) (i : Nat), s.enabled g = false → exec (.gaugeSampleEvent g i) s = .next s) ∧
  (∀ (s : State) (g : GaugeId) (i : Nat), s.enabled g = true → ∃ t,
    let x := s.gauge g
    let y := t.gauge g
    let c := (x.channel.sample s.counterTop s.settings.lossCount (some 80) (convertUplift i)).channel
    exec (.gaugeSampleEvent g i) s = .next t ∧ y.channel = c ∧ y.baseline = x.baseline ∧
    (∀ h, h ≠ g → t.gauge h = s.gauge h) ∧
    (x.channel.validity = .suspect → c.validity = .lost → .upliftGaugeLost ∈ t.record.latched) ∧
    (c.validity ≠ .valid ∨ x.baseline = none →
      y = { x with channel := c, warnCount := 0, clearCount := 0, stopCount := 0, judged := false } ∧
      t.stop.upliftStop = s.stop.upliftStop ∧ ∀ l, t.line l = s.line l) ∧
    (∀ b, c.validity = .valid → x.baseline = some b →
      let u := c.value - b
      let warnAt : Int := s.settings.warnThreshold
      let above : Prop := (s.settings.stopThreshold : Int) ≤ u
      let latches : Prop := above ∧ 1 ≤ x.stopCount ∧ s.stop.upliftStop = false
      y.judged = true ∧ y.u = u ∧ y.stopCount = (if above then min 2 (x.stopCount + 1) else 0) ∧
      (x.warning = false → y.clearCount = x.clearCount ∧
        y.warning = decide (warnAt ≤ u ∧ 3 ≤ x.warnCount) ∧
        y.warnCount = if warnAt ≤ u ∧ x.warnCount < 3 then x.warnCount + 1 else 0) ∧
      (x.warning = true → y.warnCount = x.warnCount ∧
        y.warning = !decide (u < warnAt - s.settings.hysteresis ∧ 7 ≤ x.clearCount) ∧
        y.clearCount = if u < warnAt - s.settings.hysteresis ∧ x.clearCount < 7 then x.clearCount + 1 else 0) ∧
      (t.stop.upliftStop = true ↔ s.stop.upliftStop = true ∨ latches) ∧
      (latches → t.exercise = 0 ∧ t.permitClosed = false ∧ .upliftStop ∈ t.record.latched ∧
        (∀ l, t.line l = (s.line l).stoppedBy .uplift .upliftStop s.settings.travelTime) ∧
        (∀ k z, s.stage? k = some z → t.stage? k = some (
          if z.status = .active ∧ ∃ l, (s.line l).state = .opening ∧ (s.line l).stage = some k then
            { z with status := .ready } else z))) ∧
      (¬ latches → t.exercise = s.exercise ∧ ∀ l, t.line l = s.line l)) ∧
    (t.stop.degraded = true ↔
      (gaugeIds.filter (fun h => s.enabled h && (t.gauge h).channel.isValid && (t.gauge h).baseline.isSome)).length < 2) ∧
    (t.stop.warn = true ↔ t.stop.degraded = true ∨ ∃ h, s.enabled h = true ∧
      ((t.gauge h).warning = true ∨ (t.gauge h).channel.validity ∈ [.lost, .regain1, .regain2])))

/-- A sample of the emergency-stop contact: its counts, the entry into ESTOP at the second open sample, which holds or closes
every line and opens the permit relay, and the end at the eighth closed one (R143, R145, R166, R62). -/
def Obligations.EstopContactStopsThePart : Prop :=
  ∀ (s : State) (isOpen : Bool), ∃ t,
    let begins : Prop := isOpen = true ∧ 1 ≤ s.stop.openCount ∧ s.stop.estop = false
    let ends : Prop := isOpen = false ∧ 7 ≤ s.stop.closedCount ∧ s.stop.estop = true
    let counted : StopUnit :=
      { s.stop with openCount := if isOpen = true then min 2 (s.stop.openCount + 1) else 0,
                    closedCount := if isOpen = true then 0 else min 8 (s.stop.closedCount + 1) }
    exec (.estopSample isOpen) s = .next t ∧
    (begins → t.stop = { counted with estop := true } ∧ t.exercise = 0 ∧ t.permitClosed = false ∧
      .estop ∈ t.record.latched ∧
      (∀ l, t.line l = (s.line l).stoppedBy .estop .estop s.settings.travelTime) ∧
      (∀ k z, s.stage? k = some z → t.stage? k = some (
        if z.status = .active ∧ ∃ l, (s.line l).state = .opening ∧ (s.line l).stage = some k then
          { z with status := .ready } else z))) ∧
    (ends → t.stop = { counted with estop := false } ∧ (∀ l, t.line l = (s.line l).freed .estop) ∧
      t.record.faults = s.record.faults) ∧
    (¬ begins → ¬ ends → t = { s with stop := counted })

/-- The timers of a line and its grant: the hold limit, which suspends the stage (R42); the accept window and the
keepalive, which end the grant (R58, R60); the travel time allowed (R34). The model's choices: VALVE_TRAVEL_TIME_ELAPSED
raises the seconds elapsed in a travel to the time allowed where they are below it, and changes nothing else (log entry 7);
HOLD_TIMEOUT, ACCEPT_WINDOW_EXPIRY and KEEPALIVE_EXPIRY change nothing where their timer does not stand or its length has
not elapsed in the clock's seconds (log entries 7 and 8). -/
def Obligations.TimersEndHoldsAndGrants : Prop :=
  (∀ (s : State) (l : LineId), exec (.valveTravelTimeElapsed l) s = .next (s.updLine l (fun x =>
    { x with travel := x.travel.map (fun w => { w with elapsed := max w.allowed w.elapsed }) }))) ∧
  (∀ (s : State) (l : LineId),
    let x := s.line l
    let due : Prop := x.state = .holding ∧ ∃ n, x.holdTimer = some n ∧ s.settings.holdLimit * 60 ≤ n
    (¬ due → exec (.holdTimeout l) s = .next s) ∧
    (due → ∃ t, exec (.holdTimeout l) s = .next t ∧ t.line l = x.closed .holdTimeout s.settings.travelTime ∧
      sameOtherLines l s t ∧ .holdTimeout ∈ t.record.latched ∧ t.grout.mixOrder = lowestClass t.orderInputs ∧
      ∀ k z, x.stage = some k → s.stage? k = some z → z.status = .active →
        t.stage? k = some (z.suspendedBy .holdTimeout) ∧ sameOtherStages k s t)) ∧
  (∀ (s : State) (l : LineId),
    let x := s.line l
    let due : Prop := x.state ∈ [.opening, .armed] ∧ ∃ g w, x.grant = some g ∧ g.phase = .live ∧
      g.accept = some w ∧ w.length ≤ w.elapsed
    (¬ due → exec (.acceptWindowExpiry l) s = .next s) ∧
    (due → ∃ t, exec (.acceptWindowExpiry l) s = .next t ∧ t.line l = x.closed .acceptExpired s.settings.travelTime ∧
      sameOtherLines l s t ∧ t.record = s.record ∧ t.grout.mixOrder = lowestClass t.orderInputs ∧
      ∀ k z, x.stage = some k → s.stage? k = some z → z.status = .active →
        t.stage? k = some { z with status := .ready } ∧ sameOtherStages k s t)) ∧
  (∀ (s : State) (l : LineId),
    let x := s.line l
    let due (g : Grant) : Prop := x.grant = some g ∧ g.phase = .live ∧
      ∃ w, g.keepalive = some w ∧ w.length ≤ w.elapsed
    ((∀ g, ¬ due g) → exec (.keepaliveExpiry l) s = .next s) ∧
    (∀ g, due g → ∃ t,
      exec (.keepaliveExpiry l) s = .next t ∧ t.line l = x.closed .keepaliveLost s.settings.travelTime ∧
      sameOtherLines l s t ∧ .keepaliveLost ∈ t.record.latched ∧ t.grout.mixOrder = lowestClass t.orderInputs ∧
      (∃ e ∈ t.record.faults, e.code = .keepaliveLost ∧ e.detail = .port g.owner ∧ e.location = some (.line l) ∧
        e.consequence = if g.startTaken = true then .suspend else .record) ∧
      ∀ k z, x.stage = some k → s.stage? k = some z → z.status = .active →
        t.stage? k = some (if g.startTaken = true then z.suspendedBy .keepaliveLost else { z with status := .ready }) ∧
        sameOtherStages k s t))

/-- A write to the non-volatile store completes, and the copy holds it, or fails, which latches STORE_FAULT and enters its
fault (R23, R24). That writes complete in the order begun, and that a failure drops those pending, is the model's choice
(log entry 9), and so is that either event changes nothing when no write stands begun (log entry 6),
and that one write removes a stage and its summary (log entry 47). -/
def Obligations.StoreWritesCompleteOrFail : Prop :=
  (∀ s : State, s.store.writes = [] → exec .storeWriteCompleted s = .next s ∧ exec .storeWriteFailed s = .next s) ∧
  (∀ (s : State) (w : StoreWrite) (rest : List StoreWrite), s.store.writes = w :: rest →
    (∃ nv : NvCopy,
      let n := s.store.nv
      exec .storeWriteCompleted s = .next { s with store := { s.store with writes := rest, nv := nv } } ∧
      (∀ x, w = .stage x → lookupStage x.key nv.stages = some x ∧ nv = { n with stages := nv.stages } ∧
        ∀ j, j ≠ x.key → lookupStage j nv.stages = lookupStage j n.stages) ∧
      (∀ k, w = .stageRemoved k → nv = { n with
        stages := n.stages.filter (fun x => x.key ≠ k)
        completions := n.completions.filter (fun y => y.key ≠ k) }) ∧
      (∀ l c, w = .line l c → nv = { n with lines := nv.lines } ∧ nv.lines.get l = some c ∧
        ∀ m, m ≠ l → nv.lines.get m = n.lines.get m) ∧
      (∀ c, w = .part c → nv = { n with part := some c }) ∧
      (∀ m, w = .summary m →
        nv = { n with completions := n.completions.filter (fun y => y.key ≠ m.key) ++ [m] }) ∧
      (∀ e, w = .fault e → nv = { n with
        faults := (n.faults ++ [e]).drop (n.faults.length + 1 - 16),
        nextFault := if e.number < 65535 then e.number + 1 else 1 }) ∧
      (∀ c0 c1, w = .readers c0 c1 → nv = { n with readerC0 := c0, readerC1 := c1 })) ∧
    (∃ t, exec .storeWriteFailed s = .next t ∧ t.store = { s.store with writes := [], fault := true } ∧
      .storeWrite ∈ t.record.latched ∧ t.live .storeWrite = true ∧
      (∃ e ∈ t.record.faults, e.code = .storeWrite ∧ e.consequence = .record ∧
        ∀ x, w = .stage x → e.location = some (.stage x.key))))

/-! ### Invariants -/

/-- Every step keeps the tables that `State.tablesOk` names in order and within their bounds: the stage table (64) and its
copy as the writes begun complete, the completion list, the batches (8), the alert queues (16), the fault history (16), the
connection log (32), the record queue (256) with its readers, and each line's flow window (16), history ring (5) and transit
queue (3) (R1, R71, R81, R119, R121, R135, R155, R159, R161, R162). What it says of the copy rests on two of the model's
choices: the writes complete in the order begun, and a failure drops those pending (log entry 9); one write removes a stage
and its summary (log entry 47). -/
def Obligations.EveryStepKeepsTheTables : Prop :=
  ∀ s t : State, s.tablesOk → step s = .next t → t.tablesOk

/-- Every step keeps the stops in force; where they are in force, no line is INJECTING and the permit relay is open while
UPLIFT_STOP is latched, ESTOP is active or the part is in LOCKDOWN (R145). -/
def Obligations.NoInjectionDuringAStop : Prop :=
  (∀ s t : State, s.stopsHold → step s = .next t → t.stopsHold) ∧
  (∀ s : State, s.stopsHold → s.stop.upliftStop = true ∨ s.stop.estop = true ∨ s.stop.lockdown = true →
    s.permitClosed = false ∧ ∀ l, (s.line l).state ≠ .injecting)

/-- Every step keeps each valve commanded OPEN exactly under a LIVE grant, and each port the owner of one line at most. -/
def Obligations.ValvesOpenOnlyUnderALiveGrant : Prop :=
  ∀ s t : State, s.grantsOk → step s = .next t → t.grantsOk

/-- Where the grants are in order, every step keeps each ACTIVE stage carried by one line, and each line in OPENING, ARMED,
INJECTING or HOLDING carrying an ACTIVE stage. -/
def Obligations.ActiveStagesHaveOneCarrier : Prop :=
  ∀ s t : State, s.grantsOk → s.carriersOk → step s = .next t → t.carriersOk

/-- The invariants hold of the part after reset. -/
def Obligations.ResetMeetsTheInvariants : Prop :=
  State.reset.tablesOk ∧ State.reset.stopsHold ∧ State.reset.grantsOk ∧ State.reset.carriersOk
end

