-- ==== Sys2Proof/Laws/State.lean ====
section
/-! SUPPORT. One lemma per field per update: reading a line, gauge, port or block after one of the primitive updates. -/

namespace Sys2Proof.Machine

/-! ### Vectors -/

theorem Vector.get_set_self {α : Type} {n : Nat} (v : Vector α n) (i : Fin n) (x : α) :
    (v.set i.val x i.isLt).get i = x := by
  simp [Vector.get_eq_getElem]

theorem Vector.get_set_ne {α : Type} {n : Nat} (v : Vector α n) {i j : Fin n} (x : α) (h : j ≠ i) :
    (v.set i.val x i.isLt).get j = v.get j := by
  have : i.val ≠ j.val := fun e => h (Fin.ext e.symm)
  simp [Vector.get_eq_getElem, this]

theorem portIndex_injective {p q : Port} : portIndex p = portIndex q ↔ p = q := by
  cases p <;> cases q <;> decide

/-! ### setLine -/

@[simp] theorem line_setLine_self (s : State) (l : LineId) (x : Line) : (s.setLine l x).line l = x :=
  Vector.get_set_self _ _ _

theorem line_setLine_ne (s : State) {l m : LineId} (x : Line) (h : m ≠ l) : (s.setLine l x).line m = s.line m :=
  Vector.get_set_ne _ _ h

theorem line_setLine (s : State) (l m : LineId) (x : Line) :
    (s.setLine l x).line m = if m = l then x else s.line m := by
  split
  · rename_i h; subst h; exact line_setLine_self _ _ _
  · rename_i h; exact line_setLine_ne _ _ h

@[simp] theorem pending_setLine (s : State) (l x) : (s.setLine l x).pending = s.pending := rfl
@[simp] theorem store_setLine (s : State) (l x) : (s.setLine l x).store = s.store := rfl
@[simp] theorem holdAll_setLine (s : State) (l x) : (s.setLine l x).holdAll = s.holdAll := rfl
@[simp] theorem gauges_setLine (s : State) (l x) : (s.setLine l x).gauges = s.gauges := rfl
@[simp] theorem level_setLine (s : State) (l x) : (s.setLine l x).level = s.level := rfl
@[simp] theorem settings_setLine (s : State) (l x) : (s.setLine l x).settings = s.settings := rfl
@[simp] theorem grout_setLine (s : State) (l x) : (s.setLine l x).grout = s.grout := rfl
@[simp] theorem stop_setLine (s : State) (l x) : (s.setLine l x).stop = s.stop := rfl
@[simp] theorem ports_setLine (s : State) (l x) : (s.setLine l x).ports = s.ports := rfl
@[simp] theorem port_setLine (s : State) (l x) (p : Port) : (s.setLine l x).port p = s.port p := rfl
@[simp] theorem exercise_setLine (s : State) (l x) : (s.setLine l x).exercise = s.exercise := rfl
@[simp] theorem record_setLine (s : State) (l x) : (s.setLine l x).record = s.record := rfl
@[simp] theorem connections_setLine (s : State) (l x) : (s.setLine l x).connections = s.connections := rfl
@[simp] theorem clock_setLine (s : State) (l x) : (s.setLine l x).clock = s.clock := rfl
@[simp] theorem free_setLine (s : State) (l x) : (s.setLine l x).free = s.free := rfl

/-! ### updLine -/

theorem line_updLine (s : State) (l m : LineId) (f : Line → Line) :
    (s.updLine l f).line m = if m = l then f (s.line l) else s.line m := line_setLine _ _ _ _

@[simp] theorem line_updLine_self (s : State) (l : LineId) (f : Line → Line) :
    (s.updLine l f).line l = f (s.line l) := line_setLine_self _ _ _

@[simp] theorem pending_updLine (s : State) (l f) : (s.updLine l f).pending = s.pending := rfl
@[simp] theorem store_updLine (s : State) (l f) : (s.updLine l f).store = s.store := rfl
@[simp] theorem holdAll_updLine (s : State) (l f) : (s.updLine l f).holdAll = s.holdAll := rfl
@[simp] theorem gauges_updLine (s : State) (l f) : (s.updLine l f).gauges = s.gauges := rfl
@[simp] theorem level_updLine (s : State) (l f) : (s.updLine l f).level = s.level := rfl
@[simp] theorem settings_updLine (s : State) (l f) : (s.updLine l f).settings = s.settings := rfl
@[simp] theorem grout_updLine (s : State) (l f) : (s.updLine l f).grout = s.grout := rfl
@[simp] theorem stop_updLine (s : State) (l f) : (s.updLine l f).stop = s.stop := rfl
@[simp] theorem ports_updLine (s : State) (l f) : (s.updLine l f).ports = s.ports := rfl
@[simp] theorem port_updLine (s : State) (l f) (p : Port) : (s.updLine l f).port p = s.port p := rfl
@[simp] theorem exercise_updLine (s : State) (l f) : (s.updLine l f).exercise = s.exercise := rfl
@[simp] theorem record_updLine (s : State) (l f) : (s.updLine l f).record = s.record := rfl
@[simp] theorem connections_updLine (s : State) (l f) : (s.updLine l f).connections = s.connections := rfl
@[simp] theorem clock_updLine (s : State) (l f) : (s.updLine l f).clock = s.clock := rfl
@[simp] theorem free_updLine (s : State) (l f) : (s.updLine l f).free = s.free := rfl

/-! ### setPort -/

@[simp] theorem port_setPort_self (s : State) (p : Port) (x : PortRecord) : (s.setPort p x).port p = x :=
  Vector.get_set_self _ _ _

theorem port_setPort (s : State) (p q : Port) (x : PortRecord) :
    (s.setPort p x).port q = if q = p then x else s.port q := by
  split
  · rename_i h; subst h; exact port_setPort_self _ _ _
  · rename_i h; exact Vector.get_set_ne _ _ (fun e => h (portIndex_injective.mp e))

@[simp] theorem pending_setPort (s : State) (p x) : (s.setPort p x).pending = s.pending := rfl
@[simp] theorem store_setPort (s : State) (p x) : (s.setPort p x).store = s.store := rfl
@[simp] theorem lines_setPort (s : State) (p x) : (s.setPort p x).lines = s.lines := rfl
@[simp] theorem line_setPort (s : State) (p x) (l : LineId) : (s.setPort p x).line l = s.line l := rfl
@[simp] theorem holdAll_setPort (s : State) (p x) : (s.setPort p x).holdAll = s.holdAll := rfl
@[simp] theorem gauges_setPort (s : State) (p x) : (s.setPort p x).gauges = s.gauges := rfl
@[simp] theorem level_setPort (s : State) (p x) : (s.setPort p x).level = s.level := rfl
@[simp] theorem settings_setPort (s : State) (p x) : (s.setPort p x).settings = s.settings := rfl
@[simp] theorem grout_setPort (s : State) (p x) : (s.setPort p x).grout = s.grout := rfl
@[simp] theorem stop_setPort (s : State) (p x) : (s.setPort p x).stop = s.stop := rfl
@[simp] theorem exercise_setPort (s : State) (p x) : (s.setPort p x).exercise = s.exercise := rfl
@[simp] theorem record_setPort (s : State) (p x) : (s.setPort p x).record = s.record := rfl
@[simp] theorem connections_setPort (s : State) (p x) : (s.setPort p x).connections = s.connections := rfl
@[simp] theorem clock_setPort (s : State) (p x) : (s.setPort p x).clock = s.clock := rfl
@[simp] theorem free_setPort (s : State) (p x) : (s.setPort p x).free = s.free := rfl

/-! ### updPort -/

theorem port_updPort (s : State) (p q : Port) (f : PortRecord → PortRecord) :
    (s.updPort p f).port q = if q = p then f (s.port p) else s.port q := port_setPort _ _ _ _

@[simp] theorem port_updPort_self (s : State) (p : Port) (f : PortRecord → PortRecord) :
    (s.updPort p f).port p = f (s.port p) := port_setPort_self _ _ _

@[simp] theorem pending_updPort (s : State) (p f) : (s.updPort p f).pending = s.pending := rfl
@[simp] theorem store_updPort (s : State) (p f) : (s.updPort p f).store = s.store := rfl
@[simp] theorem lines_updPort (s : State) (p f) : (s.updPort p f).lines = s.lines := rfl
@[simp] theorem line_updPort (s : State) (p f) (l : LineId) : (s.updPort p f).line l = s.line l := rfl
@[simp] theorem holdAll_updPort (s : State) (p f) : (s.updPort p f).holdAll = s.holdAll := rfl
@[simp] theorem gauges_updPort (s : State) (p f) : (s.updPort p f).gauges = s.gauges := rfl
@[simp] theorem level_updPort (s : State) (p f) : (s.updPort p f).level = s.level := rfl
@[simp] theorem settings_updPort (s : State) (p f) : (s.updPort p f).settings = s.settings := rfl
@[simp] theorem grout_updPort (s : State) (p f) : (s.updPort p f).grout = s.grout := rfl
@[simp] theorem stop_updPort (s : State) (p f) : (s.updPort p f).stop = s.stop := rfl
@[simp] theorem exercise_updPort (s : State) (p f) : (s.updPort p f).exercise = s.exercise := rfl
@[simp] theorem record_updPort (s : State) (p f) : (s.updPort p f).record = s.record := rfl
@[simp] theorem connections_updPort (s : State) (p f) : (s.updPort p f).connections = s.connections := rfl
@[simp] theorem clock_updPort (s : State) (p f) : (s.updPort p f).clock = s.clock := rfl
@[simp] theorem free_updPort (s : State) (p f) : (s.updPort p f).free = s.free := rfl

/-! ### setGauge and updGauge -/

theorem gauge_setGauge (s : State) (g h : GaugeId) (x : Gauge) :
    (s.setGauge g x).gauge h = if h = g then x else s.gauge h := by
  split
  · rename_i e; subst e; exact Vector.get_set_self _ _ _
  · rename_i e; exact Vector.get_set_ne _ _ e

theorem gauge_updGauge (s : State) (g h : GaugeId) (f : Gauge → Gauge) :
    (s.updGauge g f).gauge h = if h = g then f (s.gauge g) else s.gauge h := gauge_setGauge _ _ _ _

@[simp] theorem line_setGauge (s : State) (g x) (l : LineId) : (s.setGauge g x).line l = s.line l := rfl
@[simp] theorem port_setGauge (s : State) (g x) (p : Port) : (s.setGauge g x).port p = s.port p := rfl
@[simp] theorem settings_setGauge (s : State) (g x) : (s.setGauge g x).settings = s.settings := rfl
@[simp] theorem stop_setGauge (s : State) (g x) : (s.setGauge g x).stop = s.stop := rfl
@[simp] theorem line_updGauge (s : State) (g f) (l : LineId) : (s.updGauge g f).line l = s.line l := rfl
@[simp] theorem port_updGauge (s : State) (g f) (p : Port) : (s.updGauge g f).port p = s.port p := rfl
@[simp] theorem settings_updGauge (s : State) (g f) : (s.updGauge g f).settings = s.settings := rfl
@[simp] theorem stop_updGauge (s : State) (g f) : (s.updGauge g f).stop = s.stop := rfl

/-! ### The stage table and the other blocks -/

@[simp] theorem stages_setStages (s : State) (x) : (s.setStages x).store.stages = x := rfl
@[simp] theorem writes_setStages (s : State) (x) : (s.setStages x).store.writes = s.store.writes := rfl
@[simp] theorem fault_setStages (s : State) (x) : (s.setStages x).store.fault = s.store.fault := rfl
@[simp] theorem nv_setStages (s : State) (x) : (s.setStages x).store.nv = s.store.nv := rfl
@[simp] theorem line_setStages (s : State) (x) (l : LineId) : (s.setStages x).line l = s.line l := rfl
@[simp] theorem port_setStages (s : State) (x) (p : Port) : (s.setStages x).port p = s.port p := rfl
@[simp] theorem stages_updStage (s : State) (k f) :
    (s.updStage k f).store.stages = mapStage k f s.store.stages := rfl
@[simp] theorem writes_updStage (s : State) (k f) : (s.updStage k f).store.writes = s.store.writes := rfl
@[simp] theorem fault_updStage (s : State) (k f) : (s.updStage k f).store.fault = s.store.fault := rfl
@[simp] theorem nv_updStage (s : State) (k f) : (s.updStage k f).store.nv = s.store.nv := rfl
@[simp] theorem line_updStage (s : State) (k f) (l : LineId) : (s.updStage k f).line l = s.line l := rfl
@[simp] theorem port_updStage (s : State) (k f) (p : Port) : (s.updStage k f).port p = s.port p := rfl
@[simp] theorem grout_updGrout (s : State) (f) : (s.updGrout f).grout = f s.grout := rfl
@[simp] theorem line_updGrout (s : State) (f) (l : LineId) : (s.updGrout f).line l = s.line l := rfl
@[simp] theorem port_updGrout (s : State) (f) (p : Port) : (s.updGrout f).port p = s.port p := rfl
@[simp] theorem stop_updStop (s : State) (f) : (s.updStop f).stop = f s.stop := rfl
@[simp] theorem line_updStop (s : State) (f) (l : LineId) : (s.updStop f).line l = s.line l := rfl
@[simp] theorem port_updStop (s : State) (f) (p : Port) : (s.updStop f).port p = s.port p := rfl
@[simp] theorem record_updRecord (s : State) (f) : (s.updRecord f).record = f s.record := rfl
@[simp] theorem line_updRecord (s : State) (f) (l : LineId) : (s.updRecord f).line l = s.line l := rfl
@[simp] theorem port_updRecord (s : State) (f) (p : Port) : (s.updRecord f).port p = s.port p := rfl

end Sys2Proof.Machine
end

