-- ==== Sys2Proof/Laws/Frames.lean ====
section
/-! SUPPORT. What each shared operation can change: one `_keeps` lemma per operation, over the parts of Safety.lean. -/

namespace Sys2Proof.Machine

/-! ### The relation -/

theorem keeps_refl (A : List Part) (s : State) : keeps A s s := by
  refine ⟨rfl, fun q _ => ?_⟩
  cases q <;> simp [Part.same, PortRecord.same]

theorem Part.same_trans {q : Part} {s t u : State} (h : q.same s t) (h' : q.same t u) : q.same s u := by
  cases q <;> simp_all [Part.same, PortRecord.same]

/-- A change within `B` after changes within `A`, where `A` takes in `B`. -/
theorem keeps.step {A B : List Part} {s t u : State} (h : keeps A s t) (h' : keeps B t u) (hB : B ⊆ A) :
    keeps A s u :=
  ⟨h'.1.trans h.1, fun q hq => Part.same_trans (h.2 q hq) (h'.2 q (fun hb => hq (hB hb)))⟩

theorem keeps.mono {A B : List Part} {s t : State} (h : keeps B s t) (hB : B ⊆ A) : keeps A s t :=
  (keeps_refl A s).step h hB

/-- The last of several changes: what is left to show concerns the state before it. -/
theorem keeps.after {A B : List Part} {s t u : State} (h' : keeps B t u) (hB : B ⊆ A) (h : keeps A s t) :
    keeps A s u := h.step h' hB

theorem foldl_keeps {α : Type} {A : List Part} (f : State → α → State) (xs : List α) (s : State)
    (h : ∀ s x, keeps A s (f s x)) : keeps A s (xs.foldl f s) := by
  induction xs generalizing s with
  | nil => exact keeps_refl A s
  | cons x xs ih => exact (h s x).step (ih (f s x)) (List.Subset.refl A)

theorem forLines_keeps {A : List Part} (f : LineId → State → State) (s : State) (h : ∀ l s, keeps A s (f l s)) :
    keeps A s (forLines f s) :=
  foldl_keeps _ _ _ (fun s l => h l s)

/-! ### Primitive updates -/

theorem updLine_keeps (l : LineId) (f : Line → Line) (s : State)
    (hs : ∀ x, (f x).settingsPart = x.settingsPart) (hm : ∀ x, (f x).meterPart = x.meterPart) :
    keeps [.lines] s (s.updLine l f) := by
  refine ⟨rfl, fun q hq => ?_⟩
  cases q <;> simp_all [Part.same, PortRecord.same, line_updLine] <;> intro m <;> split <;> simp_all

theorem updLine_keeps_meters (l : LineId) (f : Line → Line) (s : State)
    (hs : ∀ x, (f x).settingsPart = x.settingsPart) : keeps [.lines, .meters] s (s.updLine l f) := by
  refine ⟨rfl, fun q hq => ?_⟩
  cases q <;> simp_all [Part.same, PortRecord.same, line_updLine]
  intro m
  split <;> simp_all

theorem updLine_keeps_all (l : LineId) (f : Line → Line) (s : State) :
    keeps [.lines, .meters, .lineSettings] s (s.updLine l f) := by
  refine ⟨rfl, fun q hq => ?_⟩
  cases q <;> simp_all [Part.same, PortRecord.same]

theorem updLine_keeps_records (l : LineId) (f : Line → Line) (s : State)
    (hs : ∀ x, (f x).settingsPart = x.settingsPart) (hr : ∀ x, (f x).recordPart = x.recordPart) :
    keeps [.meters] s (s.updLine l f) := by
  refine ⟨rfl, fun q hq => ?_⟩
  cases q <;> simp_all [Part.same, PortRecord.same, line_updLine] <;> intro m <;> split <;> simp_all

theorem setLine_keeps (l : LineId) (x : Line) (s : State) (hs : x.settingsPart = (s.line l).settingsPart)
    (hm : x.meterPart = (s.line l).meterPart) : keeps [.lines] s (s.setLine l x) := by
  refine ⟨rfl, fun q hq => ?_⟩
  cases q <;> simp_all [Part.same, PortRecord.same, line_setLine] <;> intro m <;> split <;> simp_all

theorem setLine_keeps_all (l : LineId) (x : Line) (s : State) :
    keeps [.lines, .meters, .lineSettings] s (s.setLine l x) := by
  refine ⟨rfl, fun q hq => ?_⟩
  cases q <;> simp_all [Part.same, PortRecord.same]

theorem updGauge_keeps (g : GaugeId) (f : Gauge → Gauge) (s : State) : keeps [.gauges] s (s.updGauge g f) := by
  refine ⟨rfl, fun q hq => ?_⟩
  cases q <;> first | (exfalso; apply hq; decide) | (intro _; exact rfl) | (repeat' first | exact rfl | apply And.intro)

theorem setGauge_keeps (g : GaugeId) (x : Gauge) (s : State) : keeps [.gauges] s (s.setGauge g x) :=
  updGauge_keeps g (fun _ => x) s

theorem setStages_keeps (x : List Stage) (s : State) : keeps [.stages] s (s.setStages x) := by
  refine ⟨rfl, fun q hq => ?_⟩
  cases q <;> first | (exfalso; apply hq; decide) | (intro _; exact rfl) | (repeat' first | exact rfl | apply And.intro)

theorem updStage_keeps (k : StageKey) (f : Stage → Stage) (s : State) : keeps [.stages] s (s.updStage k f) :=
  setStages_keeps _ s

/-- A port's record replaced by one that agrees in the parts outside `A`. -/
theorem setPort_keeps {A : List Part} (p : Port) (x : PortRecord) (s : State)
    (hq : .queues ∈ A ∨ x.queuePart = (s.port p).queuePart) (hl : .links ∈ A ∨ x.linkPart = (s.port p).linkPart)
    (hc : .portCounters ∈ A ∨ x.counterPart = (s.port p).counterPart) (hm : .masks ∈ A ∨ x.mask = (s.port p).mask)
    (hn : .cuts ∈ A ∨ x.cut = (s.port p).cut) : keeps A s (s.setPort p x) := by
  refine ⟨rfl, fun q hA => ?_⟩
  cases q <;> simp_all [Part.same, PortRecord.same, port_setPort] <;> intro r <;> split <;> simp_all

theorem updPort_keeps {A : List Part} (p : Port) (f : PortRecord → PortRecord) (s : State)
    (hq : .queues ∈ A ∨ (f (s.port p)).queuePart = (s.port p).queuePart)
    (hl : .links ∈ A ∨ (f (s.port p)).linkPart = (s.port p).linkPart)
    (hc : .portCounters ∈ A ∨ (f (s.port p)).counterPart = (s.port p).counterPart)
    (hm : .masks ∈ A ∨ (f (s.port p)).mask = (s.port p).mask)
    (hn : .cuts ∈ A ∨ (f (s.port p)).cut = (s.port p).cut) : keeps A s (s.updPort p f) :=
  setPort_keeps p _ s hq hl hc hm hn


/-! ### Alerts, faults and writes -/

theorem writeThrough_keeps (w : StoreWrite) (s : State) : keeps [.writes] s (writeThrough w s) := by
  unfold writeThrough
  split
  · exact keeps_refl _ _
  · refine ⟨rfl, fun q hq => ?_⟩
    cases q <;> first | (exfalso; apply hq; decide) | (intro _; exact rfl) | (repeat' first | exact rfl | apply And.intro)

theorem saveStage_keeps (k : StageKey) (s : State) : keeps [.writes] s (saveStage k s) := by
  unfold saveStage
  split
  · exact writeThrough_keeps _ _
  · exact keeps_refl _ _

theorem updFaults_keeps (f : Records → Records) (s : State) (h : ∀ r, (f r).records = r.records)
    (h1 : ∀ r, (f r).nextRecord = r.nextRecord) (h2 : ∀ r, (f r).readerC0 = r.readerC0)
    (h3 : ∀ r, (f r).readerC1 = r.readerC1) (h4 : ∀ r, (f r).completions = r.completions) :
    keeps [.faults] s (s.updRecord f) := by
  refine ⟨rfl, fun q hq => ?_⟩
  cases q <;> first | (exfalso; apply hq; decide) | exact ⟨h _, h1 _, h2 _, h3 _⟩ | exact h4 _ | (intro _; exact rfl) | (repeat' first | exact rfl | apply And.intro)

theorem updRecordQueue_keeps (f : Records → Records) (s : State) (h : ∀ r, (f r).completions = r.completions)
    (h1 : ∀ r, (f r).faults = r.faults) (h2 : ∀ r, (f r).nextFault = r.nextFault)
    (h3 : ∀ r, (f r).latched = r.latched) : keeps [.recordQueue] s (s.updRecord f) := by
  refine ⟨rfl, fun q hq => ?_⟩
  cases q <;> first | (exfalso; apply hq; decide) | exact ⟨h1 _, h2 _, h3 _⟩ | exact h _ | (intro _; exact rfl) | (repeat' first | exact rfl | apply And.intro)

theorem updCompletions_keeps (f : List Summary → List Summary) (s : State) :
    keeps [.completions] s (s.updRecord (fun r => { r with completions := f r.completions })) := by
  refine ⟨rfl, fun q hq => ?_⟩
  cases q <;> first | (exfalso; apply hq; decide) | (intro _; exact rfl) | (repeat' first | exact rfl | apply And.intro)

theorem enterFault_keeps (code : FaultCode) (d : FaultDetail) (l : Option FaultLocation) (c : Consequence)
    (s : State) : keeps [.faults, .writes] s (enterFault code d l c s) := by
  unfold enterFault
  dsimp only
  refine (writeThrough_keeps _ _).after (by decide) ?_
  exact (updFaults_keeps _ _ (by intro; rfl) (by intro; rfl) (by intro; rfl) (by intro; rfl) (by intro; rfl)).mono (by decide)

theorem countSlip_parts (top : Nat) (x : PortRecord) :
    (x.countSlip top).1.linkPart = x.linkPart ∧ (x.countSlip top).1.counterPart = x.counterPart ∧
    (x.countSlip top).1.mask = x.mask ∧ (x.countSlip top).1.cut = x.cut := ⟨rfl, rfl, rfl, rfl⟩

/-- An alert offered to a port changes its queue, slip flag and slip counter alone. -/
theorem offer_parts (top time : Nat) (a : Posting) (x : PortRecord) :
    (x.offer top time a).1.linkPart = x.linkPart ∧ (x.offer top time a).1.counterPart = x.counterPart ∧
    (x.offer top time a).1.mask = x.mask ∧ (x.offer top time a).1.cut = x.cut := by
  unfold PortRecord.offer
  split
  · exact ⟨rfl, rfl, rfl, rfl⟩
  split
  · exact ⟨rfl, rfl, rfl, rfl⟩
  split
  · exact ⟨rfl, rfl, rfl, rfl⟩
  split
  · exact ⟨rfl, rfl, rfl, rfl⟩
  · exact ⟨rfl, rfl, rfl, rfl⟩

theorem offerPort_keeps (a : Posting) (p : Port) (s : State) : keeps [.queues] s (s.offerPort a p).1 :=
  let h := offer_parts s.counterTop s.clock.site a (s.port p)
  setPort_keeps p _ s (.inl (by decide)) (.inr h.1) (.inr h.2.1) (.inr h.2.2.1) (.inr h.2.2.2)

theorem offerAll_keeps (a : Posting) (route : List Port) (s : State) : keeps [.queues] s (s.offerAll a route).1 := by
  have go : ∀ (ps : List Port) (acc : State × List Port), keeps [.queues] s acc.1 →
      keeps [.queues] s (ps.foldl (fun acc p =>
        let r := acc.1.offerPort a p
        (r.1, if r.2 then acc.2 ++ [p] else acc.2)) acc).1 := by
    intro ps
    induction ps with
    | nil => exact fun _ h => h
    | cons p ps ih => exact fun acc h => ih _ (h.step (offerPort_keeps a p acc.1) (List.Subset.refl _))
  exact go route _ (keeps_refl _ _)

/-- Posting an alert changes the alert queues alone. -/
theorem post_keeps (a : Posting) (route : List Port) (s : State) : keeps [.queues] s (post a route s) := by
  unfold post
  generalize 7 = fuel
  induction fuel generalizing a route s with
  | zero => exact keeps_refl _ _
  | succ n ih =>
    exact (offerAll_keeps a route s).step (foldl_keeps _ _ _ (fun s p => ih _ _ s)) (List.Subset.refl _)

theorem postPart_keeps (k : AlertKind) (d : Option Int) (s : State) : keeps [.queues] s (postPart k d s) :=
  post_keeps _ _ _

theorem postLine_keeps (l : LineId) (k : AlertKind) (d : Option Int) (s : State) :
    keeps [.queues] s (postLine l k d s) := post_keeps _ _ _

theorem postStage_keeps (l : Option LineId) (k : StageKey) (a : AlertKind) (d : Int) (s : State) :
    keeps [.queues] s (postStage l k a d s) := post_keeps _ _ _

theorem postSaturated_keeps (y : Bool) (d : Int) (s : State) : keeps [.queues] s (postSaturated y d s) := by
  unfold postSaturated
  split
  · exact post_keeps _ _ _
  · exact keeps_refl _ _

/-! ### Stages -/

theorem addProgress_keeps (l : LineId) (f : Progress → Progress) (s : State) :
    keeps [.stages] s (addProgress l f s) := by
  unfold addProgress
  split
  · exact updStage_keeps _ _ _
  · exact keeps_refl _ _

theorem returnToReady_keeps (k : StageKey) (s : State) : keeps [.stages, .writes] s (returnToReady k s) := by
  unfold returnToReady
  split
  · split
    · exact ((updStage_keeps _ _ _).mono (by decide)).step (saveStage_keeps _ _) (by decide)
    · exact keeps_refl _ _
  · exact keeps_refl _ _

theorem suspendStage_keeps (l : Option LineId) (k : StageKey) (c : EndCause) (s : State) :
    keeps [.stages, .writes, .queues] s (suspendStage l k c s) := by
  unfold suspendStage
  split
  · split
    · exact (((updStage_keeps _ _ _).mono (by decide)).step (saveStage_keeps _ _) (by decide)).step
        (postStage_keeps _ _ _ _ _) (by decide)
    · exact keeps_refl _ _
  · exact keeps_refl _ _

theorem addSummary_keeps (m : Summary) (s : State) : keeps [.completions, .writes] s (addSummary m s) :=
  ((updCompletions_keeps (putSummary m) s).mono (by decide)).step (writeThrough_keeps _ _) (by decide)

theorem examineBlocked_keeps (k : StageKey) (s : State) :
    keeps [.stages, .writes, .queues] s (examineBlocked k s) := by
  unfold examineBlocked
  split
  · split
    · exact (((updStage_keeps _ _ _).mono (by decide)).step (saveStage_keeps _ _) (by decide)).step
        (post_keeps _ _ _) (by decide)
    · exact keeps_refl _ _
  · exact keeps_refl _ _

theorem examineDependants_keeps (k : StageKey) (s : State) :
    keeps [.stages, .writes, .queues] s (examineDependants k s) :=
  foldl_keeps _ _ _ (fun s k => examineBlocked_keeps k s)

theorem finishStage_keeps (l : Option LineId) (k : StageKey) (st : StageStatus) (c : EndCause)
    (v : Option Computed) (s : State) :
    keeps [.stages, .writes, .completions, .queues] s (finishStage l k st c v s) := by
  unfold finishStage
  split
  · exact ((((updStage_keeps _ _ _).mono (by decide)).step (saveStage_keeps _ _) (by decide)).step
      (addSummary_keeps _ _) (by decide)).step (postStage_keeps _ _ _ _ _) (by decide)
  · exact keeps_refl _ _

theorem completeStage_keeps (l : Option LineId) (k : StageKey) (c : EndCause) (v : Option Computed) (s : State) :
    keeps [.stages, .writes, .completions, .queues] s (completeStage l k c v s) :=
  (finishStage_keeps l k .complete c v s).step (examineDependants_keeps _ _) (by decide)

/-! ### Lines -/

theorem setMixOrder_keeps (n : Nat) (s : State) :
    keeps [.mixOrder] s (s.updGrout (fun g => { g with mixOrder := n })) := by
  refine ⟨rfl, fun q hq => ?_⟩
  cases q <;> first | (exfalso; apply hq; decide) | (intro _; exact rfl) | (repeat' first | exact rfl | apply And.intro)

theorem formMixOrder_keeps (s : State) : keeps [.mixOrder, .queues] s (formMixOrder s) := by
  unfold formMixOrder
  dsimp only
  split
  · exact keeps_refl _ _
  · exact ((setMixOrder_keeps _ s).mono (by decide)).step (postPart_keeps _ _ _) (by decide)

theorem decideMixLag_keeps (l : LineId) (s : State) : keeps [.lines, .queues] s (decideMixLag l s) := by
  unfold decideMixLag
  dsimp only
  split
  · refine (postLine_keeps _ _ _ _).after (by decide) ?_
    exact (setLine_keeps l _ s (by rfl) (by rfl)).mono (by decide)
  · exact (setLine_keeps l _ s (by rfl) (by rfl)).mono (by decide)

theorem addCause_keeps (c : HoldCause) (l : LineId) (s : State) : keeps [.lines] s (addCause c l s) := by
  unfold addCause
  dsimp only
  split
  · exact keeps_refl _ _
  · split <;> first | exact keeps_refl _ _ | exact setLine_keeps l _ s (by rfl) (by rfl)

theorem removeCause_keeps (c : HoldCause) (l : LineId) (s : State) :
    keeps [.lines, .queues] s (removeCause c l s) := by
  unfold removeCause
  dsimp only
  split
  · split
    · exact (setLine_keeps l _ s (by rfl) (by rfl)).mono (by decide)
    · split
      · refine (postLine_keeps _ _ _ _).after (by decide) ?_
        exact (setLine_keeps l _ s (by rfl) (by rfl)).mono (by decide)
      · exact (setLine_keeps l _ s (by rfl) (by rfl)).mono (by decide)
    all_goals exact keeps_refl _ _
  · exact keeps_refl _ _

theorem enterArmed_keeps (l : LineId) (s : State) : keeps [.lines, .mixOrder, .queues] s (enterArmed l s) := by
  unfold enterArmed
  refine (formMixOrder_keeps _).after (by decide) ?_
  exact (updLine_keeps l _ s (by intro; rfl) (by intro; rfl)).mono (by decide)

theorem closeLine_keeps (r : EndReason) (l : LineId) (s : State) :
    keeps [.lines, .mixOrder, .queues] s (closeLine r l s) := by
  unfold closeLine
  refine (formMixOrder_keeps _).after (by decide) ?_
  exact (updLine_keeps l _ s (by intro; rfl) (by intro; rfl)).mono (by decide)

theorem cutGrant_keeps (r : EndReason) (l : LineId) (s : State) : keeps [.lines, .cuts] s (cutGrant r l s) := by
  unfold cutGrant
  split
  · refine (updPort_keeps (A := [.cuts]) _ _ _ (.inr rfl) (.inr rfl) (.inr rfl) (.inr rfl) (.inl (by decide))).after
      (by decide) ?_
    exact (updLine_keeps l _ s (by intro; rfl) (by intro; rfl)).mono (by decide)
  · exact keeps_refl _ _

theorem withBound_keeps {A : List Part} (l : LineId) (f : StageKey → State → State) (s : State)
    (h : ∀ k, keeps A s (f k s)) : keeps A s (withBound l f s) := by
  unfold withBound
  split
  · exact h _
  · exact keeps_refl _ _

theorem settleStartCheck_keeps (s : State) : keeps [.startCheck] s (settleStartCheck s) := by
  unfold settleStartCheck
  split
  · refine ⟨rfl, fun q hq => ?_⟩
    cases q <;> first | (exfalso; apply hq; decide) | (intro _; exact rfl) | (repeat' first | exact rfl | apply And.intro)
  · exact keeps_refl _ _

end Sys2Proof.Machine
end

