-- ==== Sys2Proof/Laws/UnitFrames.lean ====
section
/-! SUPPORT. What the operations of the supply, stop, envelope, hazard and measurement units can change. -/

namespace Sys2Proof.Machine

/-! ### Grout supply -/

theorem setAged_keeps (b : Bool) (s : State) : keeps [.aged] s (s.updGrout (fun g => { g with aged := b })) := by
  refine ⟨rfl, fun q hq => ?_⟩
  cases q <;> first | (exfalso; apply hq; decide) | (intro _; exact rfl) | (repeat' first | exact rfl | apply And.intro)

theorem setBatches_keeps (f : Grout → Grout) (s : State)
    (h : ∀ g, f g = { g with batches := (f g).batches, nextBatch := (f g).nextBatch }) :
    keeps [.batches] s (s.updGrout f) := by
  have e : s.updGrout f = s.updGrout (fun g => { g with batches := (f g).batches, nextBatch := (f g).nextBatch }) :=
    congrArg (fun g => { s with grout := g }) (h s.grout)
  rw [e]
  refine ⟨rfl, fun q hq => ?_⟩
  cases q <;> first | (exfalso; apply hq; decide) | (intro _; exact rfl) | (repeat' first | exact rfl | apply And.intro)

theorem setAccount_keeps (n : Nat) (b : Bool) (s : State) :
    keeps [.account] s (s.updGrout (fun g => { g with unaccounted := n, noGrout := b })) := by
  refine ⟨rfl, fun q hq => ?_⟩
  cases q <;> first | (exfalso; apply hq; decide) | (intro _; exact rfl) | (repeat' first | exact rfl | apply And.intro)

theorem setEffective_keeps (l : LineId) (c : Nat) (s : State) :
    keeps [.lines, .stages, .queues] s (setEffective l c s) := by
  unfold setEffective
  split
  · split
    · exact keeps_refl _ _
    · refine (decideMixLag_keeps _ _).after (by decide) ?_
      refine (addProgress_keeps _ _ _).after (by decide) ?_
      exact (updLine_keeps l _ s (by intro; rfl) (by intro; rfl)).mono (by decide)
  · exact keeps_refl _ _

theorem appendTransit_keeps (c : Nat) (l : LineId) (s : State) :
    keeps [.lines, .stages, .queues] s (appendTransit c l s) := by
  unfold appendTransit
  dsimp only
  split
  · split
    · exact (updLine_keeps l _ s (by intro; rfl) (by intro; rfl)).mono (by decide)
    · refine (updLine_keeps l _ _ (by intro; rfl) (by intro; rfl)).after (by decide) ?_
      refine (setEffective_keeps _ _ _).after (by decide) ?_
      exact (updLine_keeps l _ s (by intro; rfl) (by intro; rfl)).mono (by decide)
  · exact (updLine_keeps l _ s (by intro; rfl) (by intro; rfl)).mono (by decide)

theorem tankClassFrom_keeps (c : Nat) (s : State) : keeps [.lines, .stages, .queues] s (tankClassFrom c s) := by
  unfold tankClassFrom
  split
  · exact keeps_refl _ _
  · refine forLines_keeps _ _ (fun l s => ?_)
    split
    · exact appendTransit_keeps _ _ _
    · exact keeps_refl _ _

theorem advanceTransit_keeps (w : Nat) (l : LineId) (s : State) :
    keeps [.lines, .stages, .queues] s (advanceTransit w l s) := by
  unfold advanceTransit
  split
  · exact keeps_refl _ _
  · split
    · exact (updLine_keeps l _ s (by intro; rfl) (by intro; rfl)).mono (by decide)
    · refine (setEffective_keeps _ _ _).after (by decide) ?_
      exact (updLine_keeps l _ s (by intro; rfl) (by intro; rfl)).mono (by decide)

theorem decideAged_keeps (s : State) : keeps [.aged, .queues, .lines] s (decideAged s) := by
  unfold decideAged
  split
  · refine (forLines_keeps (A := [.lines]) _ _ (fun l s => addCause_keeps _ _ _)).after (by decide) ?_
    refine (postPart_keeps _ _ _).after (by decide) ?_
    exact (setAged_keeps _ _).mono (by decide)
  · split
    · refine (forLines_keeps (A := [.lines, .queues]) _ _ (fun l s => removeCause_keeps _ _ _)).after (by decide) ?_
      exact (setAged_keeps _ _).mono (by decide)
    · exact keeps_refl _ _

theorem drawUnaccounted_keeps (l : LineId) (w : Nat) (s : State) :
    keeps [.account, .queues] s (drawUnaccounted l w s) := by
  unfold drawUnaccounted
  dsimp only
  split
  · exact keeps_refl _ _
  · split
    · exact (setAccount_keeps _ _ s).mono (by decide)
    · refine (postPart_keeps _ _ _).after (by decide) ?_
      exact (setAccount_keeps _ _ s).mono (by decide)

theorem consume_keeps (l : LineId) (w : Nat) (s : State) :
    keeps [.batches, .account, .aged, .lines, .stages, .queues] s (consume l w s) := by
  unfold consume
  dsimp only
  have h : keeps [.batches, .account, .aged, .lines, .stages, .queues] s
      (tankClassFrom s.grout.tankClass (drawUnaccounted l (drawBatches w s.grout.batches).2
        (s.updGrout (fun g => { g with batches := (drawBatches w s.grout.batches).1 })))) := by
    refine (tankClassFrom_keeps _ _).after (by decide) ?_
    refine (drawUnaccounted_keeps _ _ _).after (by decide) ?_
    exact (setBatches_keeps _ s (by intro; rfl)).mono (by decide)
  split
  · exact (decideAged_keeps _).after (by decide) h
  · exact h

/-! ### Valve faults, lockdown and the stops -/

theorem lockLine_keeps (l : LineId) (s : State) :
    keeps [.lines, .cuts, .stages, .writes, .queues] s (lockLine l s) := by
  unfold lockLine
  split
  all_goals first
    | exact keeps_refl _ _
    | exact (cutGrant_keeps _ _ _).mono (by decide)
    | (refine (withBound_keeps (A := [.stages, .writes, .queues]) _ _ _ (fun k => suspendStage_keeps _ _ _ _)).after
        (by decide) ?_
       refine (updLine_keeps l _ _ (by intro; rfl) (by intro; rfl)).after (by decide) ?_
       exact (cutGrant_keeps _ _ _).mono (by decide))

theorem setLockdown_keeps (b : Bool) (s : State) :
    keeps [.lockdown] s (s.updStop (fun u => { u with lockdown := b })) := by
  refine ⟨rfl, fun q hq => ?_⟩
  cases q <;> first | (exfalso; apply hq; decide) | (intro _; exact rfl) | (repeat' first | exact rfl | apply And.intro)

theorem setExercise_keeps (n : Nat) (s : State) : keeps [.exercise] s { s with exercise := n } := by
  refine ⟨rfl, fun q hq => ?_⟩
  cases q <;> first | (exfalso; apply hq; decide) | (intro _; exact rfl) | (repeat' first | exact rfl | apply And.intro)

theorem enterLockdown_keeps (c : FaultCode) (l : LineId) (s : State) :
    keeps [.lockdown, .queues, .faults, .writes, .exercise, .lines, .cuts, .stages, .mixOrder] s
      (enterLockdown c l s) := by
  unfold enterLockdown
  dsimp only
  refine (formMixOrder_keeps _).after (by decide) ?_
  refine (forLines_keeps (A := [.lines, .cuts, .stages, .writes, .queues]) _ _ lockLine_keeps).after (by decide) ?_
  refine (setExercise_keeps _ _).after (by decide) ?_
  refine (enterFault_keeps _ _ _ _ _).after (by decide) ?_
  refine (post_keeps _ _ _).after (by decide) ?_
  exact (setLockdown_keeps _ _).mono (by decide)

theorem isolateFor_settings (f : ValveFault) (t : Nat) (x : Line) :
    (x.isolateFor f t).settingsPart = x.settingsPart := by
  unfold Line.isolateFor
  dsimp only
  split <;> rfl

theorem isolateFor_meters (f : ValveFault) (t : Nat) (x : Line) : (x.isolateFor f t).meterPart = x.meterPart := by
  unfold Line.isolateFor
  dsimp only
  split <;> rfl

theorem faultStage_keeps (l : LineId) (st : LineState) (k : Option StageKey) (s : State) :
    keeps [.stages, .writes, .queues] s (faultStage l st k s) := by
  unfold faultStage
  split
  · exact keeps_refl _ _
  · split <;> first
      | exact keeps_refl _ _
      | exact (returnToReady_keeps _ _).mono (by decide)
      | exact suspendStage_keeps _ _ _ _

theorem valveFault_keeps (f : ValveFault) (rb : Readback) (l : LineId) (s : State) :
    keeps [.lockdown, .queues, .faults, .writes, .exercise, .lines, .cuts, .stages, .mixOrder] s
      (valveFault f rb l s) := by
  unfold valveFault
  dsimp only
  have h : keeps [.lockdown, .queues, .faults, .writes, .exercise, .lines, .cuts, .stages, .mixOrder] s
      (formMixOrder ((cutGrant .valveFault l s).updLine l
        (Line.isolateFor f (cutGrant .valveFault l s).settings.travelTime))) := by
    refine (formMixOrder_keeps _).after (by decide) ?_
    refine (updLine_keeps l _ _ (isolateFor_settings _ _) (isolateFor_meters _ _)).after (by decide) ?_
    exact (cutGrant_keeps _ _ _).mono (by decide)
  split
  · refine (enterLockdown_keeps _ _ _).after (by decide) ?_
    refine (enterFault_keeps _ _ _ _ _).after (by decide) ?_
    refine (post_keeps _ _ _).after (by decide) ?_
    exact (faultStage_keeps _ _ _ _).after (by decide) h
  · refine (enterFault_keeps _ _ _ _ _).after (by decide) ?_
    refine (post_keeps _ _ _).after (by decide) ?_
    exact (faultStage_keeps _ _ _ _).after (by decide) h

theorem closeOpening_keeps (r : EndReason) (l : LineId) (s : State) :
    keeps [.lines, .mixOrder, .queues, .stages, .writes] s (closeOpening r l s) := by
  unfold closeOpening
  split
  · refine (withBound_keeps (A := [.stages, .writes]) _ _ _ (fun k => returnToReady_keeps _ _)).after (by decide) ?_
    exact (closeLine_keeps _ _ _).mono (by decide)
  · exact keeps_refl _ _

theorem stopLines_keeps (c : HoldCause) (r : EndReason) (s : State) :
    keeps [.lines, .mixOrder, .queues, .stages, .writes] s (stopLines c r s) := by
  unfold stopLines
  refine (forLines_keeps _ _ (closeOpening_keeps r)).after (by decide) ?_
  exact (forLines_keeps (A := [.lines]) _ _ (fun l s => addCause_keeps _ _ _)).mono (by decide)

theorem setUpliftStop_keeps (b : Bool) (s : State) :
    keeps [.upliftStop] s (s.updStop (fun x => { x with upliftStop := b })) := by
  refine ⟨rfl, fun q hq => ?_⟩
  cases q <;> first | (exfalso; apply hq; decide) | (intro _; exact rfl) | (repeat' first | exact rfl | apply And.intro)

theorem latchUpliftStop_keeps (g : GaugeId) (s : State) :
    keeps [.upliftStop, .exercise, .queues, .faults, .writes, .lines, .mixOrder, .stages] s
      (latchUpliftStop g s) := by
  unfold latchUpliftStop
  dsimp only
  refine (stopLines_keeps _ _ _).after (by decide) ?_
  refine (enterFault_keeps _ _ _ _ _).after (by decide) ?_
  refine (postPart_keeps _ _ _).after (by decide) ?_
  refine (setExercise_keeps _ _).after (by decide) ?_
  exact (setUpliftStop_keeps _ _).mono (by decide)

theorem setEstop_keeps (b : Bool) (s : State) :
    keeps [.estop] s (s.updStop (fun x => { x with estop := b })) := by
  refine ⟨rfl, fun q hq => ?_⟩
  cases q <;> first | (exfalso; apply hq; decide) | (intro _; exact rfl) | (repeat' first | exact rfl | apply And.intro)

theorem beginEstop_keeps (s : State) :
    keeps [.estop, .exercise, .queues, .faults, .writes, .lines, .mixOrder, .stages] s (beginEstop s) := by
  unfold beginEstop
  dsimp only
  refine (stopLines_keeps _ _ _).after (by decide) ?_
  refine (enterFault_keeps _ _ _ _ _).after (by decide) ?_
  refine (postPart_keeps _ _ _).after (by decide) ?_
  refine (setExercise_keeps _ _).after (by decide) ?_
  exact (setEstop_keeps _ _).mono (by decide)

theorem finishEstop_keeps (s : State) : keeps [.estop, .lines, .queues] s (finishEstop s) := by
  unfold finishEstop
  refine (forLines_keeps (A := [.lines, .queues]) _ _ (fun l s => removeCause_keeps _ _ _)).after (by decide) ?_
  exact (setEstop_keeps _ _).mono (by decide)

theorem setWarn_keeps (b c : Bool) (s : State) :
    keeps [.warn] s (s.updStop (fun x => { x with warn := b, degraded := c })) := by
  refine ⟨rfl, fun q hq => ?_⟩
  cases q <;> first | (exfalso; apply hq; decide) | (intro _; exact rfl) | (repeat' first | exact rfl | apply And.intro)

theorem formWarn_keeps (s : State) : keeps [.warn, .queues] s (formWarn s) := by
  unfold formWarn
  dsimp only
  split
  · refine (postPart_keeps _ _ _).after (by decide) ?_
    exact (setWarn_keeps _ _ s).mono (by decide)
  · exact (setWarn_keeps _ _ s).mono (by decide)

/-! ### Evaluation, stage ends and hazards -/

theorem recordEvaluation_keeps (l : LineId) (c : Computed) (s : State) :
    keeps [.lines, .stages] s (recordEvaluation l c s) := by
  unfold recordEvaluation
  dsimp only
  split
  · exact (updLine_keeps l _ s (by intro; rfl) (by intro; rfl)).mono (by decide)
  · refine (addProgress_keeps _ _ _).after (by decide) ?_
    exact (updLine_keeps l _ s (by intro; rfl) (by intro; rfl)).mono (by decide)

theorem reformCeilings_keeps (l : LineId) (s : State) : keeps [.lines] s (reformCeilings l s) := by
  unfold reformCeilings
  dsimp only
  split
  · exact updLine_keeps l _ s (by intro; rfl) (by intro; rfl)
  · exact keeps_refl _ _

theorem updDecision_keeps (l : LineId) (f : DecisionRecord → DecisionRecord) (s : State) :
    keeps [.lines] s (updDecision l f s) := updLine_keeps l _ s (by intro; rfl) (by intro; rfl)

theorem endStage_keeps (l : LineId) (k : StageKey) (c : EndCause) (r : EndReason) (s : State) :
    keeps [.lines, .mixOrder, .queues, .stages, .writes, .completions] s (endStage l k c r s) := by
  unfold endStage
  refine (closeLine_keeps _ _ _).after (by decide) ?_
  exact (completeStage_keeps _ _ _ _ _).mono (by decide)

theorem overpressureStep_keeps (l : LineId) (c : Computed) (s : State) :
    keeps [.lines, .queues, .stages] s (overpressureStep l c s) := by
  unfold overpressureStep
  dsimp only
  generalize (s.line l).decision = o
  cases o with
  | none => exact keeps_refl _ _
  | some d =>
    dsimp only
    split
    · generalize (if c.pe ≤ c.ce then d.clear + 1 else 0) = n
      split
      · refine (removeCause_keeps _ _ _).after (by decide) ?_
        exact (updDecision_keeps _ _ _).mono (by decide)
      · exact (updDecision_keeps _ _ _).mono (by decide)
    · generalize (if c.overpressureLimit < c.pe then d.raise + 1 else 0) = n
      split
      · refine (postLine_keeps _ _ _ _).after (by decide) ?_
        refine (addProgress_keeps _ _ _).after (by decide) ?_
        refine (addCause_keeps _ _ _).after (by decide) ?_
        exact (updDecision_keeps _ _ _).mono (by decide)
      · exact (updDecision_keeps _ _ _).mono (by decide)

theorem addPending_keeps (k : StageKey) (f : PendingDecision → PendingDecision) (s : State) :
    keeps [.stages] s (addPending k f s) := updStage_keeps _ _ _

theorem fractureStep_keeps (l : LineId) (st : Stage) (c : Computed) (s : State) :
    keeps [.lines, .queues, .stages] s (fractureStep l st c s) := by
  unfold fractureStep
  split
  · split
    · refine (postLine_keeps _ _ _ _).after (by decide) ?_
      refine (addPending_keeps _ _ _).after (by decide) ?_
      exact (addCause_keeps _ _ _).mono (by decide)
    · exact keeps_refl _ _
  · exact keeps_refl _ _

theorem stageEndUnit_keeps (l : LineId) (st : LineState) (x : Stage) (c : Computed) (s : State) :
    keeps [.lines, .mixOrder, .queues, .stages, .writes, .completions] s (stageEndUnit l st x c s) := by
  unfold stageEndUnit
  dsimp only
  split
  · exact (updDecision_keeps _ _ _).mono (by decide)
  split
  · split
    · refine (endStage_keeps _ _ _ _ _).after (by decide) ?_
      exact (updDecision_keeps _ _ _).mono (by decide)
    · refine (fractureStep_keeps _ _ _ _).after (by decide) ?_
      refine (overpressureStep_keeps _ _ _).after (by decide) ?_
      exact (updDecision_keeps _ _ _).mono (by decide)
  · exact (overpressureStep_keeps _ _ _).mono (by decide)
  all_goals exact keeps_refl _ _

theorem thickenLine_keeps (l : LineId) (st : Stage) (pe : Nat) (s : State) :
    keeps [.lines, .mixOrder, .queues] s (thickenLine l st pe s) := by
  unfold thickenLine
  dsimp only
  split
  · split
    · refine (decideMixLag_keeps _ _).after (by decide) ?_
      refine (formMixOrder_keeps _).after (by decide) ?_
      exact (updLine_keeps l _ s (by intro; rfl) (by intro; rfl)).mono (by decide)
    · exact (updLine_keeps l _ s (by intro; rfl) (by intro; rfl)).mono (by decide)
  · exact keeps_refl _ _

theorem evaluate_keeps (l : LineId) (s : State) :
    keeps [.lines, .mixOrder, .queues, .stages, .writes, .completions] s (evaluate l s) := by
  unfold evaluate
  dsimp only
  split
  · exact keeps_refl _ _
  · have h : ∀ st c x, keeps [.lines, .mixOrder, .queues, .stages, .writes, .completions] s
        (stageEndUnit l x st c (recordEvaluation l c s)) := fun st c x =>
      (stageEndUnit_keeps _ _ _ _ _).after (by decide) ((recordEvaluation_keeps _ _ _).mono (by decide))
    split
    · exact (updLine_keeps l _ _ (by intro; rfl) (by intro; rfl)).after (by decide) (h _ _ _)
    · split
      · exact (thickenLine_keeps _ _ _ _).after (by decide) (h _ _ _)
      · exact h _ _ _

theorem connectCandidate_keeps (n : Nat) (c : LineId × Stage) (s : State) :
    keeps [.lines, .queues, .stages] s (connectCandidate n c s) := by
  unfold connectCandidate
  dsimp only
  split
  · refine (postLine_keeps _ _ _ _).after (by decide) ?_
    refine (addPending_keeps _ _ _).after (by decide) ?_
    refine (addCause_keeps _ _ _).after (by decide) ?_
    exact (addProgress_keeps _ _ _).mono (by decide)
  · refine (postLine_keeps _ _ _ _).after (by decide) ?_
    exact (addProgress_keeps _ _ _).mono (by decide)

theorem setConnections_keeps (c : ConnectionLog) (s : State) : keeps [.connections] s { s with connections := c } := by
  refine ⟨rfl, fun q hq => ?_⟩
  cases q <;> first | (exfalso; apply hq; decide) | (intro _; exact rfl) | (repeat' first | exact rfl | apply And.intro)

theorem connectionEvent_keeps (l : LineId) (w : Watch) (b : Nat) (r : Int) (s : State) :
    keeps [.lines, .queues, .stages, .connections] s (connectionEvent l w b r s) := by
  unfold connectionEvent
  dsimp only
  refine (setConnections_keeps _ _).after (by decide) ?_
  exact (foldl_keeps (A := [.lines, .queues, .stages]) _ _ _ (fun s c => connectCandidate_keeps _ c s)).mono (by decide)

theorem watchEvaluation_keeps (l : LineId) (r : Bool) (s : State) :
    keeps [.lines, .queues, .stages, .connections] s (watchEvaluation l r s) := by
  unfold watchEvaluation
  dsimp only
  split
  · exact keeps_refl _ _
  split
  · exact (setLine_keeps l _ s (by rfl) (by rfl)).mono (by decide)
  · generalize (if r then _ else _ : Watch) = w
    split
    · exact (setLine_keeps l _ s (by rfl) (by rfl)).mono (by decide)
    · split
      · refine (connectionEvent_keeps _ _ _ _ _).after (by decide) ?_
        exact (setLine_keeps l _ s (by rfl) (by rfl)).mono (by decide)
      · exact (setLine_keeps l _ s (by rfl) (by rfl)).mono (by decide)

/-! ### Measurement -/

theorem lineChannelEffects_keeps (k : LineChannel) (n : Nat) (r : Sampled) (l : LineId) (s : State) :
    keeps [.lines, .queues, .faults, .writes] s (lineChannelEffects k n r l s) := by
  unfold lineChannelEffects
  dsimp only
  have h1 : keeps [.lines, .queues, .faults, .writes] s
      (if r.saturated then postLine l .counterSaturated (some ((k.number l : Nat) : Int)) s else s) := by
    split
    · exact (postLine_keeps _ _ _ _).mono (by decide)
    · exact keeps_refl _ _
  generalize (if r.saturated then postLine l .counterSaturated (some ((k.number l : Nat) : Int)) s else s) = s1 at h1 ⊢
  have h2 : ∀ c, keeps [.lines, .queues, .faults, .writes] s
      (if r.loss then addCause .sensor l (enterFault k.code (.value n) (some (.line l)) c
        (postLine l .sensorLost (some ((k.number l : Nat) : Int)) s1)) else s1) := by
    intro c
    split
    · refine (addCause_keeps _ _ _).after (by decide) ?_
      refine (enterFault_keeps _ _ _ _ _).after (by decide) ?_
      exact (postLine_keeps _ _ _ _).after (by decide) h1
    · exact h1
  specialize h2 (if (s1.line l).state.evaluated then .hold else .record)
  generalize (if r.loss then _ else _ : State) = s2 at h2 ⊢
  split
  · exact (removeCause_keeps _ _ _).after (by decide) h2
  · exact h2

theorem confirmValve_keeps (l : LineId) (s : State) : keeps [.lines, .mixOrder, .queues] s (confirmValve l s) := by
  unfold confirmValve
  dsimp only
  split
  · split
    · exact enterArmed_keeps _ _
    · exact keeps_refl _ _
  · split
    · exact (updLine_keeps l _ s (by intro; rfl) (by intro; rfl)).mono (by decide)
    · exact keeps_refl _ _
  all_goals exact keeps_refl _ _

theorem valveCompare_keeps (l : LineId) (rb : Readback) (s : State) :
    keeps [.lockdown, .queues, .faults, .writes, .exercise, .lines, .cuts, .stages, .mixOrder] s
      (valveCompare l rb s) := by
  have h : ∀ n, keeps [.lines] s (s.setLine l { (s.line l).readValve rb with invalid := n }) :=
    fun n => setLine_keeps l _ s (by rfl) (by rfl)
  have h' : keeps [.lines] s (s.setLine l ((s.line l).readValve rb)) := setLine_keeps l _ s (by rfl) (by rfl)
  unfold valveCompare
  dsimp only
  split
  · exact h'.mono (by decide)
  · split
    · exact (valveFault_keeps _ _ _ _).after (by decide) ((h 0).mono (by decide))
    · exact (valveFault_keeps _ _ _ _).after (by decide) (h'.mono (by decide))
    · exact (confirmValve_keeps _ _).after (by decide) (h'.mono (by decide))

theorem lineSample_keeps (l : LineId) (n : Nat) (a b c : Bool) (s : State) :
    keeps [.lines, .lineSettings, .meters, .queues, .faults, .writes, .stages, .completions, .mixOrder, .cuts,
      .lockdown, .exercise, .startCheck, .connections] s (lineSample l n a b c s) := by
  unfold lineSample
  dsimp only
  refine (settleStartCheck_keeps _).after (by decide) ?_
  have h : ∀ x r r' m, keeps [.lines, .lineSettings, .meters, .queues, .faults, .writes, .stages, .completions,
      .mixOrder, .cuts, .lockdown, .exercise, .startCheck, .connections] s
      (valveCompare l (readbackOf b c)
        (lineChannelEffects .flow m r l (lineChannelEffects .pressure n r' l (s.setLine l x)))) := by
    intro x r r' m
    refine (valveCompare_keeps _ _ _).after (by decide) ?_
    refine (lineChannelEffects_keeps _ _ _ _ _).after (by decide) ?_
    refine (lineChannelEffects_keeps _ _ _ _ _).after (by decide) ?_
    exact (setLine_keeps_all _ _ _).mono (by decide)
  split
  · split
    · exact h _ _ _ _
    · exact (evaluate_keeps _ _).after (by decide) (h _ _ _ _)
  · split
    · exact h _ _ _ _
    · exact (evaluate_keeps _ _).after (by decide) (h _ _ _ _)
  · split
    · exact h _ _ _ _
    · exact (evaluate_keeps _ _).after (by decide) (h _ _ _ _)
  · exact (watchEvaluation_keeps _ _ _).after (by decide) (h _ _ _ _)
  all_goals exact h _ _ _ _

theorem partChannelEffects_keeps (n : Nat) (c : FaultCode) (loc : Option FaultLocation) (q : Consequence) (i : Nat)
    (r : Sampled) (s : State) : keeps [.queues, .faults, .writes] s (partChannelEffects n c loc q i r s) := by
  unfold partChannelEffects
  dsimp only
  have h1 : keeps [.queues, .faults, .writes] s
      (if r.saturated then postPart .counterSaturated (some (n : Int)) s else s) := by
    split
    · exact (postPart_keeps _ _ _).mono (by decide)
    · exact keeps_refl _ _
  split
  · refine (enterFault_keeps _ _ _ _ _).after (by decide) ?_
    exact (postPart_keeps _ _ _).after (by decide) h1
  · exact h1

theorem judgeGauge_keeps (g : GaugeId) (s : State) :
    keeps [.gauges, .upliftStop, .exercise, .queues, .faults, .writes, .lines, .mixOrder, .stages] s
      (judgeGauge g s) := by
  unfold judgeGauge
  dsimp only
  split
  · refine (updGauge_keeps _ _ _).after (by decide) ?_
    split
    · exact (latchUpliftStop_keeps _ _).after (by decide) ((setGauge_keeps _ _ _).mono (by decide))
    · exact (setGauge_keeps _ _ _).mono (by decide)
  · exact (setGauge_keeps _ _ _).mono (by decide)

theorem gaugeSample_keeps (g : GaugeId) (i : Nat) (s : State) :
    keeps [.gauges, .queues, .faults, .writes, .upliftStop, .exercise, .lines, .mixOrder, .stages, .warn] s
      (gaugeSample g i s) := by
  unfold gaugeSample
  dsimp only
  refine (formWarn_keeps _).after (by decide) ?_
  refine (judgeGauge_keeps _ _).after (by decide) ?_
  refine (partChannelEffects_keeps _ _ _ _ _ _ _).after (by decide) ?_
  exact (updGauge_keeps _ _ _).mono (by decide)

theorem setLevel_keeps (c : Channel) (s : State) : keeps [.level] s { s with level := c } := by
  refine ⟨rfl, fun q hq => ?_⟩
  cases q <;> first | (exfalso; apply hq; decide) | (intro _; exact rfl) | (repeat' first | exact rfl | apply And.intro)

theorem levelSample_keeps (i : Nat) (s : State) : keeps [.level, .queues, .faults, .writes] s (levelSample i s) := by
  unfold levelSample
  dsimp only
  refine (partChannelEffects_keeps _ _ _ _ _ _ _).after (by decide) ?_
  exact (setLevel_keeps _ _).mono (by decide)

/-! ### Requests taken and answered -/

theorem restartKeepalive_keeps (p : Port) (s : State) : keeps [.lines] s (restartKeepalive p s) := by
  unfold restartKeepalive
  split
  · exact updLine_keeps _ _ s (by intro; rfl) (by intro; rfl)
  · exact keeps_refl _ _

theorem heard_keeps (p : Port) (s : State) : keeps [.links, .lines] s (heard p s) := by
  unfold heard
  refine (restartKeepalive_keeps _ _).after (by decide) ?_
  exact updPort_keeps _ _ _ (.inr rfl) (.inl (by decide)) (.inr rfl) (.inr rfl) (.inr rfl)

theorem respond_keeps (p : Port) (k t : Byte) (r : Reply) : keeps [.links] r.state (respond p k t r) :=
  updPort_keeps _ _ _ (.inr rfl) (.inl (by decide)) (.inr rfl) (.inr rfl) (.inr rfl)

theorem countOverrun_keeps (p : Port) (s : State) :
    keeps [.links, .portCounters, .queues] s (countOverrun p s) := by
  unfold countOverrun
  dsimp only
  refine (postSaturated_keeps _ _ _).after (by decide) ?_
  exact updPort_keeps _ _ _ (.inr rfl) (.inl (by decide)) (.inl (by decide)) (.inr rfl) (.inr rfl)

/-- What a frame arriving at a port can change, by what handling it can. -/
theorem receive_keeps {A : List Part} (p : Port) (act : State → State) (s : State) (hA : requestParts ⊆ A)
    (h : ∀ s, keeps A s (act s)) : keeps A s (receive p act s) := by
  unfold receive
  split
  · exact (h _).after (List.Subset.refl _)
      ((heard_keeps p s).mono (fun q hq => hA ((by decide : [Part.links, .lines] ⊆ requestParts) hq)))
  · exact (h _).after (List.Subset.refl _)
      ((heard_keeps p s).mono (fun q hq => hA ((by decide : [Part.links, .lines] ⊆ requestParts) hq)))
  · exact (countOverrun_keeps p s).mono
      (fun q hq => hA ((by decide : [Part.links, .portCounters, .queues] ⊆ requestParts) hq))
  · exact keeps_refl _ _

/-- What a request can change, by what its own handling can. -/
theorem request_keeps {α : Type} {A : List Part} (k : RequestKind) (p : Port) (t : Byte) (b : Body α)
    (own : α → State → Reply) (s u : State) (hA : requestParts ⊆ A)
    (h : ∀ a s, keeps A s (own a s).state) (hu : request k p t b own s = .next u) : keeps A s u := by
  unfold request at hu
  injection hu with hu
  subst hu
  refine receive_keeps p _ s hA (fun s => ?_)
  refine (respond_keeps _ _ _ _).after (fun q hq => hA ((by decide : [Part.links] ⊆ requestParts) hq)) ?_
  split
  · split
    · exact h _ _
    · exact keeps_refl _ _
  · exact keeps_refl _ _

theorem unlessLocked_keeps {A : List Part} (s t : State) (r : Reply) (h : keeps A s r.state) :
    keeps A s (if t.stop.lockdown then refuse .locked s else r).state := by
  split
  · exact keeps_refl _ _
  · exact h

end Sys2Proof.Machine
end

