-- ==== Sys2Proof/Laws/CommandFrames.lean ====
section
/-! SUPPORT. What the handling of each request and event can change, beyond taking the request. -/

namespace Sys2Proof.Machine

theorem refuse_keeps (A : List Part) (st : Status) (s : State) : keeps A s (refuse st s).state := keeps_refl _ _

theorem accept_keeps {A : List Part} (c : Contents) {s t : State} (h : keeps A s t) :
    keeps A s (accept c t).state := h

theorem guard_keeps {A : List Part} (s : State) (r : Reply) (h : keeps A s r.state) :
    keeps A s (unlessLocked s r).state := unlessLocked_keeps s s r h

/-! ### Pump requests -/

theorem withGrant_keeps {A : List Part} (p : Port) (w : State → Reply) (o : LineId → Grant → State → Reply)
    (s : State) (hw : keeps A s (w s).state) (ho : ∀ l g, keeps A s (o l g s).state) :
    keeps A s (withGrant p w o s).state := by
  unfold withGrant
  refine guard_keeps _ _ ?_
  split
  · split
    · exact ho _ _
    · exact hw
  · exact hw

theorem grantClaim_keeps (p : Port) (l : LineId) (st : Stage) (s : State) :
    keeps [.lines, .meters, .cuts, .stages, .writes, .mixOrder, .queues] s (grantClaim p l st s) := by
  unfold grantClaim
  dsimp only
  refine (formMixOrder_keeps _).after (by decide) ?_
  refine (saveStage_keeps _ _).after (by decide) ?_
  refine (updStage_keeps _ _ _).after (by decide) ?_
  refine (updPort_keeps (A := [.cuts]) _ _ _ (.inr rfl) (.inr rfl) (.inr rfl) (.inr rfl) (.inl (by decide))).after
    (by decide) ?_
  exact (updLine_keeps_meters _ _ _ (by intro; rfl)).mono (by decide)

theorem claimReply_keeps (p : Port) (a : ClaimArgs) (s : State) :
    keeps [.lines, .meters, .cuts, .stages, .writes, .mixOrder, .queues] s (claimReply p a s).state := by
  have hs : ∀ l st, keeps [.lines, .meters, .cuts, .stages, .writes, .mixOrder, .queues] s
      (claimStage p l st s).state := by
    intro l st
    unfold claimStage
    split
    · exact refuse_keeps _ _ _
    split
    · exact refuse_keeps _ _ _
    split
    · exact refuse_keeps _ _ _
    split
    · exact refuse_keeps _ _ _
    split
    · show keeps _ s (formMixOrder _)
      refine (formMixOrder_keeps _).after (by decide) ?_
      exact (updStage_keeps _ _ _).mono (by decide)
    · exact grantClaim_keeps _ _ _ _
  unfold claimReply
  refine guard_keeps _ _ ?_
  split
  · exact refuse_keeps _ _ _
  split
  · exact refuse_keeps _ _ _
  unfold claimGrant
  split
  · split
    · exact keeps_refl _ _
    · exact refuse_keeps _ _ _
  · split
    · split
      · exact hs _ _
      · exact refuse_keeps _ _ _
    · exact refuse_keeps _ _ _

theorem takeStart_parts (x : Line) :
    x.takeStart.settingsPart = x.settingsPart ∧ x.takeStart.meterPart = x.meterPart := by
  unfold Line.takeStart
  dsimp only
  split
  · exact ⟨rfl, rfl⟩
  split <;> exact ⟨rfl, rfl⟩

theorem startReply_keeps (l : LineId) (g : Grant) (s : State) :
    keeps [.lines, .stages] s (startReply l g s).state := by
  unfold startReply
  split
  · show keeps _ s (startArmed l s)
    unfold startArmed
    refine (withBound_keeps (A := [.stages]) _ _ _ (fun k => updStage_keeps _ _ _)).after (by decide) ?_
    refine (setLine_keeps l _ s ?_ ?_).mono (by decide)
    · exact (takeStart_parts _).1
    · exact (takeStart_parts _).2
  · exact keeps_refl _ _
  · exact (updLine_keeps l _ s (fun x => (takeStart_parts x).1) (fun x => (takeStart_parts x).2)).mono (by decide)
  all_goals exact refuse_keeps _ _ _

theorem pauseReply_keeps (l : LineId) (g : Grant) (s : State) : keeps [.lines] s (pauseReply l g s).state := by
  unfold pauseReply
  split <;> first | exact refuse_keeps _ _ _ | exact addCause_keeps _ _ _

theorem pumpReport_keeps (a : PumpStatusArgs) (l : LineId) (g : Grant) (s : State) :
    keeps [.lines] s (pumpReport a l g s).state := by
  unfold pumpReport
  split
  · exact updLine_keeps l _ s (by intro; rfl) (by intro; rfl)
  · exact refuse_keeps _ _ _

theorem clearCut_keeps (p : Port) (s : State) : keeps [.cuts] s (s.updPort p (fun x => { x with cut := none })) :=
  updPort_keeps _ _ _ (.inr rfl) (.inr rfl) (.inr rfl) (.inr rfl) (.inl (by decide))

theorem pumpStatusWithout_keeps (p : Port) (a : PumpStatusArgs) (s : State) :
    keeps [.cuts] s (pumpStatusWithout p a s).state := by
  unfold pumpStatusWithout
  split
  · split
    · exact clearCut_keeps _ _
    · exact refuse_keeps _ _ _
  · exact refuse_keeps _ _ _

theorem releaseReply_keeps (l : LineId) (g : Grant) (s : State) :
    keeps [.lines, .stages, .writes, .mixOrder, .queues] s (releaseReply l g s).state := by
  unfold releaseReply
  split
  · show keeps _ s (releaseLive l g s)
    unfold releaseLive
    refine (withBound_keeps (A := [.stages, .writes, .queues]) _ _ _ (fun k => ?_)).after (by decide)
      ((closeLine_keeps _ _ _).mono (by decide))
    split
    · exact suspendStage_keeps _ _ _ _
    · exact (returnToReady_keeps _ _).mono (by decide)
  · split
    · exact refuse_keeps _ _ _
    · exact keeps_refl _ _

theorem releaseWithout_keeps (p : Port) (s : State) : keeps [.cuts] s (releaseWithout p s).state := clearCut_keeps _ _

/-! ### Reading requests -/

theorem stageReadReply_keeps (A : List Part) (a : StageReadArgs) (s : State) :
    keeps A s (stageReadReply a s).state := by
  unfold stageReadReply
  split
  · split
    · exact keeps_refl _ _
    · exact refuse_keeps _ _ _
  · exact refuse_keeps _ _ _

theorem lineReadReply_keeps (A : List Part) (n : Nat) (s : State) : keeps A s (lineReadReply n s).state := by
  unfold lineReadReply
  split
  · exact keeps_refl _ _
  · exact refuse_keeps _ _ _

theorem readAlertsReply_keeps (p : Port) (s : State) : keeps [.queues] s (readAlertsReply p s).state :=
  setPort_keeps _ _ _ (.inl (by decide)) (.inr rfl) (.inr rfl) (.inr rfl) (.inr rfl)

theorem alertMaskReply_keeps (p : Port) (m : Nat) (s : State) : keeps [.masks] s (alertMaskReply p m s).state := by
  unfold alertMaskReply
  split
  · exact updPort_keeps _ _ _ (.inr rfl) (.inr rfl) (.inr rfl) (.inl (by decide)) (.inr rfl)
  · exact refuse_keeps _ _ _

theorem setReader_rest (p : Port) (x : Reader) (r : Records) :
    (r.setReader p x).completions = r.completions ∧ (r.setReader p x).faults = r.faults ∧
    (r.setReader p x).nextFault = r.nextFault ∧ (r.setReader p x).latched = r.latched := by
  cases p <;> exact ⟨rfl, rfl, rfl, rfl⟩

theorem readRecordsReply_keeps (p : Port) (s : State) : keeps [.recordQueue] s (readRecordsReply p s).state := by
  unfold readRecordsReply
  split
  · split
    · exact updRecordQueue_keeps _ _ (fun r => (setReader_rest _ _ r).1) (fun r => (setReader_rest _ _ r).2.1)
        (fun r => (setReader_rest _ _ r).2.2.1) (fun r => (setReader_rest _ _ r).2.2.2)
    · exact refuse_keeps _ _ _
  · exact refuse_keeps _ _ _

theorem rangeReply_keeps (A : List Part) {α : Type} (xs : List α) (c : Nat → List α → Contents) (a : RangeArgs)
    (s : State) : keeps A s (rangeReply xs c a s).state := by
  unfold rangeReply
  split
  · exact keeps_refl _ _
  · exact refuse_keeps _ _ _

/-! ### Stage edits -/

theorem stageEdit_keeps {A : List Part} (s : State) (r : Reply) (h : keeps A s r.state) :
    keeps A s (stageEdit s r).state := by
  unfold stageEdit
  refine guard_keeps _ _ ?_
  split
  · exact refuse_keeps _ _ _
  · exact h

theorem stageEditOf_keeps {A : List Part} (k : StageKey) (o : Stage → State → Reply) (s : State)
    (h : ∀ x, keeps A s (o x s).state) : keeps A s (stageEditOf k o s).state := by
  unfold stageEditOf
  refine stageEdit_keeps _ _ ?_
  split
  · exact h _
  · exact refuse_keeps _ _ _

theorem decideOf_keeps {A : List Part} (a : DecideArgs) (o : Stage → State → Reply) (s : State)
    (h : ∀ x, keeps A s (o x s).state) : keeps A s (decideOf a o s).state := by
  unfold decideOf
  refine stageEdit_keeps _ _ ?_
  split
  · split
    · exact h _
    · exact refuse_keeps _ _ _
  · exact refuse_keeps _ _ _

theorem storeStage_keeps (x : Stage) (s : State) : keeps [.stages, .writes] s (storeStage x s) := by
  unfold storeStage
  refine (saveStage_keeps _ _).after (by decide) ?_
  exact (setStages_keeps _ _).mono (by decide)

theorem stageWriteReply_keeps (a : StageWriteArgs) (s : State) :
    keeps [.stages, .writes] s (stageWriteReply a s).state := by
  unfold stageWriteReply
  refine stageEdit_keeps _ _ ?_
  split
  · exact refuse_keeps _ _ _
  split
  · split
    · exact storeStage_keeps _ _
    · exact refuse_keeps _ _ _
  · split
    · exact refuse_keeps _ _ _
    · exact storeStage_keeps _ _

theorem stageReleaseOwn_keeps (x : Stage) (s : State) :
    keeps [.stages, .writes] s (stageReleaseOwn x s).state := by
  unfold stageReleaseOwn
  split
  · exact refuse_keeps _ _ _
  split
  · refine (saveStage_keeps _ _).after (by decide) ?_
    exact (updStage_keeps _ _ _).mono (by decide)
  · exact refuse_keeps _ _ _

theorem stageWithdrawOwn_keeps (x : Stage) (s : State) :
    keeps [.stages, .writes, .mixOrder, .queues] s (stageWithdrawOwn x s).state := by
  unfold stageWithdrawOwn
  split
  · refine (formMixOrder_keeps _).after (by decide) ?_
    refine (saveStage_keeps _ _).after (by decide) ?_
    exact (updStage_keeps _ _ _).mono (by decide)
  · refine (formMixOrder_keeps _).after (by decide) ?_
    refine (saveStage_keeps _ _).after (by decide) ?_
    exact (updStage_keeps _ _ _).mono (by decide)
  all_goals exact refuse_keeps _ _ _

theorem removeSummary_keeps (k : StageKey) (s : State) : keeps [.completions] s (removeSummary k s) :=
  updCompletions_keeps (dropSummary k) s

theorem deleteStage_keeps (k : StageKey) (s : State) :
    keeps [.stages, .writes, .completions, .mixOrder, .queues] s (deleteStage k s) := by
  unfold deleteStage
  refine (formMixOrder_keeps _).after (by decide) ?_
  refine (writeThrough_keeps _ _).after (by decide) ?_
  refine (removeSummary_keeps _ _).after (by decide) ?_
  exact (setStages_keeps _ _).mono (by decide)

theorem stageDeleteOwn_keeps (x : Stage) (s : State) :
    keeps [.stages, .writes, .completions, .mixOrder, .queues] s (stageDeleteOwn x s).state := by
  unfold stageDeleteOwn
  split
  · split
    · exact refuse_keeps _ _ _
    · exact deleteStage_keeps _ _
  · split
    · exact refuse_keeps _ _ _
    · exact deleteStage_keeps _ _
  · split
    · exact refuse_keeps _ _ _
    · exact deleteStage_keeps _ _
  all_goals exact refuse_keeps _ _ _

theorem removeDecided_keeps (d : PendingDecision) (l : LineId) (s : State) :
    keeps [.lines, .queues] s (removeDecided d l s) := by
  have h : keeps [.lines, .queues] s (if d.fracture then removeCause .fracture l s else s) := by
    split
    · exact removeCause_keeps _ _ _
    · exact keeps_refl _ _
  unfold removeDecided
  dsimp only
  split
  · exact (removeCause_keeps _ _ _).after (by decide) h
  · exact h

theorem lowerPMax_keeps (k : StageKey) (n : Option Nat) (s : State) :
    keeps [.stages, .lines] s (lowerPMax k n s) := by
  unfold lowerPMax
  dsimp only
  split
  · split
    · refine (reformCeilings_keeps _ _).after (by decide) ?_
      exact (updStage_keeps _ _ _).mono (by decide)
    · exact (updStage_keeps _ _ _).mono (by decide)
  · exact keeps_refl _ _

theorem continueStage_keeps (x : Stage) (n : Option Nat) (s : State) :
    keeps [.stages, .writes, .lines, .queues] s (continueStage x n s) := by
  unfold continueStage
  dsimp only
  refine (saveStage_keeps _ _).after (by decide) ?_
  refine (updStage_keeps _ _ _).after (by decide) ?_
  split
  · exact (removeDecided_keeps _ _ _).after (by decide) ((lowerPMax_keeps _ _ _).mono (by decide))
  · exact (lowerPMax_keeps _ _ _).mono (by decide)

theorem decideContinueOwn_keeps (a : DecideArgs) (x : Stage) (s : State) :
    keeps [.stages, .writes, .lines, .queues] s (decideContinueOwn a x s).state := by
  unfold decideContinueOwn
  split
  · split
    · exact continueStage_keeps _ _ _
    · exact refuse_keeps _ _ _
  · exact refuse_keeps _ _ _

theorem endByConsole_keeps (x : Stage) (st : StageStatus) (c : EndCause) (r : EndReason) (s : State) :
    keeps [.stages, .writes, .completions, .lines, .mixOrder, .queues] s (endByConsole x st c r s) := by
  have hf : ∀ l v, keeps [.stages, .writes, .completions, .lines, .mixOrder, .queues] s
      (if st = .complete then completeStage l x.key c v s else finishStage l x.key st c v s) := by
    intro l v
    split
    · exact (completeStage_keeps _ _ _ _ _).mono (by decide)
    · exact (finishStage_keeps _ _ _ _ _ _).mono (by decide)
  unfold endByConsole
  dsimp only
  split
  · exact (closeLine_keeps _ _ _).after (by decide) (hf _ _)
  · exact (formMixOrder_keeps _).after (by decide) (hf _ _)

theorem decideCloseOwn_keeps (x : Stage) (s : State) :
    keeps [.stages, .writes, .completions, .lines, .mixOrder, .queues] s (decideCloseOwn x s).state := by
  unfold decideCloseOwn
  split
  · exact endByConsole_keeps _ _ _ _ _
  · exact refuse_keeps _ _ _

theorem decideAbandonOwn_keeps (x : Stage) (s : State) :
    keeps [.stages, .writes, .completions, .lines, .mixOrder, .queues] s (decideAbandonOwn x s).state := by
  unfold decideAbandonOwn
  split
  · exact endByConsole_keeps _ _ _ _ _
  · exact refuse_keeps _ _ _

theorem decideResumeOwn_keeps (x : Stage) (s : State) :
    keeps [.stages, .writes, .mixOrder, .queues] s (decideResumeOwn x s).state := by
  unfold decideResumeOwn
  split
  · refine (formMixOrder_keeps _).after (by decide) ?_
    refine (saveStage_keeps _ _).after (by decide) ?_
    exact (updStage_keeps _ _ _).mono (by decide)
  · exact refuse_keeps _ _ _

/-! ### Line requests -/

theorem lineRequest_keeps {A : List Part} (n : Nat) (o : LineId → State → Reply) (s : State)
    (h : ∀ l, keeps A s (o l s).state) : keeps A s (lineRequest n o s).state := by
  unfold lineRequest
  refine guard_keeps _ _ ?_
  split
  · exact h _
  · exact refuse_keeps _ _ _

theorem lineConfigReply_keeps (a : LineConfigArgs) (s : State) :
    keeps [.lines, .meters, .lineSettings, .writes] s (lineConfigReply a s).state := by
  unfold lineConfigReply
  refine guard_keeps _ _ ?_
  split
  · exact refuse_keeps _ _ _
  · split
    · refine (writeThrough_keeps _ _).after (by decide) ?_
      exact (updLine_keeps_all _ _ _).mono (by decide)
    · refine (writeThrough_keeps _ _).after (by decide) ?_
      exact (updLine_keeps_all _ _ _).mono (by decide)
    all_goals exact refuse_keeps _ _ _

theorem lineWatchReply_keeps (a : LineWatchArgs) (s : State) : keeps [.lines] s (lineWatchReply a s).state := by
  unfold lineWatchReply
  refine guard_keeps _ _ ?_
  split
  · exact refuse_keeps _ _ _
  · split
    · exact updLine_keeps _ _ s (by intro; rfl) (by intro; rfl)
    · exact refuse_keeps _ _ _

theorem lineUnwatchOwn_keeps (l : LineId) (s : State) : keeps [.lines] s (lineUnwatchOwn l s).state := by
  unfold lineUnwatchOwn
  split
  · exact updLine_keeps l _ s (by intro; rfl) (by intro; rfl)
  · exact refuse_keeps _ _ _

theorem lineIsolateOwn_keeps (l : LineId) (s : State) : keeps [.lines] s (lineIsolateOwn l s).state := by
  unfold lineIsolateOwn
  split <;> first
    | exact refuse_keeps _ _ _
    | exact updLine_keeps l _ s (by intro; rfl) (by intro; rfl)

theorem lineReturnOwn_keeps (l : LineId) (s : State) : keeps [.lines] s (lineReturnOwn l s).state := by
  unfold lineReturnOwn
  dsimp only
  split
  · exact setLine_keeps l _ s (by rfl) (by rfl)
  · exact refuse_keeps _ _ _

theorem setHoldAll_keeps (b : Bool) (s : State) : keeps [.holdAll] s { s with holdAll := b } := by
  refine ⟨rfl, fun q hq => ?_⟩
  cases q <;> first | (exfalso; apply hq; decide) | (intro _; exact rfl) | (repeat' first | exact rfl | apply And.intro)

theorem holdAllReply_keeps (s : State) : keeps [.holdAll, .lines] s (holdAllReply s).state := by
  unfold holdAllReply
  refine guard_keeps _ _ ?_
  split
  · exact keeps_refl _ _
  · refine accept_keeps _ ?_
    refine (forLines_keeps (A := [.lines]) _ _ (fun l s => addCause_keeps _ _ _)).after (by decide) ?_
    exact (setHoldAll_keeps _ _).mono (by decide)

theorem releaseAllReply_keeps (s : State) : keeps [.holdAll, .lines, .queues] s (releaseAllReply s).state := by
  unfold releaseAllReply
  refine guard_keeps _ _ ?_
  split
  · refine accept_keeps _ ?_
    refine (forLines_keeps (A := [.lines, .queues]) _ _ (fun l s => removeCause_keeps _ _ _)).after (by decide) ?_
    exact (setHoldAll_keeps _ _).mono (by decide)
  · exact keeps_refl _ _

/-! ### Grout and uplift requests -/

theorem batchAlerts_keeps (c n : Nat) (s : State) : keeps [.queues] s (batchAlerts c n s) := by
  have h : keeps [.queues] s
      (if s.grout.mixOrder ≠ 0 ∧ c ≠ s.grout.mixOrder then postPart .offOrder (some (n : Int)) s else s) := by
    split
    · exact postPart_keeps _ _ _
    · exact keeps_refl _ _
  unfold batchAlerts
  dsimp only
  split
  · exact (postPart_keeps _ _ _).after (by decide) h
  · exact h

theorem addBatch_keeps (b : Batch) (s : State) : keeps [.batches, .account] s (s.updGrout (Grout.addBatch b)) := by
  refine ⟨rfl, fun q hq => ?_⟩
  cases q <;> first | (exfalso; apply hq; decide) | (intro _; exact rfl) | (repeat' first | exact rfl | apply And.intro)

theorem takeBatch_keeps (a : BatchArgs) (s : State) :
    keeps [.batches, .account, .aged, .lines, .stages, .queues] s (takeBatch a s) := by
  have h : ∀ n b c, keeps [.batches, .account, .aged, .lines, .stages, .queues] s
      (tankClassFrom n ((batchAlerts a.cls c s).updGrout (Grout.addBatch b))) := by
    intro n b c
    refine (tankClassFrom_keeps _ _).after (by decide) ?_
    refine (addBatch_keeps _ _).after (by decide) ?_
    exact (batchAlerts_keeps _ _ _).mono (by decide)
  unfold takeBatch
  dsimp only
  split
  · exact (decideAged_keeps _).after (by decide) (h _ _ _)
  · exact h _ _ _

theorem batchReportReply_keeps (a : BatchArgs) (s : State) :
    keeps [.batches, .account, .aged, .lines, .stages, .queues] s (batchReportReply a s).state := by
  unfold batchReportReply
  refine guard_keeps _ _ ?_
  split
  · exact refuse_keeps _ _ _
  split
  · exact refuse_keeps _ _ _
  · exact takeBatch_keeps _ _

theorem tankDumpReply_keeps (s : State) : keeps [.batches, .aged, .lines, .queues] s (tankDumpReply s).state := by
  unfold tankDumpReply
  refine guard_keeps _ _ ?_
  refine (decideAged_keeps _).after (by decide) ?_
  exact (setBatches_keeps _ s (by intro; rfl)).mono (by decide)

theorem zeroGauges_keeps (s : State) : keeps [.gauges] s (zeroGauges s) := by
  unfold zeroGauges
  refine foldl_keeps _ _ _ (fun s g => ?_)
  split
  · exact updGauge_keeps _ _ _
  · exact keeps_refl _ _

theorem upliftZeroReply_keeps (s : State) : keeps [.gauges, .warn, .queues] s (upliftZeroReply s).state := by
  unfold upliftZeroReply
  refine guard_keeps _ _ ?_
  split
  · exact refuse_keeps _ _ _
  · refine (formWarn_keeps _).after (by decide) ?_
    exact (zeroGauges_keeps _).mono (by decide)

theorem upliftClearReply_keeps (s : State) : keeps [.upliftStop, .lines, .queues] s (upliftClearReply s).state := by
  unfold upliftClearReply
  refine guard_keeps _ _ ?_
  split
  · exact keeps_refl _ _
  split
  · refine accept_keeps _ ?_
    refine (forLines_keeps (A := [.lines, .queues]) _ _ (fun l s => removeCause_keeps _ _ _)).after (by decide) ?_
    exact (setUpliftStop_keeps _ _).mono (by decide)
  · exact refuse_keeps _ _ _

/-! ### Part-wide requests -/

theorem narrowCounters_keeps (s : State) :
    keeps [.meters, .gauges, .portCounters, .queues, .level, .recordQueue, .stages] s (narrowCounters s) := by
  unfold narrowCounters
  dsimp only
  refine (setStages_keeps _ _).after (by decide) ?_
  refine (updRecordQueue_keeps _ _ (by intro; rfl) (by intro; rfl) (by intro; rfl) (by intro; rfl)).after
    (by decide) ?_
  refine (setLevel_keeps _ _).after (by decide) ?_
  refine (foldl_keeps (A := [.portCounters, .queues]) _ _ _ (fun s p =>
    updPort_keeps p PortRecord.narrow s (.inl (by decide)) (.inr rfl) (.inl (by decide)) (.inr rfl) (.inr rfl))).after
    (by decide) ?_
  refine (foldl_keeps (A := [.gauges]) _ _ _ (fun s g => updGauge_keeps _ _ _)).after (by decide) ?_
  exact (forLines_keeps (A := [.meters]) _ _ (fun l s =>
    updLine_keeps_records l _ s (by intro; rfl) (by intro; rfl))).mono (by decide)

theorem turnWideOff_keeps (s : State) :
    keeps [.meters, .gauges, .portCounters, .queues, .level, .recordQueue, .stages] s (turnWideOff s) := by
  have hp : ∀ k c l s, keeps [.queues] s (postLineSaturated k c l s) := by
    intro k c l s
    unfold postLineSaturated
    split
    · exact postLine_keeps _ _ _ _
    · exact keeps_refl _ _
  unfold turnWideOff
  dsimp only
  refine (foldl_keeps (A := [.queues]) _ _ _ (fun s d => postSaturated_keeps _ _ _)).after (by decide) ?_
  refine (forLines_keeps (A := [.queues]) _ _ (fun l s => ?_)).after (by decide) ((narrowCounters_keeps s).mono (by decide))
  exact (hp _ _ _ _).after (by decide) (hp _ _ _ _)

theorem changeGauges_keeps (b : Vector Bool 4) (s : State) :
    keeps [.gauges, .warn, .queues] s (changeGauges b s) := by
  have h : keeps [.gauges, .warn, .queues] s (gaugeIds.foldl (changeGauge b) s) := by
    refine foldl_keeps _ _ _ (fun s g => ?_)
    unfold changeGauge
    split <;> first | exact (updGauge_keeps _ _ _).mono (by decide) | exact keeps_refl _ _
  unfold changeGauges
  dsimp only
  split
  · exact h
  · exact (formWarn_keeps _).after (by decide) h

theorem setSettings_keeps (c : PartSettings) (s : State) : keeps [.settings] s { s with settings := c } := by
  refine ⟨rfl, fun q hq => ?_⟩
  cases q <;> first | (exfalso; apply hq; decide) | (intro _; exact rfl) | (repeat' first | exact rfl | apply And.intro)

theorem takeSettings_keeps (c : PartSettings) (s : State) :
    keeps [.settings, .writes, .meters, .gauges, .portCounters, .queues, .level, .recordQueue, .stages, .warn] s
      (takeSettings c s) := by
  have h : keeps [.settings, .writes, .meters, .gauges, .portCounters, .queues, .level, .recordQueue, .stages,
      .warn] s (writeThrough (.part c) { s with settings := c }) :=
    (writeThrough_keeps _ _).after (by decide) ((setSettings_keeps _ _).mono (by decide))
  unfold takeSettings
  dsimp only
  refine (changeGauges_keeps _ _).after (by decide) ?_
  split
  · exact (turnWideOff_keeps _).after (by decide) h
  · exact h

theorem partConfigReply_keeps (a : PartConfigArgs) (s : State) :
    keeps [.settings, .writes, .meters, .gauges, .portCounters, .queues, .level, .recordQueue, .stages, .warn] s
      (partConfigReply a s).state := by
  unfold partConfigReply
  refine guard_keeps _ _ ?_
  split
  · exact refuse_keeps _ _ _
  split
  · exact refuse_keeps _ _ _
  · exact takeSettings_keeps _ _

theorem switchReader_rest (n : Nat) (b : Bool) (r : Records) :
    (r.switchReader n b).completions = r.completions ∧ (r.switchReader n b).faults = r.faults ∧
    (r.switchReader n b).nextFault = r.nextFault ∧ (r.switchReader n b).latched = r.latched := by
  unfold Records.switchReader
  split <;> exact ⟨rfl, rfl, rfl, rfl⟩

theorem readerEnableReply_keeps (a : ReaderArgs) (s : State) :
    keeps [.recordQueue, .writes] s (readerEnableReply a s).state := by
  unfold readerEnableReply
  refine guard_keeps _ _ ?_
  split
  · refine (writeThrough_keeps _ _).after (by decide) ?_
    exact (updRecordQueue_keeps _ _ (fun r => (switchReader_rest _ _ r).1) (fun r => (switchReader_rest _ _ r).2.1)
      (fun r => (switchReader_rest _ _ r).2.2.1) (fun r => (switchReader_rest _ _ r).2.2.2)).mono (by decide)
  · exact refuse_keeps _ _ _

theorem clearChannel_keeps (n : Nat) (s : State) : keeps [.meters, .gauges, .level] s (clearChannel n s) := by
  unfold clearChannel
  split
  · exact (updLine_keeps_records _ _ s (by intro; rfl) (by intro; rfl)).mono (by decide)
  split
  · exact (updLine_keeps_records _ _ s (by intro; rfl) (by intro; rfl)).mono (by decide)
  split
  · exact (updGauge_keeps _ _ _).mono (by decide)
  · exact (setLevel_keeps _ _).mono (by decide)

theorem setUnaccounted_keeps (n : Nat) (s : State) :
    keeps [.account] s (s.updGrout (fun g => { g with unaccounted := n })) := by
  refine ⟨rfl, fun q hq => ?_⟩
  cases q <;> first | (exfalso; apply hq; decide) | (intro _; exact rfl) | (repeat' first | exact rfl | apply And.intro)

theorem clearAllCounters_keeps (s : State) :
    keeps [.meters, .gauges, .level, .portCounters, .queues, .recordQueue, .account] s (clearAllCounters s) := by
  unfold clearAllCounters
  dsimp only
  refine (setUnaccounted_keeps 0 _).after (by decide) ?_
  refine (updRecordQueue_keeps _ _ (by intro; rfl) (by intro; rfl) (by intro; rfl) (by intro; rfl)).after
    (by decide) ?_
  refine (foldl_keeps (A := [.portCounters, .queues]) _ _ _ (fun s p =>
    updPort_keeps p PortRecord.clearCounters s (.inl (by decide)) (.inr rfl) (.inl (by decide)) (.inr rfl)
      (.inr rfl))).after (by decide) ?_
  exact (foldl_keeps (A := [.meters, .gauges, .level]) _ _ _ (fun s n => clearChannel_keeps n s)).mono (by decide)

theorem clearCountersReply_keeps (n : Nat) (s : State) :
    keeps [.meters, .gauges, .level, .portCounters, .queues, .recordQueue, .account] s
      (clearCountersReply n s).state := by
  unfold clearCountersReply
  refine guard_keeps _ _ ?_
  split
  · exact clearAllCounters_keeps _
  split
  · exact (clearChannel_keeps _ _).mono (by decide)
  · exact refuse_keeps _ _ _

theorem clearLatchesReply_keeps (n : Nat) (s : State) : keeps [.faults] s (clearLatchesReply n s).state := by
  unfold clearLatchesReply
  refine guard_keeps _ _ ?_
  split
  · exact updFaults_keeps _ s (fun _ => rfl) (fun _ => rfl) (fun _ => rfl) (fun _ => rfl) (fun _ => rfl)
  split
  · exact updFaults_keeps _ s (fun _ => rfl) (fun _ => rfl) (fun _ => rfl) (fun _ => rfl) (fun _ => rfl)
  · exact refuse_keeps _ _ _

theorem setClock_keeps (c : Clock) (s : State) : keeps [.clock] s { s with clock := c } := by
  refine ⟨rfl, fun q hq => ?_⟩
  cases q <;> first | (exfalso; apply hq; decide) | (intro _; exact rfl) | (repeat' first | exact rfl | apply And.intro)

theorem setTimeReply_keeps (t : Nat) (s : State) : keeps [.clock] s (setTimeReply t s).state := by
  unfold setTimeReply
  refine guard_keeps _ _ ?_
  exact setClock_keeps _ _

theorem advanceExercise_keeps (s : State) : keeps [.exercise, .queues] s (advanceExercise s) := by
  unfold advanceExercise
  dsimp only
  generalize (if s.exercise < 8 then s.exercise + 1 else 0) = n
  split
  · refine (post_keeps _ _ _).after (by decide) ?_
    exact (setExercise_keeps _ _).mono (by decide)
  · exact (setExercise_keeps _ _).mono (by decide)

theorem exerciseStepReply_keeps (s : State) : keeps [.exercise, .queues] s (exerciseStepReply s).state := by
  unfold exerciseStepReply
  refine guard_keeps _ _ ?_
  split
  · exact refuse_keeps _ _ _
  · exact advanceExercise_keeps _

theorem resetLine_keeps (l : LineId) (s : State) :
    keeps [.lines, .cuts, .stages, .writes, .queues] s (resetLine l s) := by
  have h : keeps [.lines, .cuts, .stages, .writes, .queues] s
      ((cutGrant .reset l s).updLine l (Line.toStartCheck s.settings.travelTime)) := by
    refine (updLine_keeps l _ _ (by intro; rfl) (by intro; rfl)).after (by decide) ?_
    exact (cutGrant_keeps _ _ _).mono (by decide)
  unfold resetLine
  dsimp only
  split
  · exact keeps_refl _ _
  · split
    · exact (suspendStage_keeps _ _ _ _).after (by decide) h
    · exact h

theorem emptyQueues_keeps (s : State) : keeps [.queues] s (emptyQueues s) :=
  foldl_keeps _ _ _ (fun s p =>
    updPort_keeps p _ s (.inl (by decide)) (.inr rfl) (.inr rfl) (.inr rfl) (.inr rfl))

theorem setStartCheck_keeps (b : Bool) (s : State) :
    keeps [.startCheck] s (s.updStop (fun x => { x with startCheck := b })) := by
  refine ⟨rfl, fun q hq => ?_⟩
  cases q <;> first | (exfalso; apply hq; decide) | (intro _; exact rfl) | (repeat' first | exact rfl | apply And.intro)

theorem quietExercise_keeps (s : State) :
    keeps [.exercise, .holdAll] s { s with exercise := 0, holdAll := false } := by
  refine ⟨rfl, fun q hq => ?_⟩
  cases q <;> first | (exfalso; apply hq; decide) | (intro _; exact rfl) | (repeat' first | exact rfl | apply And.intro)

theorem warmReset_keeps (s : State) :
    keeps [.lockdown, .queues, .exercise, .holdAll, .lines, .cuts, .stages, .writes, .startCheck, .mixOrder] s
      (warmReset s) := by
  unfold warmReset
  dsimp only
  refine (formMixOrder_keeps _).after (by decide) ?_
  refine (settleStartCheck_keeps _).after (by decide) ?_
  refine (setStartCheck_keeps _ _).after (by decide) ?_
  refine (forLines_keeps (A := [.lines, .cuts, .stages, .writes, .queues]) _ _ resetLine_keeps).after (by decide) ?_
  refine (quietExercise_keeps _).after (by decide) ?_
  refine (emptyQueues_keeps _).after (by decide) ?_
  exact (setLockdown_keeps _ _).mono (by decide)

theorem resetReply_keeps (f : Nat) (s : State) :
    keeps [.lockdown, .queues, .exercise, .holdAll, .lines, .cuts, .stages, .writes, .startCheck, .mixOrder] s
      (resetReply f s).state := by
  unfold resetReply
  split
  · exact refuse_keeps _ _ _
  split
  · exact refuse_keeps _ _ _
  · exact accept_keeps _ (warmReset_keeps _)

/-! ### Events -/

theorem brokenFrame_keeps (p : Port) (act : State → State) (s : State)
    (h : keeps [.links, .portCounters, .queues] s (act s)) :
    keeps [.links, .portCounters, .queues] s (brokenFrame p act s) := by
  unfold brokenFrame
  split
  · exact h
  · exact h
  · exact countOverrun_keeps _ _
  · exact keeps_refl _ _

theorem countFraming_keeps (p : Port) (n : Receiver) (s : State) :
    keeps [.links, .portCounters, .queues] s (countFraming p n s) := by
  unfold countFraming
  dsimp only
  refine (postSaturated_keeps _ _ _).after (by decide) ?_
  exact updPort_keeps _ _ _ (.inr rfl) (.inl (by decide)) (.inl (by decide)) (.inr rfl) (.inr rfl)

theorem countCrc_keeps (p : Port) (s : State) : keeps [.links, .portCounters, .queues] s (countCrc p s) := by
  unfold countCrc
  dsimp only
  refine (postSaturated_keeps _ _ _).after (by decide) ?_
  exact updPort_keeps _ _ _ (.inr rfl) (.inl (by decide)) (.inl (by decide)) (.inr rfl) (.inr rfl)

theorem meteredPulse_keeps (l : LineId) (w : Nat) (s : State) :
    keeps [.lines, .stages, .batches, .account, .aged, .queues] s (meteredPulse l w s) := by
  have h : keeps [.lines, .stages, .batches, .account, .aged, .queues] s
      ((addProgress l (fun g => { g with v := min volumeTop (g.v + w) }) s).updLine l (Line.addPending w)) := by
    refine (updLine_keeps l _ _ ?_ ?_).after (by decide) ((addProgress_keeps _ _ _).mono (by decide))
    · intro x; unfold Line.addPending; split <;> rfl
    · intro x; unfold Line.addPending; split <;> rfl
  unfold meteredPulse
  dsimp only
  split
  · refine (consume_keeps _ _ _).after (by decide) ?_
    exact (advanceTransit_keeps _ _ _).after (by decide) h
  · exact h

theorem tickLine_keeps (l : LineId) (s : State) : keeps [.lines, .stages, .free] s (tickLine l s) := by
  have h : keeps [.lines, .stages, .free] s (s.updLine l (Line.tick s.settings.holdLimit)) :=
    (updLine_keeps l _ s (by intro; rfl) (by intro; rfl)).mono (by decide)
  have hf : ∀ n s, keeps [.free] s { s with free := n } := by
    intro n s
    refine ⟨rfl, fun q hq => ?_⟩
    cases q <;> first | (exfalso; apply hq; decide) | (intro _; exact rfl) | (repeat' first | exact rfl | apply And.intro)
  unfold tickLine tickStage
  dsimp only
  split
  · split
    · exact (hf _ _).after (by decide) ((addProgress_keeps _ _ _).after (by decide) h)
    · exact (addProgress_keeps _ _ _).after (by decide) h
  · exact (addProgress_keeps _ _ _).after (by decide) h

theorem timeoutHold_keeps (l : LineId) (s : State) :
    keeps [.lines, .mixOrder, .queues, .stages, .writes, .faults] s (timeoutHold l s) := by
  unfold timeoutHold
  dsimp only
  refine (enterFault_keeps _ _ _ _ _).after (by decide) ?_
  refine (withBound_keeps (A := [.stages, .writes, .queues]) _ _ _ (fun k => suspendStage_keeps _ _ _ _)).after
    (by decide) ?_
  exact (closeLine_keeps _ _ _).mono (by decide)

theorem expireKeepalive_keeps (l : LineId) (g : Grant) (s : State) :
    keeps [.lines, .mixOrder, .queues, .stages, .writes, .faults] s (expireKeepalive l g s) := by
  unfold expireKeepalive
  dsimp only
  refine (enterFault_keeps _ _ _ _ _).after (by decide) ?_
  refine (postLine_keeps _ _ _ _).after (by decide) ?_
  refine (withBound_keeps (A := [.stages, .writes, .queues]) _ _ _ (fun k => ?_)).after (by decide)
    ((closeLine_keeps _ _ _).mono (by decide))
  split
  · exact suspendStage_keeps _ _ _ _
  · exact (returnToReady_keeps _ _).mono (by decide)

theorem postSlip_keeps (p : Port) (n : Nat) (d : Int) (r : Reader × Bool × Bool) (s : State) :
    keeps [.queues] s (postSlip p n d r s) := by
  unfold postSlip
  split
  · exact (postSaturated_keeps _ _ _).after (by decide) (post_keeps _ _ _)
  · exact keeps_refl _ _

theorem appendRecord_keeps (e : InjectionRecord) (s : State) : keeps [.recordQueue, .queues] s (appendRecord e s) := by
  have h : keeps [.recordQueue, .queues] s (s.updRecord (fun r => { r with nextRecord := nextNumber r.nextRecord })) :=
    (updRecordQueue_keeps _ s (by intro; rfl) (by intro; rfl) (by intro; rfl) (by intro; rfl)).mono (by decide)
  unfold appendRecord
  dsimp only
  split
  · refine (postSlip_keeps _ _ _ _ _).after (by decide) ?_
    refine (postSlip_keeps _ _ _ _ _).after (by decide) ?_
    exact (updRecordQueue_keeps _ _ (by intro; rfl) (by intro; rfl) (by intro; rfl) (by intro; rfl)).after
      (by decide) h
  · exact h

theorem writeRecord_keeps (l : LineId) (k : StageKey) (s : State) :
    keeps [.lines, .recordQueue, .queues, .writes] s (writeRecord l k s) := by
  have h : ∀ e, keeps [.lines, .recordQueue, .queues, .writes] s
      (appendRecord e (s.updLine l (fun x => { x with recordTimer := some 0 }))) := by
    intro e
    refine (appendRecord_keeps _ _).after (by decide) ?_
    exact (updLine_keeps l _ s (by intro; rfl) (by intro; rfl)).mono (by decide)
  unfold writeRecord
  dsimp only
  split
  · split
    · exact (saveStage_keeps _ _).after (by decide) (h _)
    · exact h _
  · exact h _

/-- A change of the level period alone. -/
theorem updPeriod_keeps (f : Nat → Nat) (s : State) :
    keeps [.levelPeriod] s (s.updGrout (fun g => { g with levelPeriod := f g.levelPeriod })) := by
  refine ⟨rfl, fun q hq => ?_⟩
  cases q <;> first | (exfalso; apply hq; decide) | (intro _; exact rfl) | (repeat' first | exact rfl | apply And.intro)

theorem compareLevels_keeps (s : State) : keeps [.comparison, .queues] s (compareLevels s) := by
  have hc : ∀ f : Grout → Grout, (∀ g, ∃ a b c d, f g = { g with mismatch := a, matched := b, levelMismatch := c, difference := d }) →
      keeps [.comparison] s (s.updGrout f) := by
    intro f hf
    obtain ⟨a, b, c, d, e⟩ := hf s.grout
    have e' : s.updGrout f = s.updGrout (fun g =>
        { g with mismatch := a, matched := b, levelMismatch := c, difference := d }) := congrArg (fun g => { s with grout := g }) e
    rw [e']
    refine ⟨rfl, fun q hq => ?_⟩
    cases q <;> first | (exfalso; apply hq; decide) | (intro _; exact rfl) | (repeat' first | exact rfl | apply And.intro)
  have hg : ∀ n d, keeps [.comparison] s (s.updGrout (Grout.compareLevel n d)) := by
    intro n d
    refine hc _ (fun g => ?_)
    unfold Grout.compareLevel
    dsimp only
    split
    · exact ⟨_, _, _, _, rfl⟩
    · exact ⟨_, _, _, _, rfl⟩
  unfold compareLevels
  dsimp only
  split
  · split
    · exact (postPart_keeps _ _ _).after (by decide) ((hg _ _).mono (by decide))
    · exact (hg _ _).mono (by decide)
  · exact (hc _ (fun g => ⟨_, _, _, _, rfl⟩)).mono (by decide)

theorem countContact_keeps (b : Bool) (s : State) : keeps [.estop] s (s.updStop (StopUnit.countContact b)) := by
  refine ⟨rfl, fun q hq => ?_⟩
  cases b <;> cases q <;>
    first | (exfalso; apply hq; decide) | (intro _; exact rfl) | (repeat' first | exact rfl | apply And.intro)

theorem reportStoreFault_keeps (d : FaultDetail) (l : Option FaultLocation) (s : State) :
    keeps [.queues, .faults, .writes] s (reportStoreFault d l s) := by
  unfold reportStoreFault
  refine (enterFault_keeps _ _ _ _ _).after (by decide) ?_
  exact (postPart_keeps _ _ _).mono (by decide)

theorem losePower_keeps (k : StageKey) (s : State) :
    keeps [.stages, .writes, .queues, .faults] s (losePower k s) := by
  unfold losePower
  refine (suspendStage_keeps _ _ _ _).after (by decide) ?_
  exact (enterFault_keeps _ _ _ _ _).mono (by decide)

end Sys2Proof.Machine
end

