-- ==== Sys2Proof/Laws/Requests.lean ====
section
/-! SUPPORT. What taking a request does to the state it finds: one lemma per field, and the equation of a request taken by a
listening port. -/

namespace Sys2Proof.Machine

/-! ### The state once a request is heard -/

/-- The line record once a request is heard: only the grant's keepalive may have been restarted. -/
theorem heard_line (p : Port) (s : State) (l : LineId) :
    (heard p s).line l =
      if s.portGrant p = some l then
        { s.line l with grant := (s.line l).grant.map (fun g =>
            if g.phase = .live then { g with keepalive := g.keepalive.map Timer.restart } else g) }
      else s.line l := by
  have hp : (s.updPort p (fun x => { x with receiver := .answering })).portGrant p = s.portGrant p := rfl
  unfold heard restartKeepalive
  rw [hp]
  cases h : s.portGrant p with
  | none => simp
  | some m =>
    simp only [line_updLine, line_updPort, Option.some.injEq]
    by_cases e : l = m
    · subst e; simp
    · simp [e, Ne.symm e]

theorem heard_port (p q : Port) (s : State) :
    (heard p s).port q = if q = p then { s.port p with receiver := .answering } else s.port q := by
  unfold heard restartKeepalive
  split
  · rw [port_updLine, port_updPort]
  · rw [port_updPort]

/-- A block that holds neither lines nor ports is as it was. -/
theorem heard_rest {α : Type} (f : State → α) (p : Port) (s : State)
    (hl : ∀ s l g, f (State.updLine l g s) = f s) (hp : ∀ s q g, f (State.updPort q g s) = f s) :
    f (heard p s) = f s := by
  unfold heard restartKeepalive
  split
  · rw [hl, hp]
  · rw [hp]

variable (p : Port) (s : State)

@[simp] theorem heard_pending : (heard p s).pending = s.pending :=
  heard_rest _ p s (fun _ _ _ => rfl) (fun _ _ _ => rfl)
@[simp] theorem heard_store : (heard p s).store = s.store := heard_rest _ p s (fun _ _ _ => rfl) (fun _ _ _ => rfl)
@[simp] theorem heard_holdAll : (heard p s).holdAll = s.holdAll :=
  heard_rest _ p s (fun _ _ _ => rfl) (fun _ _ _ => rfl)
@[simp] theorem heard_gauges : (heard p s).gauges = s.gauges :=
  heard_rest _ p s (fun _ _ _ => rfl) (fun _ _ _ => rfl)
@[simp] theorem heard_level : (heard p s).level = s.level := heard_rest _ p s (fun _ _ _ => rfl) (fun _ _ _ => rfl)
@[simp] theorem heard_settings : (heard p s).settings = s.settings :=
  heard_rest _ p s (fun _ _ _ => rfl) (fun _ _ _ => rfl)
@[simp] theorem heard_grout : (heard p s).grout = s.grout := heard_rest _ p s (fun _ _ _ => rfl) (fun _ _ _ => rfl)
@[simp] theorem heard_stop : (heard p s).stop = s.stop := heard_rest _ p s (fun _ _ _ => rfl) (fun _ _ _ => rfl)
@[simp] theorem heard_exercise : (heard p s).exercise = s.exercise :=
  heard_rest _ p s (fun _ _ _ => rfl) (fun _ _ _ => rfl)
@[simp] theorem heard_record : (heard p s).record = s.record :=
  heard_rest _ p s (fun _ _ _ => rfl) (fun _ _ _ => rfl)
@[simp] theorem heard_connections : (heard p s).connections = s.connections :=
  heard_rest _ p s (fun _ _ _ => rfl) (fun _ _ _ => rfl)
@[simp] theorem heard_clock : (heard p s).clock = s.clock := heard_rest _ p s (fun _ _ _ => rfl) (fun _ _ _ => rfl)
@[simp] theorem heard_free : (heard p s).free = s.free := heard_rest _ p s (fun _ _ _ => rfl) (fun _ _ _ => rfl)

@[simp] theorem heard_stage? (k : StageKey) : (heard p s).stage? k = s.stage? k :=
  heard_rest (fun s => s.stage? k) p s (fun _ _ _ => rfl) (fun _ _ _ => rfl)
@[simp] theorem heard_counterTop : (heard p s).counterTop = s.counterTop :=
  heard_rest _ p s (fun _ _ _ => rfl) (fun _ _ _ => rfl)
@[simp] theorem heard_mode : (heard p s).mode = s.mode := heard_rest _ p s (fun _ _ _ => rfl) (fun _ _ _ => rfl)

/-- A part of the line record other than its grant is as it was. -/
theorem heard_line_part {α : Type} (f : Line → α) (l : LineId) (hf : ∀ x g, f { x with grant := g } = f x) :
    f ((heard p s).line l) = f (s.line l) := by
  rw [heard_line]
  split
  · exact hf _ _
  · rfl

@[simp] theorem heard_line_state (l : LineId) : ((heard p s).line l).state = (s.line l).state :=
  heard_line_part p s _ l (fun _ _ => rfl)
@[simp] theorem heard_line_stage (l : LineId) : ((heard p s).line l).stage = (s.line l).stage :=
  heard_line_part p s _ l (fun _ _ => rfl)
@[simp] theorem heard_line_causes (l : LineId) : ((heard p s).line l).causes = (s.line l).causes :=
  heard_line_part p s _ l (fun _ _ => rfl)
@[simp] theorem heard_line_settings (l : LineId) : ((heard p s).line l).settings = (s.line l).settings :=
  heard_line_part p s _ l (fun _ _ => rfl)
@[simp] theorem heard_line_readback (l : LineId) : ((heard p s).line l).readback = (s.line l).readback :=
  heard_line_part p s _ l (fun _ _ => rfl)
@[simp] theorem heard_line_values (l : LineId) : ((heard p s).line l).values = (s.line l).values :=
  heard_line_part p s _ l (fun _ _ => rfl)
@[simp] theorem heard_line_classes (l : LineId) : ((heard p s).line l).classes = (s.line l).classes :=
  heard_line_part p s _ l (fun _ _ => rfl)
@[simp] theorem heard_line_holdTimer (l : LineId) : ((heard p s).line l).holdTimer = (s.line l).holdTimer :=
  heard_line_part p s _ l (fun _ _ => rfl)

/-- The port that holds a line's grant is as it was. -/
@[simp] theorem heard_line_owner (l : LineId) : ((heard p s).line l).owner = (s.line l).owner := by
  rw [heard_line]
  split
  · simp only [Line.owner, Option.map_map]
    congr 1
    funext g
    simp only [Function.comp_apply]
    split <;> rfl
  · rfl

@[simp] theorem heard_portGrant (q : Port) : (heard p s).portGrant q = s.portGrant q := by
  unfold State.portGrant
  simp only [heard_line_owner]

@[simp] theorem heard_anyLive : (heard p s).anyLive = s.anyLive := by
  unfold State.anyLive State.anyLine
  simp only [heard_line_state]

@[simp] theorem heard_carrier? (k : StageKey) : (heard p s).carrier? k = s.carrier? k := by
  unfold State.carrier?
  simp only [heard_line_state, heard_line_stage]

/-! ### The equation of a request -/

variable {p s}

theorem receive_listening (act : State → State) (h : listening s p) : receive p act s = act (heard p s) := by
  unfold receive heard
  rcases h with h | h <;> rw [h]

/-- A request taken by a listening port (R168, R170). -/
theorem request_listening {α : Type} (k : RequestKind) (t : Byte) (b : Body α) (own : α → State → Reply)
    (h : listening s p) :
    request k p t b own s = .next (respond p k.code t
      (if k.permits p then
        match b with
        | .args a => own a (heard p s)
        | .wrongLength _ => refuse .badArgument (heard p s)
      else refuse .notPermitted (heard p s))) := by
  exact (congrArg Host.Outcome.next (receive_listening _ h)).trans (by cases b <;> rfl)

/-- A request of the right length within its port's role: its own checks and effect decide (R170). -/
theorem request_taken {α : Type} (k : RequestKind) (t : Byte) (a : α) (own : α → State → Reply)
    (h : listening s p) (hk : k.permits p = true) :
    request k p t (.args a) own s = .next (respond p k.code t (own a (heard p s))) := by
  rw [request_listening k t _ own h, hk]
  rfl

/-- The answer to an accepted request (R170). -/
theorem respond_accept (k : RequestKind) (t : Byte) (c : Contents) :
    respond p k.code t (accept c s) = answering p k t .ok c s := rfl

/-- The answer to a refused request is its header alone (R170). -/
theorem respond_refuse (k : RequestKind) (t : Byte) (st : Status) :
    respond p k.code t (refuse st s) = answering p k t st .header s := rfl

/-- A request that must be taken outside LOCKDOWN goes on to its other checks there (R149). -/
theorem unlessLocked_free (r : Reply) (h : s.stop.lockdown = false) : unlessLocked s r = r := by
  unfold unlessLocked
  rw [h]
  rfl

/-- In LOCKDOWN such a request is refused LOCKED (R149). -/
theorem unlessLocked_locked (r : Reply) (h : s.stop.lockdown = true) : unlessLocked s r = refuse .locked s := by
  unfold unlessLocked
  rw [h]
  rfl

end Sys2Proof.Machine
end

