-- ==== Sys2Proof/Laws/Stages.lean ====
section
/-! SUPPORT. The stage table and the line transitions, once for every prover: what a lookup finds after each table
operation, and what a line is after a cause, a freed cause or a close. -/

namespace Sys2Proof.Machine

/-! ### The stage table -/

@[simp] theorem lookupStage_nil (k : StageKey) : lookupStage k [] = none := rfl

theorem lookupStage_cons (k : StageKey) (x : Stage) (xs : List Stage) :
    lookupStage k (x :: xs) = if x.key = k then some x else lookupStage k xs := by
  simp [lookupStage, List.find?_cons]
  split <;> simp_all

/-- A lookup finds a stage with the key asked for. -/
theorem key_of_lookupStage {k : StageKey} {x : Stage} {xs : List Stage} (h : lookupStage k xs = some x) : x.key = k := by
  simpa using List.find?_some h

/-- One stage changed, its key kept: a lookup of its key finds it changed, every other lookup is as before. -/
theorem lookupStage_mapStage (k j : StageKey) (f : Stage → Stage) (hf : ∀ x, (f x).key = x.key) (xs : List Stage) :
    lookupStage j (mapStage k f xs) = if j = k then (lookupStage k xs).map f else lookupStage j xs := by
  induction xs with
  | nil => simp [mapStage]
  | cons x xs ih =>
    simp only [mapStage, List.map_cons, lookupStage_cons] at ih ⊢
    by_cases hj : j = k <;> by_cases hx : x.key = k <;> by_cases hxj : x.key = j <;> simp_all

/-- A record put in its place: a lookup of its key finds it, every other lookup is as before. -/
theorem lookupStage_insertStage (x : Stage) (j : StageKey) (xs : List Stage) :
    lookupStage j (insertStage x xs) = if j = x.key then some x else lookupStage j xs := by
  induction xs with
  | nil => simp only [insertStage, lookupStage_cons, lookupStage_nil, eq_comm (a := j)]
  | cons y ys ih =>
    simp only [insertStage]
    split
    · by_cases hj : x.key = j <;> simp_all [lookupStage_cons, eq_comm (a := j)]
    · split
      · by_cases hj : x.key = j <;> simp_all [lookupStage_cons, eq_comm (a := j)]
      · by_cases hj : j = x.key <;> by_cases hy : y.key = j <;> simp_all [lookupStage_cons]

/-- A record removed: its key is found no more, every other lookup is as before. -/
theorem lookupStage_removeStage (k j : StageKey) (xs : List Stage) :
    lookupStage j (removeStage k xs) = if j = k then none else lookupStage j xs := by
  induction xs with
  | nil => simp [removeStage]
  | cons x xs ih =>
    simp only [removeStage, List.filter_cons, lookupStage_cons] at ih ⊢
    by_cases hj : j = k <;> by_cases hx : x.key = k <;> by_cases hxj : x.key = j <;> simp_all [lookupStage_cons]

@[simp] theorem stage_setStages (s : State) (xs : List Stage) (k : StageKey) :
    (s.setStages xs).stage? k = lookupStage k xs := rfl

/-- One stage of the state changed, its key kept. -/
theorem stage_updStage (s : State) (k j : StageKey) (f : Stage → Stage) (hf : ∀ x, (f x).key = x.key) :
    (s.updStage k f).stage? j = if j = k then (s.stage? k).map f else s.stage? j :=
  lookupStage_mapStage k j f hf s.store.stages

/-! ### The completion list -/

theorem mem_dropSummary {k : StageKey} {m : Summary} {xs : List Summary} :
    m ∈ dropSummary k xs ↔ m ∈ xs ∧ m.key ≠ k := by
  simp [dropSummary]

theorem mem_putSummary {m n : Summary} {xs : List Summary} :
    n ∈ putSummary m xs ↔ (n ∈ xs ∧ n.key ≠ m.key) ∨ n = m := by
  simp [putSummary, mem_dropSummary]

/-- A removal keeps one summary of each key. -/
theorem nodup_dropSummary (k : StageKey) {xs : List Summary} (h : (xs.map Summary.key).Nodup) :
    ((dropSummary k xs).map Summary.key).Nodup :=
  h.sublist (List.filter_sublist.map _)

/-- A summary put into the list keeps one summary of each key. -/
theorem nodup_putSummary (m : Summary) {xs : List Summary} (h : (xs.map Summary.key).Nodup) :
    ((putSummary m xs).map Summary.key).Nodup := by
  rw [putSummary, List.map_append, List.nodup_append]
  refine ⟨nodup_dropSummary _ h, by simp, ?_⟩
  intro a ha b hb
  simp only [List.map_cons, List.map_nil, List.mem_singleton] at hb
  obtain ⟨n, hn, rfl⟩ := List.mem_map.1 ha
  exact hb ▸ (mem_dropSummary.1 hn).2

/-! ### The keys of a table, and its copy -/

theorem inKeyOrder_iff (xs : List Stage) :
    inKeyOrder xs ↔ (xs.map Stage.key).Pairwise (fun j k => keyBefore j k = true) := by
  simp [inKeyOrder, List.pairwise_map]

/-- Whether stages and summaries go together is a matter of their keys. -/
theorem tableOk_congr {xs ys : List Stage} {ms ns : List Summary} (hx : xs.map Stage.key = ys.map Stage.key)
    (hm : ms.map Summary.key = ns.map Summary.key) (h : tableOk xs ms) : tableOk ys ns := by
  obtain ⟨ho, hl, hn, hs⟩ := h
  refine ⟨(inKeyOrder_iff ys).2 (hx ▸ (inKeyOrder_iff xs).1 ho), ?_, hm ▸ hn, ?_⟩
  · have e : xs.length = ys.length := by simpa using congrArg List.length hx
    omega
  · intro m h
    have : m.key ∈ ms.map Summary.key := hm ▸ List.mem_map_of_mem h
    obtain ⟨n, hn, e⟩ := List.mem_map.1 this
    exact e ▸ hx ▸ hs n hn

theorem map_key_mapStage (k : StageKey) (f : Stage → Stage) (hf : ∀ x, (f x).key = x.key) (xs : List Stage) :
    (mapStage k f xs).map Stage.key = xs.map Stage.key := by
  simp only [mapStage, List.map_map]
  refine List.map_congr_left (fun x _ => ?_)
  by_cases h : x.key = k <;> simp [h, hf]

/-- The keys after a record is put in its place rest on the keys before alone. -/
theorem map_key_insertStage {x y : Stage} {xs ys : List Stage} (hk : x.key = y.key)
    (h : xs.map Stage.key = ys.map Stage.key) :
    (insertStage x xs).map Stage.key = (insertStage y ys).map Stage.key := by
  induction xs generalizing ys with
  | nil => cases ys <;> simp_all [insertStage]
  | cons a as ih =>
    cases ys with
    | nil => simp at h
    | cons b bs =>
      simp only [List.map_cons, List.cons.injEq] at h
      simp only [insertStage, h.1, hk]
      split
      · simp_all
      · split
        · simp_all
        · simp [h.1, ih h.2]

theorem map_key_removeStage (k : StageKey) (xs : List Stage) :
    (removeStage k xs).map Stage.key = (xs.map Stage.key).filter (fun j => j != k) := by
  simp [removeStage, List.filter_map, Function.comp_def]

/-- Nothing more completes than was begun. -/
theorem Store.copyAfter_of_le {n : Nat} {x : Store} (h : x.writes.length ≤ n) :
    x.copyAfter n = x.copyAfter x.writes.length := by
  simp [Store.copyAfter, List.take_of_length_le h]

/-- What holds after each number of writes up to all of them holds after any number. -/
theorem Store.forall_copyAfter {P : NvCopy → Prop} {x : Store} (h : ∀ n ≤ x.writes.length, P (x.copyAfter n)) (n : Nat) :
    P (x.copyAfter n) := by
  by_cases hn : n ≤ x.writes.length
  · exact h n hn
  · rw [Store.copyAfter_of_le (by omega)]
    exact h _ (Nat.le_refl _)

/-- A write begun leaves the copy as it was after each number of the writes before it, and takes effect after them. -/
theorem Store.copyAfter_begun (x : Store) (stages : List Stage) (w : StoreWrite) (n : Nat) :
    Store.copyAfter n { x with stages := stages, writes := x.writes ++ [w] } =
      if n ≤ x.writes.length then x.copyAfter n else (x.copyAfter x.writes.length).apply w := by
  unfold Store.copyAfter
  split
  · rw [List.take_append_of_le_length ‹_›]
  · rw [List.take_of_length_le (by simp; omega), List.take_length, List.foldl_append]
    rfl

/-- A write begun, with the change of the working table that it writes, keeps the copy in order. -/
theorem Store.copyOk_begun {x : Store} (h : x.copyOk) (w : StoreWrite) (stages : List Stage)
    (ht : tableOk ((x.copyAfter x.writes.length).apply w).stages ((x.copyAfter x.writes.length).apply w).completions)
    (hk : x.fault = false →
      ((x.copyAfter x.writes.length).apply w).stages.map Stage.key = stages.map Stage.key) :
    Store.copyOk { x with stages := stages, writes := x.writes ++ [w] } := by
  refine ⟨fun n => ?_, fun hf => ?_⟩
  · rw [Store.copyAfter_begun]
    split
    · exact h.1 n
    · exact ht
  · rw [Store.copyAfter_begun]
    simpa using hk hf

/-- A write completed keeps the copy in order. -/
theorem Store.copyOk_completed {x : Store} {w : StoreWrite} {rest : List StoreWrite} (h : x.copyOk)
    (hw : x.writes = w :: rest) : Store.copyOk { x with writes := rest, nv := x.nv.apply w } := by
  have e (n : Nat) : Store.copyAfter n { x with writes := rest, nv := x.nv.apply w } = x.copyAfter (n + 1) := by
    simp [Store.copyAfter, hw]
  refine ⟨fun n => e n ▸ h.1 (n + 1), fun hf => ?_⟩
  rw [e]
  simpa [hw] using h.2 hf

/-! ### Lines -/

/-- A line is its record, its settings and its meters. -/
theorem Line.eq_of_parts {x y : Line} (hr : x.recordPart = y.recordPart) (hs : x.settingsPart = y.settingsPart)
    (hm : x.meterPart = y.meterPart) : x = y := by
  cases x; cases y
  simp_all [Line.recordPart, Line.settingsPart, Line.meterPart]

/-- Where a change leaves the three line parts alone, every line is as before. -/
theorem keeps.line {A : List Part} {s t : State} (h : keeps A s t) (hr : .lines ∉ A) (hs : .lineSettings ∉ A)
    (hm : .meters ∉ A) (l : LineId) : t.line l = s.line l :=
  Line.eq_of_parts (h.2 .lines hr l) (h.2 .lineSettings hs l) (h.2 .meters hm l)

/-- Where a change leaves the stage table alone, every lookup is as before. -/
theorem keeps.stage {A : List Part} {s t : State} (h : keeps A s t) (hA : .stages ∉ A) (k : StageKey) :
    t.stage? k = s.stage? k := by
  have : t.store.stages = s.store.stages := h.2 .stages hA
  simp [State.stage?, this]

@[simp] theorem line_post (a : Posting) (r : List Port) (s : State) (l : LineId) : (post a r s).line l = s.line l :=
  (post_keeps a r s).line (by decide) (by decide) (by decide) l

@[simp] theorem line_postLine (m : LineId) (k : AlertKind) (d : Option Int) (s : State) (l : LineId) :
    (postLine m k d s).line l = s.line l :=
  (postLine_keeps m k d s).line (by decide) (by decide) (by decide) l

@[simp] theorem line_formMixOrder (s : State) (l : LineId) : (formMixOrder s).line l = s.line l :=
  (formMixOrder_keeps s).line (by decide) (by decide) (by decide) l

/-- A cause requested of a line. -/
theorem line_addCause (c : HoldCause) (l m : LineId) (s : State) :
    (addCause c l s).line m = if m = l then (s.line l).held c else s.line m := by
  unfold addCause Line.held
  by_cases hm : m = l <;> by_cases hc : c ∈ (s.line l).causes <;> cases hs : (s.line l).state <;>
    simp_all [Line.enterHolding, line_setLine]

/-- A cause not in the set is taken off in vain. -/
theorem withoutCause_absent {c : HoldCause} {set : List HoldCause} (h : c ∉ set) : withoutCause c set = set := by
  unfold withoutCause
  rw [List.filter_eq_self]
  intro d hd
  simpa using fun e : d = c => h (e ▸ hd)

/-- A cause taken off a line. -/
theorem line_removeCause (c : HoldCause) (l m : LineId) (s : State) :
    (removeCause c l s).line m = if m = l then (s.line l).freed c else s.line m := by
  unfold removeCause Line.freed
  by_cases hc : c ∈ (s.line l).causes
  · by_cases hm : m = l <;> cases hs : (s.line l).state <;> by_cases he : withoutCause c (s.line l).causes = [] <;>
      simp_all [line_setLine]
  · by_cases hm : m = l <;> cases hs : (s.line l).state <;> simp_all [withoutCause_absent hc] <;> rw [← hs]

/-- A line closed with its grant ENDING. -/
theorem line_closeLine (r : EndReason) (l m : LineId) (s : State) :
    (closeLine r l s).line m = if m = l then (s.line l).closed r s.settings.travelTime else s.line m := by
  simp only [closeLine, line_formMixOrder, line_updLine]
  rfl

end Sys2Proof.Machine
end

