-- ==== Sys2Proof/Tests/Slice0.lean ====
section
/-! SUPPORT. The author's own checks: ill-formed commands refused, frames written out from section 10.6, the worked case
of section 5.8, and for each statement of Certificates/Slice0/Obligations.lean states and operands that meet its
hypotheses, its clauses at their boundaries. -/

namespace Sys2Proof.Tests

set_option Elab.async false

open Sys2Proof Sys2Proof.Machine

/-! ### Small states -/

/-- The state a command leaves. -/
def after (c : Instr) (s : State) : State := match exec c s with | .next t => t | _ => s

/-- The status with which a command is answered at a port; none when it is not answered. -/
def verdict (p : Port) (c : Instr) (s : State) : Option Status := ((after c s).port p).answer.map Answer.status

def key : StageKey := ⟨214, 3⟩
def key2 : StageKey := ⟨216, 1⟩
def key3 : StageKey := ⟨218, 2⟩

/-- A channel in VALID with a value. -/
def okChannel (v : Int) : Channel := ⟨.valid, 0, v, false, none, ⟨0, false⟩⟩

/-- A channel in another state. -/
def channelIn (v : Validity) (bad : Nat) : Channel := ⟨v, bad, 2000, false, some 2000, ⟨0, false⟩⟩

/-- A present line in IDLE with VALID channels. -/
def idleLine : Line :=
  { Line.fresh LineSettings.default 8 with
    state := .idle, readback := .closed, travel := none, startCheck := false, pressure := okChannel 2000,
    flow := okChannel 60 }

def grantOf (p : Port) (started : Bool) : Grant :=
  ⟨p, .live, started, if started then none else some ⟨60, 7⟩, some ⟨3, 2⟩, none, none⟩

/-- A line with a LIVE grant of P0, bound to the stage of the worked case, with 8 pulses since its last sample. -/
def boundLine (st : LineState) : Line :=
  { idleLine with
    state := st, stage := some key, command := .opened, readback := .opened,
    grant := some (grantOf .p0 (st = .injecting ∨ st = .holding)), classes := some ⟨2, 2, 0, 0, some 2200⟩,
    decision := some ⟨0, 0, 0, 0⟩, recordTimer := some 10, holdTimer := if st = .holding then some 30 else none,
    causes := if st = .holding then [.console] else [], pulses := 8 }

/-- The fields of the worked case, for any key. -/
def fieldsOf (k : StageKey) : StageFields :=
  { key := k, order := 1, top := 2400, bottom := 2900, pMax := 3000, vMax := 2500, jMax := 300000, qRef := 10,
    tRef := 60, band := 5, margin := 5, fractureDrop := 20, fractureRise := 50, startClass := 3, thickStep := 500,
    riseThreshold := 100, policy := .hold, neighbours := [216], prereqs := [], overridden := false }

def stageOf (st : StageStatus) (k : StageKey) : Stage :=
  { fields := fieldsOf k, waiting := false, status := st, endCause := none, decision := ⟨false, false⟩,
    progress := some ⟨610000, 500, 3, 0, 0, 0, 60, 0, 0, 3⟩, startTime := some 0, endTime := none }

def gaugeAt (u : Int) : Gauge := ⟨okChannel u, some 0, u, false, 0, 0, 0, true⟩

/-- A part at work: every line IDLE, one batch of class 2, four judged gauges, the stages as given. -/
def part (stages : List Stage) : State :=
  { State.reset with
    store := { State.reset.store with stages := stages }
    lines := Vector.replicate 8 idleLine
    gauges := Vector.replicate 4 (gaugeAt 0)
    level := okChannel 400
    grout := { Grout.fresh with batches := [⟨1, 2, 400, 400000, 0⟩], nextBatch := 2 }
    stop := ⟨false, false, false, false, 0, 0, false, true, false⟩
    clock := ⟨0, 100, true, none⟩ }

def ready : State := part [stageOf .ready key]

/-- A part whose line L3 is in a state of a LIVE grant of P0 and carries an ACTIVE stage. -/
def busy (st : LineState) : State := (part [stageOf .active key]).setLine 3 (boundLine st)

/-- The same with its line changed. -/
def busyWith (st : LineState) (f : Line → Line) : State := (busy st).updLine 3 f

/-- A state with LOCKDOWN in force. -/
def locked (s : State) : State := s.updStop (fun u => { u with lockdown := true })

/-- A state with a port's receiver in a state, its answer being sent or not. -/
def hearing (p : Port) (r : Receiver) (sending : Bool) (s : State) : State :=
  s.updPort p (fun x => { x with receiver := r, sending := sending })

/-- A line sample with the valve read OPEN, and with it read CLOSED. -/
def openSample (current : Nat) : Instr := .lineSampleEvent 3 current false true false
def closedSample (current : Nat) : Instr := .lineSampleEvent 3 current false false true

/-- A STAGE_WRITE of the worked case. -/
def writeArgs (k : StageKey) : StageWriteArgs :=
  { clear := 0, key := k, order := 1, top := 2400, bottom := 2900, pMax := 3000, vMax := 2500, jMax := 300000,
    qRef := 10, tRef := 60, band := 5, margin := 5, fractureDrop := 20, fractureRise := 50, startClass := 2,
    thickStep := 500, riseThreshold := 100, policy := 0, overridden := 0, neighbourCount := 1,
    neighbourSlots := [216, 0, 0, 0], prereqCount := 1, prereqSlots := [key2, ⟨0, 0⟩, ⟨0, 0⟩, ⟨0, 0⟩] }

/-- The default part settings as PART_CONFIG carries them. -/
def configArgs : PartConfigArgs := ⟨8, 60, 3, 20, 10, 90, 100, 80, 2000, 80, 3, 50, 100, 10, 0, 15⟩

/-! ### Ill-formed commands -/

theorem test_claim_operands_over_a_byte_are_ill_formed :
    Instr.wf (.claim .p0 0 (.args ⟨256, key⟩)) = false ∧ Instr.wf (.claim .p0 0 (.args ⟨0, ⟨65536, 1⟩⟩)) = false ∧
    Instr.wf (.claim .p0 0 (.args ⟨0, ⟨1, 256⟩⟩)) = false ∧ Instr.wf (.claim .p0 0 (.args ⟨255, ⟨65535, 255⟩⟩)) = true := by
  decide +kernel

theorem test_a_body_of_the_kinds_own_length_is_no_wrong_length :
    Instr.wf (.start .p0 0 (.wrongLength [])) = false ∧ Instr.wf (.start .p0 0 (.wrongLength [0])) = true ∧
    Instr.wf (.start .p0 0 (.wrongLength (List.replicate 241 0))) = false := by decide +kernel

theorem test_pump_status_and_readings_fit_their_bytes :
    Instr.wf (.pumpStatus .p0 0 (.args ⟨256, 0⟩)) = false ∧ Instr.wf (.stageRead .c0 0 (.args ⟨0, key, 256⟩)) = false ∧
    Instr.wf (.lineRead .c0 0 (.args 256)) = false ∧ Instr.wf (.readFaults .c0 0 (.args ⟨0, 256⟩)) = false ∧
    Instr.wf (.alertMask .c0 0 (.args 4294967296)) = false ∧ Instr.wf (.setTime .c0 0 (.args 4294967296)) = false := by
  decide +kernel

theorem test_stage_write_carries_four_slots :
    Instr.wf (.stageWrite .c0 0 (.args (writeArgs key))) = true ∧
    Instr.wf (.stageWrite .c0 0 (.args { writeArgs key with neighbourSlots := [] })) = false ∧
    Instr.wf (.stageWrite .c0 0 (.args { writeArgs key with prereqSlots := [] })) = false ∧
    Instr.wf (.stageWrite .c0 0 (.args { writeArgs key with top := 65536 })) = false := by decide +kernel

theorem test_a_decision_row_carries_its_own_action :
    Instr.wf (.stageDecideClose .c0 0 (.args ⟨key, 1, 0, 0⟩)) = true ∧
    Instr.wf (.stageDecideClose .c0 0 (.args ⟨key, 2, 0, 0⟩)) = false ∧
    Instr.wf (.stageDecideAbandon .c0 0 (.args ⟨key, 3, 0, 0⟩)) = false ∧
    Instr.wf (.stageDecideResume .c0 0 (.args ⟨key, 1, 0, 0⟩)) = false ∧
    Instr.wf (.stageDecideContinue .c0 0 (.args ⟨key, 1, 0, 0⟩)) = false ∧
    Instr.wf (.stageDecideContinue .c0 0 (.args ⟨key, 4, 0, 0⟩)) = true := by decide +kernel

theorem test_console_operands_fit_their_fields :
    Instr.wf (.lineConfig .c0 0 (.args ⟨0, 1, 65536, 0, 0, 0, 0⟩)) = false ∧
    Instr.wf (.lineWatch .c0 0 (.args ⟨0, 65536, 0⟩)) = false ∧
    Instr.wf (.batchReport .c0 0 (.args ⟨1, 20, 0, 4294967296⟩)) = false ∧
    Instr.wf (.partConfig .c0 0 (.args { configArgs with tankCapacity := 65536 })) = false ∧
    Instr.wf (.readerEnable .c0 0 (.args ⟨256, 0⟩)) = false ∧ Instr.wf (.reset .c0 0 (.args 256)) = false := by
  decide +kernel

theorem test_broken_frames_are_of_their_kind :
    Instr.wf (.unknownKind .p0 0x01 0 []) = false ∧ Instr.wf (.unknownKind .p0 0x07 0 []) = true ∧
    Instr.wf (.framingError .p0 (.length 240)) = false ∧ Instr.wf (.framingError .p0 (.length 241)) = true := by
  decide +kernel

/-! ### Frames written out from section 10.6 -/

/-- The check value of the CRC of R168, that of the nine characters 1 to 9. -/
theorem test_crc_check_value :
    crc [0x31, 0x32, 0x33, 0x34, 0x35, 0x36, 0x37, 0x38, 0x39] = 0x29B1#16 := by decide +kernel

theorem test_a_claim_frame_is_read :
    decodeFrame .p1 ([0xA5, 4, 0x01, 9, 4, 208, 0, 2] ++ crcBytes [4, 0x01, 9, 4, 208, 0, 2]) =
      some (.claim .p1 9 (.args ⟨4, ⟨208, 2⟩⟩)) := by decide +kernel

theorem test_a_decide_and_a_batch_frame_are_read :
    decodeFrame .c0 ([0xA5, 7, 0x13, 1, 214, 0, 3, 0, 1, 0xB8, 0x0B] ++
        crcBytes [7, 0x13, 1, 214, 0, 3, 0, 1, 0xB8, 0x0B]) =
      some (.stageDecideContinue .c0 1 (.args ⟨key, 0, 1, 3000⟩)) ∧
    decodeFrame .c1 ([0xA5, 8, 0x20, 2, 3, 0x90, 1, 1, 1, 2, 0, 0] ++ crcBytes [8, 0x20, 2, 3, 0x90, 1, 1, 1, 2, 0, 0]) =
      some (.batchReport .c1 2 (.args ⟨3, 400, 1, 513⟩)) := by decide +kernel

theorem test_broken_frames_are_told_apart :
    decodeFrame .p0 [0xA5, 0, 0x02, 7, 0, 0] = some (.crcError .p0) ∧
    decodeFrame .p0 [0xA5, 241] = some (.framingError .p0 (.length 241)) ∧
    decodeFrame .p0 ([0xA5, 0, 0x02, 7] ++ crcBytes [0, 0x02, 7]) = some (.start .p0 7 (.args ())) := by decide +kernel

/-! ### The worked case of section 5.8 -/

theorem test_the_worked_case :
    ((after (openSample 7200) (busy .injecting)).line 3).values =
      some ⟨2000, 60, 2, 312, 12, 2300, 610000, 1220, 280600, false, 2459, 2159, 2336, 2581, false⟩ := by decide +kernel

theorem test_the_worked_case_with_the_floor_moving :
    ((after (openSample 7200) ((busy .injecting).updStop (fun u => { u with warn := true }))).line 3).values =
      some ⟨2000, 60, 2, 312, 12, 2300, 610000, 1220, 280600, true, 1967, 1667, 1868, 2065, false⟩ := by decide +kernel

/-- A stage without progress carries FFh as its last line, at offset 82 of its 91 bytes (R175). -/
theorem test_an_absent_last_line_is_FFh :
    (({ stageOf .ready key with progress := none } : Stage).bytes.drop 57).take 26 = List.replicate 25 0 ++ [0xFF] ∧
    (stageOf .ready key).bytes[82]? = some 3 ∧ (stageOf .ready key).bytes.length = 91 := by decide +kernel

/-- The PUMP_STATUS answer is 4 header bytes and 23 more, in one frame of 33 bytes. -/
theorem test_the_pump_status_answer_frame :
    (((after (.pumpStatus .p0 6 (.args ⟨1, 60⟩)) (busy .holding)).port .p0).answer.bind Answer.frame).map
      (fun f => (f.length, f.take 4)) = some (33, [0xA5, 27, 0x84, 6]) := by decide +kernel

/-! ### The machine -/

theorem witness_StepRunsTheFrontCommand :
    step { ready with pending := [.clockSecond, .levelComparison] } =
      exec .clockSecond { ready with pending := [.levelComparison] } := rfl

theorem witness_NoCommandStops : ready.pending = [] ∧ step ready = .next ready := ⟨rfl, rfl⟩

theorem witness_EveryCommandKeepsItsFrame : ∃ t, exec .levelComparison ready = .next t := ⟨_, rfl⟩

theorem witness_LineCommandsAndRequestsKeepOtherLinesAndLinks :
    touchedLines (busy .armed) (.pause .p0 1 (.args ())) = some [3] ∧
    touchedLines ready (.lineWatch .c0 1 (.args ⟨7, 9, 0⟩)) = some [7] ∧
    touchedLines ready (.status .c0 1 (.args ())) = some [] ∧ (busy .armed).portGrant .p0 ≠ some 0 ∧
    Instr.frameOn? (.pause .p0 1 (.args ())) = some .p0 ∧ Instr.frameOn? (.crcError .c1) = some .c1 ∧
    Instr.frameOn? .clockSecond = none := by decide +kernel

/-- A store in which L3 was stored as not present and a stage as ACTIVE. -/
def stored : State :=
  { ready with store := { ready.store with nv := { NvCopy.factory with
      stages := [stageOf .active key, stageOf .ready key2]
      lines := NvCopy.factory.lines.set 3 (some { LineSettings.default with present := false }) } } }

theorem witness_PowerOnBuildsTheLinesAfresh :
    let t := after (.powerOn true true 0) stored
    (t.line 2).state = .closing ∧ (t.line 3).state = .isolated ∧ (t.line 3).isolation = some .notPresent ∧
    t.stop.startCheck = true ∧ t.permitClosed = false := by decide +kernel

theorem witness_PowerOnLoadsTheStore :
    (after (.powerOn true true 7) stored).stage? key = some ((stageOf .active key).suspendedBy .powerLoss) ∧
    (after (.powerOn true true 7) stored).clock.site = 107 ∧ (after (.powerOn true false 7) stored).clock.site = 0 ∧
    (∀ x ∈ ready.store.nv.stages, x.status ≠ .active) ∧
    (after (.powerOn true true 7) ready).record.latched = [] ∧
    FaultCode.storeWrite ∈ (after (.powerOn false true 7) ready).record.latched ∧
    FaultCode.rtcInvalid ∈ (after (.powerOn true false 7) ready).record.latched := by decide +kernel

theorem test_power_on_of_the_part_as_delivered_is_reset : after (.powerOn true true 0) State.reset = State.reset := by
  decide +kernel

/-! ### The port protocol -/

theorem witness_TakenRequestIsAnsweredAndRestartsTheKeepalive :
    let c : Instr := .pause .p0 5 (.args ())
    let s := busy .holding
    c.wf = true ∧ c.kind? = some (.p0, .pause, 5) ∧ listening s .p0 ∧ s.portGrant .p0 = some 3 ∧
    c.frameOn? = some .p0 ∧ ¬ listening (hearing .p0 .answering true s) .p0 ∧
    ((s.line 3).grant.bind Grant.keepalive) = some ⟨3, 2⟩ ∧
    (((after c s).line 3).grant.bind Grant.keepalive) = some ⟨3, 0⟩ ∧
    (((after c (hearing .p0 .discarding true s)).line 3).grant.bind Grant.keepalive) = some ⟨3, 2⟩ := by
  unfold listening; decide +kernel

theorem witness_UnknownKinds : (∀ k : RequestKind, k.code ≠ 0x07) ∧ (∀ k : RequestKind, k.code ≠ 0x80) ∧
    (((after (.unknownKind .p0 0x7F 1 []) ready).port .p0).answer.map Answer.kind) = some 0xFF ∧
    (((after (.unknownKind .p0 0x80 1 []) ready).port .p0).answer.map Answer.kind) = some 0xFF ∧
    verdict .p0 (.unknownKind .p0 0x07 1 [1]) ready = some .unknownKind := by
  refine ⟨?_, ?_, ?_⟩
  · intro k; cases k <;> decide
  · intro k; cases k <;> decide
  · decide +kernel

theorem witness_RequestChecksComeInOrder :
    RequestKind.permits .claim .c0 = false ∧ verdict .c0 (.claim .c0 1 (.args ⟨0, key⟩)) ready = some .notPermitted ∧
    RequestKind.permits .reset .p0 = false ∧ verdict .p0 (.reset .p0 1 (.wrongLength [])) ready = some .notPermitted ∧
    Instr.carried (.reset .c0 1 (.wrongLength [])) ≠ RequestKind.bodyLength .reset ∧
    verdict .c0 (.reset .c0 1 (.wrongLength [])) (locked ready) = some .badArgument ∧
    Instr.carried (.claim .p0 1 (.args ⟨9, key⟩)) = RequestKind.bodyLength .claim ∧
    verdict .p0 (.claim .p0 1 (.args ⟨9, key⟩)) (locked ready) = some .locked ∧
    verdict .p0 (.status .p0 1 (.args ())) (locked ready) = some .ok := by decide +kernel

theorem witness_ReceiverMovesAndCounts :
    (ready.port .p0).receiver = .awaitStart ∧ listening (hearing .p0 .receiving false ready) .p0 ∧
    ((after (.frameGapAbort .p0 0xA5) ready).port .p0).receiver = .receiving ∧
    ((after (.frameGapAbort .p0 0xA4) ready).port .p0).receiver = .awaitStart ∧
    ((after (.startByteReceived .p0) (hearing .p0 .answering true ready)).port .p0).overrun.count = 1 ∧
    ((after (.discardSilenceEnd .p0) (hearing .p0 .discarding true ready)).port .p0).receiver = .discarding ∧
    ((after (.discardSilenceEnd .p0) (hearing .p0 .discarding false ready)).port .p0).receiver = .awaitStart := by
  unfold listening; decide +kernel

theorem witness_RequestFrameDecodesToItself :
    Instr.wf (.setTime .c0 255 (.args 4294967295)) = true ∧
    encodeRequest (.setTime .c0 255 (.args 4294967295)) = some (.c0, 0x30, 255, [255, 255, 255, 255]) ∧
    Instr.wf (.status .p3 0 (.wrongLength (List.replicate 240 7))) = true ∧
    encodeRequest (.status .p3 0 (.wrongLength (List.replicate 240 7))) = some (.p3, 0x08, 0, List.replicate 240 7) ∧
    encodeRequest (.unknownKind .p3 0x07 0 [1]) = some (.p3, 0x07, 0, [1]) := by decide +kernel

/-! ### Readings, alerts and records -/

theorem witness_StatusReportsThePart : listening ready .p3 ∧ verdict .p3 (.status .p3 1 (.args ())) ready = some .ok := by
  unfold listening; decide +kernel

theorem witness_ReadingsAnswerAndChangeNothing :
    listening ready .c0 ∧ ready.stage? key2 = none ∧ ready.stage? key = some (stageOf .ready key) ∧
    verdict .c0 (.stageRead .c0 1 (.args ⟨0, key2, 0⟩)) ready = some .badArgument ∧
    verdict .c0 (.stageRead .c0 1 (.args ⟨0, key, 9⟩)) ready = some .ok ∧
    verdict .c0 (.stageRead .c0 1 (.args ⟨1, key2, 0⟩)) ready = some .ok ∧
    verdict .c0 (.stageRead .c0 1 (.args ⟨1, key, 1⟩)) ready = some .badArgument ∧
    verdict .c0 (.stageRead .c0 1 (.args ⟨2, key, 0⟩)) ready = some .badArgument ∧
    verdict .p0 (.lineRead .p0 1 (.args 7)) ready = some .ok ∧
    verdict .p0 (.lineRead .p0 1 (.args 8)) ready = some .badArgument ∧
    (busy .armed).grantReport 3 = some ⟨3, some key, grantOf .p0 false⟩ ∧ ready.grantReport 3 = none ∧
    verdict .c0 (.readFaults .c0 1 (.args ⟨0, 4⟩)) ready = some .ok ∧
    verdict .c0 (.readFaults .c0 1 (.args ⟨1, 1⟩)) ready = some .badArgument ∧
    verdict .c0 (.readCompletions .c0 1 (.args ⟨0, 0⟩)) ready = some .badArgument ∧
    verdict .c0 (.readConnections .c0 1 (.args ⟨0, 5⟩)) ready = some .badArgument := by unfold listening; decide +kernel

theorem witness_ReadAlertsAndTheAlertSummary :
    listening State.reset .c0 ∧ Instr.wf (.readAlerts .c0 1 (.args ())) = true ∧
    Instr.kind? (.readAlerts .c0 1 (.args ())) = some (.c0, .readAlerts, 1) ∧
    ((after (.readAlerts .c0 1 (.args ())) State.reset).port .c0).queue = [] ∧
    (((after (.status .c0 1 (.args ())) State.reset).port .c0).answer.map (fun a => (a.queued, a.highest, a.slip))) =
      some (1, 5, false) := by unfold listening; decide +kernel

theorem witness_AlertMaskRules :
    (0x00000003 : Nat) < 2 ^ 32 ∧ verdict .p0 (.alertMask .p0 1 (.args 0x00000003)) ready = some .ok ∧
    verdict .p0 (.alertMask .p0 1 (.args 0x01FFFFFE)) ready = some .badArgument ∧
    verdict .p0 (.alertMask .p0 1 (.args 0x01FFFFFD)) ready = some .badArgument ∧
    verdict .p0 (.alertMask .p0 1 (.args 0x02000003)) ready = some .badArgument ∧
    ({ PortRecord.fresh with mask := 3 } : PortRecord).unmasked .estop = false := by decide +kernel

def entryOf (k : AlertKind) (l : Option LineId) : AlertEntry := ⟨k, 0, l, none, none, false, 255⟩
def postingOf (k : AlertKind) (l : Option LineId) : Posting := ⟨k, l, none, none, false⟩

/-- A queue of 16 in which no two entries merge: 8 of level 5 and 8 of level 6, one for each line. -/
def fullPort : PortRecord :=
  { PortRecord.fresh with
    queue := lineIds.map (fun l => entryOf .overpressure (some l)) ++ lineIds.map (fun l => entryOf .fracture (some l)) }

theorem witness_AlertQueueMergesAppendsAndEvicts :
    fullPort.unmasked .estop = true ∧ fullPort.queue.length = 16 ∧
    (∀ e ∈ fullPort.queue, ¬ (e.kind = .estop ∧ e.line = none ∧ e.key = none)) ∧
    (fullPort.offer 255 9 (postingOf .estop none)).1.queue = fullPort.queue.drop 1 ++ [⟨.estop, 9, none, none, none, false, 1⟩] ∧
    (fullPort.offer 255 9 (postingOf .keepaliveLost none)).1.queue = fullPort.queue ∧
    (fullPort.offer 255 9 (postingOf .aged none)).1.queue = fullPort.queue ∧
    ((fullPort.offer 255 9 (postingOf .overpressure (some 0))).1.queue.map AlertEntry.repeats).take 1 = [255] ∧
    (PortRecord.fresh.offer 255 9 (postingOf .aged none)).1.queue.length = 1 := by decide +kernel

theorem witness_AlertsReachTheirRoutes :
    (State.lineRoute (busy .armed) 3).Nodup ∧
    (∀ p ∈ State.lineRoute (busy .armed) 3,
      (((busy .armed).port p).offer 255 100 (postingOf .fracture (some 3))).2 = false) ∧
    ((post (postingOf .fracture (some 3)) (State.lineRoute (busy .armed) 3) (busy .armed)).port .p0).queue.length = 1 ∧
    Port.p0 ∈ (busy .armed).partRoute .overpressure ∧ Port.p0 ∉ (busy .armed).partRoute .aged := by decide +kernel

/-- A part with five records, of which C1's reader has five left. -/
def recorded (n : Nat) : State :=
  ready.updRecord (fun r =>
    { r with records := List.replicate n ⟨1, 0, key, 3, .armed, 0, 0, 0, 0, 0, 0, 0, 0, 2, 2, [], true⟩,
             readerC1 := ⟨true, n, ⟨0, false⟩⟩ })

theorem witness_ReadRecordsMovesTheReader :
    listening (recorded 5) .c1 ∧ (recorded 5).record.reader? .c1 = some ⟨true, 5, ⟨0, false⟩⟩ ∧
    (recorded 5).record.reader? .c0 = some ⟨false, 0, ⟨0, false⟩⟩ ∧
    verdict .c0 (.readRecords .c0 1 (.args ())) (recorded 5) = some .wrongState ∧
    (after (.readRecords .c1 1 (.args ())) (recorded 5)).record.readerC1.unread = 1 ∧
    (after (.readRecords .c1 1 (.args ())) (recorded 5)).record.records.length = 1 ∧
    (after (.readRecords .c1 1 (.args ())) (recorded 4)).record.records = [] := by unfold listening; decide +kernel

/-! ### The curtain stage program -/

/-- The status of a stage after a command. -/
def statusAfter (c : Instr) (s : State) (k : StageKey) : Option StageStatus := ((after c s).stage? k).map Stage.status

/-- A state with STORE_FAULT latched. -/
def storeFaulted (s : State) : State := { s with store := { s.store with fault := true } }

theorem witness_StageEditChecksComeFirst :
    consoleReady (storeFaulted ready) .c0 ∧ Instr.wf (.stageDelete .c0 1 (.args key)) = true ∧
    Instr.kind? (.stageDelete .c0 1 (.args key)) = some (.c0, .stageDelete, 1) ∧
    Instr.carried (.stageDelete .c0 1 (.args key)) = RequestKind.bodyLength .stageDelete ∧
    verdict .c0 (.stageDelete .c0 1 (.args key2)) (storeFaulted ready) = some .storeFault ∧
    editReady ready .c0 ∧ ready.stage? key2 = none ∧
    verdict .c0 (.stageRelease .c0 1 (.args key2)) ready = some .badArgument ∧
    verdict .c0 (.stageDecideContinue .c0 1 (.args ⟨key, 4, 0, 0⟩)) ready = some .badArgument ∧
    verdict .c0 (.stageDecideContinue .c0 1 (.args ⟨key, 0, 2, 0⟩)) ready = some .badArgument ∧
    verdict .c0 (.stageDecideClose .c0 1 (.args ⟨key, 1, 1, 0⟩)) ready = some .badArgument := by
  unfold editReady consoleReady listening; decide +kernel

/-- A full stage table: 64 drafts. -/
def fullTable : State :=
  part ((List.range 64).map (fun i => stageOf .draft ⟨i / 16 + 1, i % 16 + 1⟩))

theorem witness_StageWriteAddsOrRewritesADraft :
    editReady (part [stageOf .draft key]) .c1 ∧ editReady fullTable .c1 ∧ fullTable.store.stages.length = 64 ∧
    fullTable.stage? key = none ∧
    verdict .c1 (.stageWrite .c1 1 (.args (writeArgs key))) fullTable = some .tableFull ∧
    statusAfter (.stageWrite .c1 1 (.args (writeArgs key3))) ready key3 = some .draft ∧
    verdict .c1 (.stageWrite .c1 1 (.args (writeArgs key))) ready = some .wrongState ∧
    (((after (.stageWrite .c1 1 (.args (writeArgs key))) (part [stageOf .draft key])).stage? key).bind
      Stage.progress).isSome = true ∧
    (((after (.stageWrite .c1 1 (.args { writeArgs key with clear := 1 })) (part [stageOf .draft key])).stage? key).bind
      Stage.progress) = none := by unfold editReady consoleReady listening; decide +kernel

theorem test_stage_write_at_its_limits :
    let w := writeArgs key3
    let ask (a : StageWriteArgs) := verdict .c1 (.stageWrite .c1 1 (.args a)) ready
    ask { w with bottom := 2450 } = some .ok ∧ ask { w with bottom := 2449 } = some .badArgument ∧
    ask { w with bottom := 3900 } = some .ok ∧ ask { w with bottom := 3901 } = some .badArgument ∧
    ask { w with order := 0 } = some .badArgument ∧ ask { w with tRef := 1801 } = some .badArgument ∧
    ask { w with neighbourSlots := [300, 0, 0, 0], neighbourCount := 2 } = some .badArgument ∧
    ask { w with prereqSlots := [key3, ⟨0, 0⟩, ⟨0, 0⟩, ⟨0, 0⟩] } = some .badArgument ∧
    ask { w with key := ⟨10000, 1⟩ } = some .badArgument ∧ ask { w with key := ⟨9999, 20⟩ } = some .ok := by decide +kernel

/-- A stage that names `key2` as its prerequisite. -/
def naming (st : StageStatus) (k : StageKey) : Stage :=
  { stageOf st k with fields := { fieldsOf k with prereqs := [key2] } }

theorem witness_StageReleaseWithdrawAndResume :
    editReady (part [naming .draft key, stageOf .complete key2]) .c0 ∧
    statusAfter (.stageRelease .c0 1 (.args key)) (part [naming .draft key, stageOf .complete key2]) key = some .ready ∧
    statusAfter (.stageRelease .c0 1 (.args key)) (part [naming .draft key, stageOf .ready key2]) key = some .blocked ∧
    verdict .c0 (.stageRelease .c0 1 (.args key)) (part [naming .draft key]) = some .badArgument ∧
    verdict .c0 (.stageRelease .c0 1 (.args key)) ready = some .wrongState ∧
    statusAfter (.stageWithdraw .c0 1 (.args key)) ready key = some .draft ∧
    statusAfter (.stageWithdraw .c0 1 (.args key)) (part [stageOf .blocked key]) key = some .draft ∧
    verdict .c0 (.stageWithdraw .c0 1 (.args key)) (busy .armed) = some .wrongState ∧
    statusAfter (.stageDecideResume .c0 1 (.args ⟨key, 3, 0, 0⟩)) (part [stageOf .suspended key]) key = some .ready ∧
    verdict .c0 (.stageDecideResume .c0 1 (.args ⟨key, 3, 0, 0⟩)) ready = some .wrongState := by
  unfold editReady consoleReady listening; decide +kernel

theorem witness_StageDeleteRemovesUnusedStages :
    editReady (part [stageOf .complete key2]) .c0 ∧
    verdict .c0 (.stageDelete .c0 1 (.args key)) ready = some .wrongState ∧
    verdict .c0 (.stageDelete .c0 1 (.args key2)) (part [naming .blocked key, stageOf .complete key2]) = some .inUse ∧
    statusAfter (.stageDelete .c0 1 (.args key2)) (part [naming .draft key, stageOf .complete key2]) key2 = none ∧
    (after (.stageDelete .c0 1 (.args key2)) (part [naming .draft key, stageOf .complete key2])).store.writes =
      [.stageRemoved key2] := by
  unfold editReady consoleReady listening; decide +kernel

/-- A held line whose stage has a pending decision. -/
def deciding : State :=
  (busyWith .holding (fun x => { x with causes := [.fracture, .connection] })).updStage key
    (fun z => { z with decision := ⟨true, true⟩ })

theorem witness_ContinueTakesTheDecision :
    editReady deciding .c0 ∧ (deciding.stage? key).map Stage.status = some .active ∧ deciding.carrier? key = some 3 ∧
    verdict .c0 (.stageDecideContinue .c0 1 (.args ⟨key, 0, 1, 3000⟩)) deciding = some .badArgument ∧
    verdict .c0 (.stageDecideContinue .c0 1 (.args ⟨key, 0, 1, 49⟩)) deciding = some .badArgument ∧
    verdict .c0 (.stageDecideContinue .c0 1 (.args ⟨key, 0, 1, 50⟩)) deciding = some .ok ∧
    ((after (.stageDecideContinue .c0 1 (.args ⟨key, 0, 1, 2999⟩)) deciding).line 3).causes = [] ∧
    verdict .c0 (.stageDecideContinue .c0 1 (.args ⟨key, 0, 0, 0⟩)) (busy .holding) = some .wrongState := by
  unfold editReady consoleReady listening; decide +kernel

theorem witness_CloseAndAbandonEndTheStage :
    inKeyOrder deciding.store.stages ∧ inKeyOrder (part [naming .blocked key, stageOf .suspended key2]).store.stages ∧
    statusAfter (.stageDecideClose .c0 1 (.args ⟨key, 1, 0, 0⟩)) deciding key = some .complete ∧
    ((after (.stageDecideClose .c0 1 (.args ⟨key, 1, 0, 0⟩)) deciding).line 3).state = .closing ∧
    statusAfter (.stageDecideAbandon .c0 1 (.args ⟨key, 2, 0, 0⟩)) (part [stageOf .suspended key]) key = some .abandoned ∧
    statusAfter (.stageDecideClose .c0 1 (.args ⟨key2, 1, 0, 0⟩))
      (part [naming .blocked key, stageOf .suspended key2]) key = some .ready ∧
    statusAfter (.stageDecideAbandon .c0 1 (.args ⟨key2, 2, 0, 0⟩))
      (part [naming .blocked key, stageOf .suspended key2]) key = some .blocked ∧
    verdict .c0 (.stageDecideClose .c0 1 (.args ⟨key, 1, 0, 0⟩)) ready = some .wrongState := by unfold inKeyOrder; decide +kernel

/-! ### Line requests -/

def lineArgs (present range : Nat) : LineConfigArgs := ⟨3, present, range, 1000, 10, 500, 2000⟩

theorem witness_LineConfigReplacesTheSettings :
    consoleReady ready .c0 ∧ verdict .c0 (.lineConfig .c0 1 (.args (lineArgs 1 999))) ready = some .badArgument ∧
    verdict .c0 (.lineConfig .c0 1 (.args { lineArgs 1 1000 with line := 8 })) ready = some .badArgument ∧
    verdict .c0 (.lineConfig .c0 1 (.args (lineArgs 1 1000))) (busy .armed) = some .wrongState ∧
    ((after (.lineConfig .c0 1 (.args (lineArgs 1 16000))) ready).line 3).settings = ⟨true, 16000, 1000, 10, 500, 2000⟩ ∧
    ((after (.lineConfig .c0 1 (.args (lineArgs 0 1000))) ready).line 3).isolation = some .notPresent ∧
    ((after (.lineConfig .c0 1 (.args (lineArgs 1 1000)))
      (after (.lineConfig .c0 1 (.args (lineArgs 0 1000))) ready |> hearing .c0 .awaitStart false)).line 3).pressure.validity
      = .suspect := by unfold consoleReady listening; decide +kernel

/-- A part whose line L3 is in a state without a grant. -/
def lineIn (st : LineState) : State :=
  ready.updLine 3 (fun x =>
    { x with state := st, isolation := if st = .isolated then some .console else none,
             watch := if st = .watch then some ⟨216, none, some 300, 8, true, 3, 0⟩ else none })

theorem witness_LineRequestsMoveAndHoldTheLines :
    consoleReady (lineIn .watch) .c0 ∧
    verdict .c0 (.lineWatch .c0 1 (.args ⟨3, 9999, 20⟩)) ready = some .ok ∧
    verdict .c0 (.lineWatch .c0 1 (.args ⟨3, 0, 0⟩)) ready = some .badArgument ∧
    verdict .c0 (.lineWatch .c0 1 (.args ⟨8, 1, 0⟩)) ready = some .badArgument ∧
    verdict .c0 (.lineWatch .c0 1 (.args ⟨3, 1, 0⟩)) (lineIn .watch) = some .lineHeld ∧
    verdict .c0 (.lineUnwatch .c0 1 (.args 8)) ready = some .badArgument ∧
    verdict .c0 (.lineUnwatch .c0 1 (.args 3)) ready = some .wrongState ∧
    ((after (.lineUnwatch .c0 1 (.args 3)) (lineIn .watch)).line 3).state = .idle ∧
    ((after (.lineIsolate .c0 1 (.args 3)) (lineIn .watch)).line 3).isolation = some .console ∧
    verdict .c0 (.lineIsolate .c0 1 (.args 3)) (lineIn .isolated) = some .wrongState ∧
    ((after (.lineReturn .c0 1 (.args 3)) (lineIn .isolated)).line 3).state = .idle ∧
    verdict .c0 (.lineReturn .c0 1 (.args 3)) ready = some .wrongState ∧ (busy .injecting).holdAll = false ∧
    ((after (.holdAll .c0 1 (.args ())) (busy .injecting)).line 3).causes = [.console] ∧
    ((after (.releaseAll .c0 1 (.args ())) { busy .holding with holdAll := true }).line 3).causes = [] := by
  unfold consoleReady listening; decide +kernel

/-! ### Grout and uplift requests -/

/-- A part with `n` batches of class 2. -/
def batched (n : Nat) : State :=
  (busy .injecting).updGrout (fun g => { g with batches := List.replicate n ⟨1, 2, 400, 400000, 0⟩ })

theorem witness_BatchReportAppendsTheBatch :
    consoleReady (batched 7) .c0 ∧ verdict .c0 (.batchReport .c0 1 (.args ⟨6, 20, 0, 0⟩)) (batched 7) = some .ok ∧
    verdict .c0 (.batchReport .c0 1 (.args ⟨6, 20, 0, 0⟩)) (batched 8) = some .tableFull ∧
    verdict .c0 (.batchReport .c0 1 (.args ⟨7, 20, 0, 0⟩)) (batched 7) = some .badArgument ∧
    verdict .c0 (.batchReport .c0 1 (.args ⟨1, 2001, 0, 0⟩)) (batched 7) = some .badArgument ∧
    verdict .c0 (.batchReport .c0 1 (.args ⟨1, 20, 1, 101⟩)) (batched 7) = some .badArgument ∧
    verdict .c0 (.batchReport .c0 1 (.args ⟨1, 20, 1, 100⟩)) (batched 7) = some .ok ∧
    ((after (.batchReport .c0 1 (.args ⟨4, 20, 0, 0⟩)) (batched 1)).line 3).transit = [⟨4, 40000⟩] ∧
    ((after (.batchReport .c0 1 (.args ⟨1, 20, 0, 0⟩)) (batched 1)).line 3).transit = [] := by
  unfold consoleReady listening; decide +kernel

/-- A part with a batch of an age in seconds, its lines held for it or not. -/
def agedBy (n : Nat) (aged : Bool) : State :=
  { (busy .injecting).updGrout (fun g => { g with aged := aged }) with clock := ⟨0, n, true, none⟩ }

/-- A part some seconds into its level period, with a level channel. -/
def leveled (seconds : Nat) (c : Channel) : State :=
  { ready with level := c }.updGrout (fun g => { g with levelPeriod := seconds })

theorem witness_TankDumpAgingAndLevel :
    consoleReady (batched 2) .c0 ∧ (after (.tankDump .c0 1 (.args ())) (batched 2)).grout.tankClass = 0 ∧
    (after .groutAgeLimitReached (agedBy 5400 false)).grout.aged = false ∧
    (after .groutAgeLimitReached (agedBy 5401 false)).grout.aged = true ∧
    ((after .groutAgeLimitReached (agedBy 5401 false)).line 3).causes = [.aged] ∧
    (after (.levelSampleEvent 4000) ready).level.value = 0 ∧
    (after (.levelSampleEvent 21001) { ready with level := channelIn .suspect 2 }).level.validity = .lost ∧
    (after .levelComparison (leveled 10 (channelIn .lost 3))).grout.mismatch = 0 ∧
    (after .levelComparison (leveled 10 (okChannel 480))).grout.matched = 1 ∧
    (after .levelComparison (leveled 11 (okChannel 481))).grout.mismatch = 1 ∧
    (after .levelComparison (leveled 11 (okChannel 481))).grout.levelPeriod = 1 ∧
    (after .levelComparison
      ((leveled 10 (okChannel 481)).updGrout (fun g => { g with mismatch := 2 }))).grout.levelMismatch = true ∧
    after .levelComparison (leveled 9 (okChannel 481)) = leveled 9 (okChannel 481) ∧
    (after .clockSecond (leveled 9 (okChannel 481))).grout.levelPeriod = 10 := by
  unfold consoleReady listening; decide +kernel

/-- A part with UPLIFT_STOP latched and its first gauge at a displacement. -/
def uplifted (u : Int) : State :=
  ((busyWith .holding (fun x => { x with causes := [.uplift] })).setGauge 0 (gaugeAt u)).updStop
    (fun x => { x with upliftStop := true })

theorem witness_UpliftZeroAndUpliftClear :
    consoleReady (uplifted 49) .c0 ∧ (uplifted 49).stop.upliftStop = true ∧
    verdict .c0 (.upliftZero .c0 1 (.args ())) (uplifted 49) = some .conditionPresent ∧
    ((after (.upliftZero .c0 1 (.args ())) (ready.setGauge 0 (gaugeAt 30))).gauge 0).baseline = some 30 ∧
    verdict .c0 (.upliftClear .c0 1 (.args ())) ready = some .ok ∧
    verdict .c0 (.upliftClear .c0 1 (.args ())) (uplifted 50) = some .conditionPresent ∧
    (after (.upliftClear .c0 1 (.args ())) (uplifted 49)).stop.upliftStop = false := by
  unfold consoleReady listening; decide +kernel

/-! ### Part-wide requests -/

theorem witness_PartConfigReplacesEverySetting :
    consoleReady ready .c0 ∧ verdict .c0 (.partConfig .c0 1 (.args configArgs)) ready = some .ok ∧
    verdict .c0 (.partConfig .c0 1 (.args configArgs)) (busy .armed) = some .busy ∧
    verdict .c0 (.partConfig .c0 1 (.args { configArgs with hysteresis := 50 })) ready = some .badArgument ∧
    verdict .c0 (.partConfig .c0 1 (.args { configArgs with stopThreshold := 50 })) ready = some .badArgument ∧
    verdict .c0 (.partConfig .c0 1 (.args { configArgs with gauges := 16 })) ready = some .badArgument ∧
    ((after (.partConfig .c0 1 (.args { configArgs with gauges := 14 })) ready).gauge 0).channel.validity = .off ∧
    ((after (.partConfig .c0 1 (.args configArgs))
      { ready with settings := { PartSettings.default with gauges := #v[false, true, true, true] } }).gauge 0).baseline = none ∧
    ((after (.partConfig .c0 1 (.args configArgs))
      ({ ready with settings := { PartSettings.default with wide := true } }.updPort .p0
        (fun x => { x with crc := ⟨900, false⟩ }))).port .p0).crc.count = 255 ∧
    (let counted := { ready with settings := { PartSettings.default with wide := true }
                                 level := { ready.level with counter := ⟨1023, true⟩ }
                                 record := { ready.record with readerC1 := ⟨true, 0, ⟨256, false⟩⟩ } }
     (after (.partConfig .c0 1 (.args configArgs)) counted).level.counter.count = 255 ∧
     (after (.partConfig .c0 1 (.args { configArgs with wide := 1 })) counted).level.counter.count = 1023 ∧
     (after (.partConfig .c0 1 (.args configArgs)) counted).record.readerC1.slips.count = 255) := by
  unfold consoleReady listening; decide +kernel

theorem witness_RecordsAreWrittenAndReadersPlaced :
    consoleReady (recorded 5) .c0 ∧
    verdict .c0 (.readerEnable .c0 1 (.args ⟨2, 0⟩)) ready = some .badArgument ∧
    verdict .c0 (.readerEnable .c0 1 (.args ⟨0, 2⟩)) ready = some .badArgument ∧
    (after (.readerEnable .c0 1 (.args ⟨1, 0⟩)) (recorded 5)).record.records = [] ∧
    (after (.readerEnable .c0 1 (.args ⟨1, 1⟩)) (recorded 5)).record.readerC1.unread = 5 ∧
    ((busy .armed).line 3).recordTimer = some 10 ∧ (busy .armed).settings.recordInterval = 10 ∧
    (busy .armed).stage? key = some (stageOf .active key) ∧
    (after (.recordInterval 3) (busy .armed)).record.records.length = 1 ∧
    (after (.recordInterval 3) (busyWith .armed (fun x => { x with recordTimer := some 9 }))).record.records = [] ∧
    (after (.recordInterval 3) (busy .armed |>.updRecord (fun _ => (recorded 256).record))).record.readerC1.slips.count = 1 := by
  unfold consoleReady listening; decide +kernel

theorem witness_CountersAndLatchesAreCleared :
    consoleReady ready .c0 ∧ (Counter.bump 255 ⟨254, false⟩) = (⟨255, true⟩, true) ∧
    (Counter.bump 255 ⟨255, false⟩) = (⟨255, false⟩, false) ∧ (Counter.bump 255 ⟨254, true⟩) = (⟨255, true⟩, false) ∧
    verdict .c0 (.clearCounters .c0 1 (.args 20)) ready = some .ok ∧
    verdict .c0 (.clearCounters .c0 1 (.args 21)) ready = some .badArgument ∧
    verdict .c0 (.clearCounters .c0 1 (.args 254)) ready = some .badArgument ∧
    verdict .c0 (.clearCounters .c0 1 (.args 255)) ready = some .ok ∧
    verdict .c0 (.clearLatches .c0 1 (.args 255)) ready = some .ok ∧
    verdict .c0 (.clearLatches .c0 1 (.args 50)) ready = some .ok := by unfold consoleReady listening; decide +kernel

theorem witness_NoFaultHasCode51 : (∀ f : FaultCode, f.code ≠ 51) ∧
    verdict .c0 (.clearLatches .c0 1 (.args 51)) ready = some .badArgument := by
  refine ⟨?_, by decide +kernel⟩
  intro f; cases f <;> decide

/-- A part whose clock stands at a site time. -/
def clockAt (n : Nat) (pending : Option Nat) : State := { ready with clock := ⟨0, n, true, pending⟩ }

theorem witness_SetTimeAndTheClockSecond :
    consoleReady ready .c0 ∧ verdict .c0 (.setTime .c0 1 (.args 9)) ready = some .ok ∧
    (after .clockSecond (clockAt 4294967295 none)).clock.site = 0 ∧
    (after .clockSecond (clockAt 4294967294 none)).clock.site = 4294967295 ∧
    (after .clockSecond (clockAt 5 (some 9))).clock.site = 9 ∧
    (busy .injecting).stage? key = some (stageOf .active key) ∧
    (∀ m, ((busy .injecting).line m).carried = some key ↔ m = 3) ∧
    (((after .clockSecond (busy .injecting)).stage? key).bind Stage.progress).map Progress.injecting = some 61 ∧
    (((after .clockSecond (busy .holding)).stage? key).bind Stage.progress).map Progress.holding = some 1 ∧
    (after .clockSecond (busy .armed)).stage? key = (busy .armed).stage? key ∧
    ((after .clockSecond (busyWith .holding (fun x => { x with holdTimer := some 1200 }))).line 3).holdTimer = some 1200 := by
  unfold consoleReady listening; decide +kernel

/-- A part with a stage whose injecting seconds stand at their top. -/
def topSeconds (st : LineState) : State :=
  (busy st).updStage key (fun z =>
    { z with progress := some ⟨610000, 500, 3, 0, 0, 0, 4294967295, 4294967295, 0, 3⟩ })

theorem witness_SecondsAtTheirTop :
    (((topSeconds .injecting).stage? key).bind Stage.progress).map Progress.injecting = some 4294967295 ∧
    (((topSeconds .holding).stage? key).bind Stage.progress).map Progress.holding = some 4294967295 ∧
    ((topSeconds .holding).line 3).carried = some key ∧
    (((after .clockSecond (topSeconds .injecting)).stage? key).bind Stage.progress).map Progress.holding =
      some 4294967295 := by refine ⟨?_, ?_, ?_, ?_⟩ <;> decide +kernel

theorem witness_ExerciseStepAdvances :
    consoleReady ready .c0 ∧ (after (.exerciseStep .c0 1 (.args ())) { ready with exercise := 7 }).exercise = 8 ∧
    (after (.exerciseStep .c0 1 (.args ())) { ready with exercise := 8 }).exercise = 0 ∧
    verdict .c0 (.exerciseStep .c0 1 (.args ())) (busy .armed) = some .wrongState ∧
    verdict .c0 (.exerciseStep .c0 1 (.args ())) (uplifted 49) = some .wrongState := by
  unfold consoleReady listening; decide +kernel

theorem witness_WarmResetRestartsTheCheck :
    verdict .c0 (.reset .c0 1 (.args 2)) ready = some .badArgument ∧
    verdict .c0 (.reset .c0 1 (.args 0)) (busy .opening) = some .busy ∧
    ((after (.reset .c0 1 (.args 1)) (busy .injecting)).port .p0).cut = some ⟨3, key, .reset⟩ ∧
    (after (.reset .c0 1 (.args 1)) (busy .injecting)).stage? key = some ((stageOf .active key).suspendedBy .reset) ∧
    (after (.reset .c0 1 (.args 0)) (locked (lineIn .isolated))).stop.lockdown = false ∧
    ((after (.reset .c0 1 (.args 0)) (locked (lineIn .isolated))).line 3).state = .isolated ∧
    ((after (.reset .c0 1 (.args 0)) (locked (lineIn .isolated))).line 2).state = .closing ∧
    (let told := (busy .injecting).updPort .c0 (fun x => { x with
       slipFlag := true, queue := [⟨.estop, 3, none, none, none, false, 1⟩] })
     (((after (.reset .c0 1 (.args 1)) told).port .c0).queue.map AlertEntry.kind) = [.stageSuspended] ∧
     ((after (.reset .c0 1 (.args 1)) told).port .c0).slipFlag = true) := by decide +kernel

/-! ### Pump requests -/

def claimOf (p : Port) (l : Nat) (k : StageKey) : Instr := .claim p 1 (.args ⟨l, k⟩)

/-- The part `ready` with its tank changed. -/
def tank (f : Grout → Grout) : State := ready.updGrout f

theorem witness_ClaimChecksComeInOrder :
    pumpReady (busy .opening) .p0 ∧ (busy .opening).portGrant .p0 = some 3 ∧ ready.portGrant .p0 = none ∧
    verdict .p0 (claimOf .p0 3 key) (uplifted 0) = some .permitOpen ∧
    verdict .p0 (claimOf .p0 3 key) { ready with exercise := 1 } = some .exerciseActive ∧
    verdict .p0 (claimOf .p0 3 key) (busy .opening) = some .ok ∧
    verdict .p0 (claimOf .p0 2 key) (busy .opening) = some .portHasGrant ∧
    verdict .p0 (claimOf .p0 8 key) ready = some .badArgument ∧
    verdict .p0 (claimOf .p0 0 ⟨214, 21⟩) ready = some .badArgument ∧
    verdict .p0 (claimOf .p0 0 key2) ready = some .badArgument ∧
    verdict .p1 (claimOf .p1 3 key) (busy .armed) = some .lineHeld ∧
    verdict .p1 (claimOf .p1 0 key) (busy .armed) = some .stageNotReady ∧
    verdict .p0 (claimOf .p0 0 key) (tank (fun g => { g with batches := [] })) = some .noGrout ∧
    verdict .p0 (claimOf .p0 0 key) (tank (fun g => { g with aged := true })) = some .groutAged ∧
    verdict .p0 (claimOf .p0 0 key) (tank (fun g => { g with batches := [⟨1, 4, 400, 400000, 0⟩] })) =
      some .mixTooThick := by unfold pumpReady listening; decide +kernel

/-- A part whose READY stage has progress with a max class. -/
def lowClass (n : Nat) : State :=
  ready.updStage key (fun z => { z with progress := z.progress.map (fun g => { g with maxClass := n }) })

theorem witness_ClaimIsGranted :
    pumpReady ready .p0 ∧ ready.stop.upliftStop = false ∧ ready.stop.estop = false ∧ ready.exercise = 0 ∧
    ready.portGrant .p0 = none ∧ ready.stage? key = some (stageOf .ready key) ∧ (ready.line 7).state = .idle ∧
    ready.grout.batches ≠ [] ∧ ready.grout.aged = false ∧ ready.grout.tankClass ≤ (fieldsOf key).startClass ∧
    verdict .p0 (claimOf .p0 7 key) ready = some .ok ∧
    (((after (claimOf .p0 7 key) (lowClass 1)).stage? key).bind Stage.progress).map Progress.maxClass = some 2 ∧
    (((after (claimOf .p0 7 key) (lowClass 3)).stage? key).bind Stage.progress).map Progress.maxClass = some 3 ∧
    verdict .p0 (claimOf .p0 7 key) (tank (fun g => { g with batches := [⟨1, 3, 400, 400000, 0⟩] })) = some .ok := by
  unfold pumpReady listening; decide +kernel

def startOf : Instr := .start .p0 1 (.args ())

/-- The state of L3 after a START of P0, for a line state and its causes. -/
def started (st : LineState) (causes : List HoldCause) : LineState :=
  ((after startOf (busyWith st (fun x => { x with causes := causes }))).line 3).state

theorem witness_StartByTheLineState :
    pumpReady (busy .armed) .p0 ∧ holdsGrant (busy .armed) .p0 3 (grantOf .p0 false) ∧
    verdict .p0 startOf (busy .opening) = some .wrongState ∧ verdict .p0 startOf (busy .injecting) = some .ok ∧
    started .armed [.pump] = .injecting ∧ started .armed [.console, .pump] = .holding ∧
    started .holding [.pump] = .injecting ∧ started .holding [.console, .pump] = .holding ∧
    (((after startOf ((busy .armed).updStage key (fun z => { z with progress := none }))).stage? key).bind
      Stage.progress).map Progress.firstStart = some 100 ∧
    ready.portGrant .p0 = none ∧ verdict .p0 startOf ready = some .noGrant := by
  unfold pumpReady listening holdsGrant; decide +kernel

theorem witness_PauseAddsThePumpCause :
    pumpReady (busy .injecting) .p0 ∧ holdsGrant (busy .injecting) .p0 3 (grantOf .p0 true) ∧
    verdict .p0 (.pause .p0 1 (.args ())) (busy .opening) = some .wrongState ∧
    ((after (.pause .p0 1 (.args ())) (busy .armed)).line 3).causes = [.pump] ∧
    ((after (.pause .p0 1 (.args ())) (busy .injecting)).line 3).state = .holding ∧
    ((after (.pause .p0 1 (.args ())) (busy .holding)).line 3).causes = [.console, .pump] := by
  unfold pumpReady listening holdsGrant; decide +kernel

/-- A closing line with an ENDING grant. -/
def ending (r : EndReason) : State :=
  (part [stageOf .complete key]).setLine 3
    { (boundLine .injecting).closed r 8 with readback := .opened }

/-- A port with a cut notice. -/
def cutPort : State := ready.updPort .p0 (fun x => { x with cut := some ⟨3, key, .reset⟩ })

theorem witness_PumpStatusReportsAndAnswers :
    holdsGrant (ending .refusal) .p0 3 (((ending .refusal).line 3).grant.getD (grantOf .p0 true)) ∧
    verdict .p0 (.pumpStatus .p0 1 (.args ⟨1, 250⟩)) (busy .armed) = some .ok ∧
    verdict .p0 (.pumpStatus .p0 1 (.args ⟨2, 0⟩)) (busy .armed) = some .badArgument ∧
    verdict .p0 (.pumpStatus .p0 1 (.args ⟨0, 251⟩)) (busy .armed) = some .badArgument ∧
    verdict .p0 (.pumpStatus .p0 1 (.args ⟨0, 0⟩)) (ending .refusal) = some .ok ∧
    verdict .p0 (.pumpStatus .p0 1 (.args ⟨0, 0⟩)) ready = some .noGrant ∧
    verdict .p0 (.pumpStatus .p0 1 (.args ⟨0, 251⟩)) cutPort = some .badArgument ∧
    ((after (.pumpStatus .p0 1 (.args ⟨0, 0⟩)) cutPort).port .p0).cut = none := by unfold holdsGrant; decide +kernel

theorem witness_ReleaseEndsTheGrant :
    pumpReady (busy .armed) .p0 ∧ holdsGrant (busy .armed) .p0 3 (grantOf .p0 false) ∧
    statusAfter (.release .p0 1 (.args ())) (busy .armed) key = some .ready ∧
    statusAfter (.release .p0 1 (.args ())) (busy .injecting) key = some .suspended ∧
    verdict .p0 (.release .p0 1 (.args ())) (ending .refusal) = some .ok ∧
    verdict .p0 (.release .p0 1 (.args ())) (ending .keepaliveLost) = some .noGrant ∧
    verdict .p0 (.release .p0 1 (.args ())) cutPort = some .noGrant ∧
    ((after (.release .p0 1 (.args ())) cutPort).port .p0).cut = none := by
  unfold pumpReady listening holdsGrant; decide +kernel

/-! ### The line sample event -/

theorem witness_SamplesConvertAndChannelsMove :
    ([3599, 3600, 3999, 4000, 4001, 4002, 20000, 20001, 21000, 21001].map (convertSpan 10000)) =
      [none, some 0, some 0, some 0, some 0, some 1, some 10000, some 10000, some 10000, none] ∧
    ([3599, 3600, 4000, 11999, 12000, 12004, 20000, 21000, 21001].map convertUplift) =
      [none, some (-2000), some (-2000), some 0, some 0, some 1, some 2000, some 2000, none] ∧
    ((okChannel 5).sample 255 3 none none).channel.validity = .suspect ∧
    ((channelIn .suspect 1).sample 255 3 none none).channel.validity = .suspect ∧
    ((channelIn .suspect 2).sample 255 3 none none).channel.validity = .lost ∧
    ((channelIn .regain2 0).sample 255 3 none none).channel.validity = .lost ∧
    ((channelIn .lost 3).sample 255 3 (some 200) (some 5)).channel.validity = .regain1 ∧
    ((channelIn .regain1 0).sample 255 3 (some 200) (some 2200)).channel.validity = .regain2 ∧
    ((channelIn .regain1 0).sample 255 3 (some 200) (some 2201)).channel.validity = .regain1 ∧
    ((channelIn .regain2 0).sample 255 3 (some 200) (some 9)).channel.value = 9 := by decide +kernel

/-- A held line one of whose channels is about to move. -/
def heldBy (causes : List HoldCause) (c : Channel) : State :=
  busyWith .holding (fun x => { x with causes := causes, pressure := c })

theorem witness_LineSampleMeasuresAndHoldsBySensor :
    ((stored |> after (.powerOn true true 0)).line 3).settings.present = false ∧
    ((busy .injecting).line 3).settings.present = true ∧
    evaluating (heldBy [.sensor] (channelIn .regain2 0)) 3 key (stageOf .active key) ⟨0, 0, 0, 0⟩ ∧
    ((after (openSample 7200) (heldBy [.sensor] (channelIn .regain2 0))).line 3).causes = [] ∧
    ((after (openSample 7200) (heldBy [.sensor] (channelIn .regain1 0))).line 3).causes = [.sensor] ∧
    (let armed := busyWith .armed (fun x => { x with causes := [.console, .sensor], pressure := channelIn .regain2 0 })
     (armed.line 3).causes = [.console, .sensor] ∧ ((after (openSample 7200) armed).line 3).causes = [.console] ∧
     ((after (openSample 7200) armed).line 3).state = .armed) ∧
    ((after (openSample 3599) (heldBy [.console] (channelIn .suspect 2))).line 3).causes = [.console, .sensor] ∧
    ((after (openSample 3599) (busyWith .injecting (fun x => { x with pressure := channelIn .suspect 2 }))).line 3).state
      = .holding ∧
    ((after (openSample 3599) (busyWith .injecting (fun x => { x with pressure := channelIn .suspect 2 }))).record.faults.map
      (fun e => (e.code, e.detail, e.location, e.consequence))) =
      [(.pressureLost, .value 3599, some (.line 3), .hold)] := by unfold evaluating; decide +kernel

theorem witness_ReadbackConfirmsTheValve :
    let opening := busyWith .opening (fun x => { x with travel := some ⟨.opened, 8, 7⟩, readback := .travel })
    (opening.line 3).settings.present = true ∧ (opening.line 3).command = .opened ∧
    ((after (openSample 7200) opening).line 3).state = .armed ∧
    ((after (closedSample 7200) opening).line 3).state = .opening ∧
    ((after (closedSample 7200) (ending .refusal)).line 3).state = .idle ∧
    ((after (openSample 7200) (ending .refusal)).line 3).state = .closing ∧
    (after (.lineSampleEvent 0 4000 false false true) State.reset).stop.startCheck = true := by decide +kernel

/-- A line whose travel has taken the time allowed, with two invalid readbacks behind it. -/
def late (st : LineState) (pos : ValvePos) (invalid : Nat) : State :=
  busyWith st (fun x => { x with command := pos, travel := some ⟨pos, 8, 8⟩, invalid := invalid })

/-- The isolation reason of L3 after a sample with the two switches. -/
def isolatedFor (s : State) (o c : Bool) : Option IsolationReason :=
  ((after (.lineSampleEvent 3 7200 false o c) s).line 3).isolation

theorem witness_ValveFaultIsolatesTheLine :
    isolatedFor (late .opening .opened 0) false true = some (.fault .noOpen) ∧
    isolatedFor (late .closing .closed 0) true false = some (.fault .noClose) ∧
    isolatedFor (late .closing .closed 2) true true = some (.fault .bothSwitches) ∧
    isolatedFor (late .closing .closed 1) true true = some (.fault .noClose) ∧
    isolatedFor (busy .injecting) false true = some (.fault .uncommanded) ∧
    ((busy .injecting).line 3).travel = none ∧
    isolatedFor (lineIn .isolated) true false = some .console ∧
    (after (openSample 7200) ((late .closing .closed 0).updStop (fun u => { u with estop := true }))).stop.lockdown = true ∧
    (after (openSample 7200) (late .closing .closed 0)).stop.lockdown = false ∧
    statusAfter (closedSample 7200) (busy .injecting) key = some .suspended ∧
    statusAfter (closedSample 7200) (late .opening .opened 0) key = some .ready := by decide +kernel

/-! ### The evaluation, the stage ends and the hazards -/

theorem witness_EvaluationFormsTheEnvelope :
    evaluating (busy .armed) 3 key (stageOf .active key) ⟨0, 0, 0, 0⟩ ∧ 1 ≤ (fieldsOf key).tRef ∧
    ((after (openSample 7200) (busy .armed)).line 3).ring = [(2300, 60)] ∧
    (((after (openSample 3599) (busy .armed)).line 3).values.map Computed.stale) = some true ∧
    (((after (openSample 7200) (busy .holding)).stage? key).bind Stage.progress).map Progress.maxPe = some 2300 := by
  unfold evaluating; decide +kernel

/-- An injecting line with counts before its evaluation, pulses since its last sample and a volume. -/
def atEvaluation (d : DecisionRecord) (pulses v : Nat) : State :=
  (busyWith .injecting (fun x => { x with decision := some d, pulses := pulses })).updStage key
    (fun z => { z with progress := z.progress.map (fun g => { g with v := v }) })

/-- The end cause of the stage after a sample. -/
def endAfter (i : Nat) (s : State) : Option EndCause := ((after (openSample i) s).stage? key).bind Stage.endCause

theorem witness_EndConditionEndsTheStage :
    inKeyOrder (busy .injecting).store.stages ∧
    evaluating (busy .injecting) 3 key (stageOf .active key) ⟨0, 0, 0, 0⟩ ∧
    endAfter 7200 (atEvaluation ⟨0, 0, 0, 0⟩ 8 1250000) = some .volumeCap ∧
    endAfter 7200 (atEvaluation ⟨0, 0, 0, 0⟩ 8 1249500) = none ∧
    endAfter 7456 (atEvaluation ⟨0, 3, 0, 0⟩ 8 610000) = some .intensityCap ∧
    endAfter 7455 (atEvaluation ⟨0, 3, 0, 0⟩ 8 610000) = none ∧
    endAfter 7456 (atEvaluation ⟨0, 2, 0, 0⟩ 8 610000) = none ∧
    endAfter 7240 (atEvaluation ⟨239, 0, 0, 0⟩ 1 610000) = some .refusal ∧
    endAfter 7240 (atEvaluation ⟨238, 0, 0, 0⟩ 1 610000) = none ∧
    endAfter 7239 (atEvaluation ⟨239, 0, 0, 0⟩ 1 610000) = none := by unfold evaluating inKeyOrder; decide +kernel

/-- The decision record of L3 after a sample. -/
def countsAfter (i : Nat) (s : State) : Option DecisionRecord := ((after (openSample i) s).line 3).decision

theorem witness_EvaluationCountsTowardsEndsAndOverpressure :
    countsAfter 3599 (atEvaluation ⟨5, 2, 1, 0⟩ 8 610000) = some ⟨0, 0, 0, 0⟩ ∧
    countsAfter 7650 (atEvaluation ⟨5, 1, 1, 0⟩ 8 610000) = some ⟨0, 2, 0, 0⟩ ∧
    countsAfter 7652 (atEvaluation ⟨5, 1, 0, 0⟩ 8 610000) = some ⟨0, 2, 1, 0⟩ ∧
    ((after (openSample 7652) (atEvaluation ⟨5, 1, 1, 0⟩ 8 610000)).line 3).causes = [.overpressure] ∧
    ((after (openSample 7455) (busyWith .holding (fun x =>
      { x with causes := [.overpressure], decision := some ⟨0, 0, 0, 3⟩ }))).line 3).causes = [] ∧
    ((after (openSample 7456) (busyWith .holding (fun x =>
      { x with causes := [.overpressure], decision := some ⟨0, 0, 0, 3⟩ }))).line 3).causes = [.overpressure] ∧
    countsAfter 7455 (busyWith .holding (fun x => { x with causes := [.overpressure], decision := some ⟨0, 0, 0, 2⟩ })) =
      some ⟨0, 0, 0, 3⟩ ∧
    countsAfter 7200 (busyWith .armed (fun x => { x with decision := some ⟨1, 1, 1, 1⟩ })) = some ⟨1, 1, 1, 1⟩ := by
  decide +kernel

/-- The causes after a sample of an injecting line with a history ring. -/
def causesOf (ring : List (Nat × Nat)) : List HoldCause :=
  ((after (openSample 7200) (busyWith .injecting (fun x => { x with ring := ring }))).line 3).causes

theorem witness_FractureHoldsTheLine :
    ((busy .injecting).line 3).causes = [] ∧ ((busy .injecting).line 3).pressure.validity = .valid ∧
    causesOf (List.replicate 4 (2875, 40)) = [.fracture] ∧ causesOf (List.replicate 3 (2875, 40)) = [] ∧
    causesOf (List.replicate 5 (2873, 40)) = [] ∧ causesOf (List.replicate 4 (2875, 41)) = [] := by decide +kernel

/-- L3 in WATCH on hole 216, and L5 injecting into a stage that names it as a neighbour. -/
def watching (w : Watch) (c : Channel) : State :=
  ((part [stageOf .active key]).setLine 5 (boundLine .injecting)).updLine 3
    (fun x => { x with state := .watch, watch := some w, pressure := c })

/-- A watch record three rises on. -/
def rising : Watch := ⟨216, none, some 300, 8, true, 3, 0⟩

theorem witness_WatchFindsConnections :
    ((watching rising (okChannel 300)).line 3).settings.present = true ∧ ((watching rising (okChannel 300)).line 3).command = .closed ∧ ((watching rising (okChannel 300)).line 3).travel = none ∧
    ((watching rising (okChannel 300)).line 3).watch = some rising ∧ ((after (closedSample 4640) (watching rising (okChannel 300))).line 5).causes = [.connection] ∧
    (after (closedSample 4640) (watching rising (okChannel 300))).connections.records.map (fun r => (r.line, r.hole, r.rise)) =
      [(3, 216, 100)] ∧
    (after (closedSample 4640) (watching rising (okChannel 300))).connections.records.map ConnectionRecord.candidates =
      [[(5, key)]] ∧
    (after (closedSample 4639) (watching rising (okChannel 300))).connections.records = [] ∧
    ((after (closedSample 4480) (watching { rising with baseline := none, settle := 7 } (okChannel 0))).line 3).watch =
      some rising ∧
    ((after (closedSample 4480) (watching rising (channelIn .regain2 0))).line 3).watch = some ⟨216, none, none, 1, true, 0, 0⟩ ∧
    ((after (closedSample 3599) (watching rising (okChannel 300))).line 3).watch = some { rising with rise := 0 } ∧
    ((after (closedSample 4559) (watching { rising with armed := false, rearm := 3 } (okChannel 0))).line 3).watch = some rising ∧
    ((after (closedSample 4560) (watching { rising with armed := false, rearm := 3 } (okChannel 0))).line 3).watch =
      some { rising with armed := false } := by and_intros <;> decide +kernel

/-- The classes of L3 after a sample of the worked case. -/
def classesAfter (i : Nat) (c : Classes) : Option Classes :=
  ((after (openSample i) (busyWith .injecting (fun x => { x with classes := some c }))).line 3).classes

theorem witness_ThickeningFollowsTheEvaluation :
    classesAfter 3599 ⟨2, 2, 7, 50, some 1⟩ = some ⟨2, 2, 7, 0, some 1⟩ ∧
    classesAfter 7200 ⟨3, 2, 7, 50, some 1⟩ = some ⟨3, 2, 7, 0, some 1⟩ ∧
    classesAfter 7200 ⟨2, 2, 7, 50, none⟩ = some ⟨2, 2, 57, 0, some 2300⟩ ∧
    classesAfter 7200 ⟨2, 2, 500000, 50, some 2200⟩ = some ⟨2, 2, 0, 0, some 2300⟩ ∧
    classesAfter 7200 ⟨2, 2, 499950, 50, some 2201⟩ = some ⟨3, 2, 0, 0, some 2300⟩ ∧
    classesAfter 7200 ⟨2, 2, 499949, 50, some 2201⟩ = some ⟨2, 2, 499999, 0, some 2201⟩ ∧
    (let ordered (cls : Nat) : State := (busyWith .injecting (fun x => { x with
       classes := some ⟨cls, cls, 500000, 0, some 2300⟩ })).updGrout (fun g => { g with mixOrder := cls })
     (ordered 2).orderInputs = [2] ∧ (after (openSample 7200) (ordered 2)).grout.mixOrder = 3 ∧
     (after (openSample 7200) (ordered 6)).grout.mixOrder = 6 ∧
     (after (openSample 7200) (ordered 8)).grout.mixOrder = 6) := by decide +kernel

/-! ### Flow pulses, gauges, stops and timers -/

/-- The injecting part with the given remaining volumes in its tank. -/
def tankOf (r : List Nat) : State :=
  (busy .injecting).updGrout (fun g => { g with batches := r.map (fun n => ⟨1, 2, 400, n, 0⟩) })

/-- What remains in the tank after a pulse of 50 mL. -/
def remainingAfter (s : State) : List Nat := (after (.flowPulse 3) s).grout.batches.map Batch.remaining

/-- A tank whose class falls from 2 to 1 with the next pulse of 50 mL (section 7.10, "What follows"). -/
def thinning : State :=
  (busy .injecting).updGrout (fun g => { g with batches := [⟨1, 2, 400, 50, 0⟩, ⟨2, 1, 400, 400000, 0⟩] })

/-- The transit queue of L3 after a pulse that finds the given one. -/
def transitAfter (s : State) (q : List Transit) : List Transit :=
  ((after (.flowPulse 3) (s.updLine 3 (fun x => { x with transit := q }))).line 3).transit

theorem witness_FlowPulseMetersTheGrout :
    remainingAfter (tankOf [51]) = [1] ∧ remainingAfter (tankOf [50, 9]) = [9] ∧ remainingAfter (tankOf [40, 11]) = [1] ∧
    remainingAfter (tankOf [20, 20, 20]) = [10] ∧ remainingAfter (tankOf [49]) = [] ∧
    (after (.flowPulse 3) (tankOf [49])).grout.unaccounted = 1 ∧ (after (.flowPulse 3) (tankOf [50])).grout.unaccounted = 0 ∧
    (((after (.flowPulse 3) (tankOf [51])).stage? key).bind Stage.progress).map Progress.v = some 610050 ∧
    (((after (.flowPulse 3) (busyWith .injecting (fun x => { x with flow := channelIn .suspect 1 }))).stage? key).bind
      Stage.progress).map Progress.unmetered = some 1 ∧
    (after (.flowPulse 2) (tankOf [51])).grout = (tankOf [51]).grout ∧
    ((after (.flowPulse 3) (busyWith .injecting (fun x => { x with transit := [⟨3, 50⟩] }))).line 3).classes =
      some ⟨2, 3, 0, 0, none⟩ ∧
    ((after (.flowPulse 3) (busyWith .injecting (fun x => { x with transit := [⟨3, 51⟩] }))).line 3).transit =
      [⟨3, 1⟩] ∧
    transitAfter thinning [] = [⟨1, 40000⟩] ∧ transitAfter thinning [⟨3, 51⟩] = [⟨3, 1⟩, ⟨1, 40000⟩] ∧
    transitAfter thinning [⟨3, 50⟩, ⟨2, 99⟩, ⟨3, 98⟩] = [⟨2, 99⟩, ⟨3, 98⟩, ⟨1, 40000⟩] ∧
    transitAfter thinning [⟨3, 51⟩, ⟨2, 99⟩, ⟨3, 98⟩] = [⟨2, 99⟩, ⟨3, 98⟩, ⟨1, 40000⟩] := by decide +kernel

/-- A part at work with a line injecting and its first gauge as given. -/
def gauged (g : Gauge) : State := (busy .injecting).setGauge 0 g

/-- The first gauge after a sample. -/
def gaugeAfter (i : Nat) (g : Gauge) : Gauge := (after (.gaugeSampleEvent 0 i) (gauged g)).gauge 0

theorem witness_GaugeSampleJudgesAndLatches :
    (gauged (gaugeAt 0)).enabled 0 = true ∧
    (gaugeAfter 12200 { gaugeAt 0 with warnCount := 3 }).warning = true ∧
    (gaugeAfter 12196 { gaugeAt 0 with warnCount := 3 }).warning = false ∧
    (gaugeAfter 12156 { gaugeAt 0 with warning := true, clearCount := 7 }).warning = false ∧
    (gaugeAfter 12160 { gaugeAt 0 with warning := true, clearCount := 7 }).warning = true ∧
    (gaugeAfter 12400 { gaugeAt 0 with baseline := none }).judged = false ∧
    (after (.gaugeSampleEvent 0 12400) (gauged { gaugeAt 0 with stopCount := 1 })).stop.upliftStop = true ∧
    (after (.gaugeSampleEvent 0 12396) (gauged { gaugeAt 0 with stopCount := 1 })).stop.upliftStop = false ∧
    (after (.gaugeSampleEvent 0 12400) (gauged { gaugeAt 0 with stopCount := 0 })).stop.upliftStop = false ∧
    ((after (.gaugeSampleEvent 0 12400) (gauged { gaugeAt 0 with stopCount := 1 })).line 3).causes = [.uplift] ∧
    (after (.gaugeSampleEvent 0 0) (gauged { gaugeAt 0 with channel := channelIn .suspect 2 })).stop.warn = true := by
  decide +kernel

theorem witness_EstopContactStopsThePart :
    let at' (o c : Nat) (e : Bool) (st : LineState) := (busy st).updStop (fun u => { u with openCount := o, closedCount := c, estop := e })
    (after (.estopSample true) (at' 1 0 false .injecting)).stop.estop = true ∧
    (after (.estopSample true) (at' 0 0 false .injecting)).stop.estop = false ∧
    (after (.estopSample false) (at' 0 7 true .holding)).stop.estop = false ∧
    (after (.estopSample false) (at' 0 6 true .holding)).stop.estop = true ∧
    ((after (.estopSample true) (at' 1 0 false .opening)).line 3).state = .closing ∧
    statusAfter (.estopSample true) (at' 1 0 false .opening) key = some .ready := by decide +kernel

/-- A line under a LIVE grant whose timers have counted the given seconds. -/
def elapsing (accept keepalive : Nat) (st : LineState) : State :=
  busyWith st (fun x => { x with grant := x.grant.map (fun g =>
    { g with accept := g.accept.map (fun w => { w with elapsed := accept }), keepalive := some ⟨3, keepalive⟩ }) })

theorem witness_TimersEndHoldsAndGrants :
    ((busyWith .holding (fun x => { x with holdTimer := some 1200 })).settings.holdLimit) = 20 ∧
    statusAfter (.holdTimeout 3) (busyWith .holding (fun x => { x with holdTimer := some 1200 })) key = some .suspended ∧
    after (.holdTimeout 3) (busyWith .holding (fun x => { x with holdTimer := some 1199 })) =
      busyWith .holding (fun x => { x with holdTimer := some 1199 }) ∧
    statusAfter (.acceptWindowExpiry 3) (elapsing 60 2 .armed) key = some .ready ∧
    after (.acceptWindowExpiry 3) (elapsing 59 2 .armed) = elapsing 59 2 .armed ∧
    after (.acceptWindowExpiry 3) (elapsing 60 3 .injecting) = elapsing 60 3 .injecting ∧
    statusAfter (.keepaliveExpiry 3) (elapsing 7 3 .armed) key = some .ready ∧
    statusAfter (.keepaliveExpiry 3) (elapsing 7 3 .holding) key = some .suspended ∧
    after (.keepaliveExpiry 3) (elapsing 7 2 .holding) = elapsing 7 2 .holding ∧
    after (.keepaliveExpiry 3) (ending .refusal) = ending .refusal ∧
    (((after (.valveTravelTimeElapsed 3) (ending .refusal)).line 3).travel.map Travel.elapsed) = some 8 := by decide +kernel

/-- A part with writes begun. -/
def writing (w : List StoreWrite) : State := { ready with store := { ready.store with writes := w } }

/-- A summary of a stage. -/
def summaryFor (k : StageKey) : Summary := ⟨k, .refusal, 0, 0, 0, 0, 0, 0, 0, 0, 0, 0, 0, 0, 0⟩

theorem witness_StoreWritesCompleteOrFail :
    (after .storeWriteCompleted (after .storeWriteCompleted
      (writing [.summary (summaryFor key), .stageRemoved key]))).store.nv.completions = [] ∧
    (after .storeWriteCompleted (after .storeWriteCompleted
      (writing [.summary (summaryFor key), .summary (summaryFor key)]))).store.nv.completions = [summaryFor key] ∧
    ready.store.writes = [] ∧ after .storeWriteFailed ready = ready ∧
    (after .storeWriteCompleted (writing [.stage (stageOf .ready key2), .readers true true])).store.nv.stages =
      [stageOf .ready key2] ∧
    (after .storeWriteCompleted (writing [.readers true false])).store.nv.readerC0 = true ∧
    (after .storeWriteFailed (writing [.readers true true, .part PartSettings.default])).store.writes = [] ∧
    (after .storeWriteFailed (writing [.readers true true])).store.fault = true := by decide +kernel

/-! ### Invariants -/

/-- A part whose store has begun to write a stage anew and to remove another. -/
def storing : State :=
  { busy .injecting with store :=
    { (busy .injecting).store with
      writes := [.stage (stageOf .active key).stored, .stageRemoved key2]
      nv := { NvCopy.factory with stages := [stageOf .ready key, stageOf .ready key2] } } }

theorem witness_EveryStepKeepsTheTables : storing.tablesOk := by
  have table : tableOk storing.store.stages storing.record.completions := by
    unfold tableOk inKeyOrder; decide +kernel
  have copy : storing.store.copyOk :=
    ⟨Store.forall_copyAfter (P := fun c => tableOk c.stages c.completions)
      (by unfold tableOk inKeyOrder; decide +kernel), by decide +kernel⟩
  refine ⟨table, copy, by unfold Line.listsOk; decide +kernel, by decide +kernel, by decide +kernel, ?_, by decide +kernel,
    by decide +kernel, by decide +kernel, by decide +kernel, ?_, ?_⟩
  · intro p; cases p <;> decide +kernel
  · unfold Reader.standsIn; decide +kernel
  · unfold Reader.standsIn; decide +kernel

theorem witness_NoInjectionDuringAStop : (busy .injecting).stopsHold ∧ (uplifted 0).stopsHold ∧
    (uplifted 0).stop.upliftStop = true := by unfold State.stopsHold; and_intros <;> decide +kernel

theorem witness_ValvesOpenOnlyUnderALiveGrant : (busy .injecting).grantsOk := by
  have h : ∀ l p, ((busy .injecting).line l).owner = some p → l = 3 ∧ p = .p0 := by
    intro l p; revert l; cases p <;> decide +kernel
  refine ⟨?_, fun l p e => by rw [(h l p e).2]; rfl, fun l m p e f => by rw [(h l p e).1, (h m p f).1]⟩
  intro l
  unfold Line.grantOk
  refine ⟨?_, ?_, ?_, ?_, ?_⟩
  · revert l; decide +kernel
  · intro w e
    have : ((busy .injecting).line l).travel = none := by clear e; revert l; decide +kernel
    rw [this] at e; cases e
  · intro e
    have : l = 3 := by revert l; decide +kernel
    subst this
    exact ⟨by decide +kernel, grantOf .p0 true, by decide +kernel, by decide +kernel⟩
  · intro e
    have : ((busy .injecting).line l).state ≠ .closing := by revert l; decide +kernel
    exact absurd e this
  · revert l; decide +kernel

theorem witness_ActiveStagesHaveOneCarrier : (busy .injecting).carriersOk := by
  unfold State.carriersOk inKeyOrder
  have h : ∀ l k, ((busy .injecting).line l).carried = some k → l = 3 := by
    intro l k e
    have : ((busy .injecting).line l).carried ≠ none := by rw [e]; simp
    revert this; clear e; revert l; decide +kernel
  refine ⟨by decide +kernel, by decide +kernel, by decide +kernel, ?_, fun l m k e f => by rw [h l k e, h m k f]⟩
  intro l e
  have : l = 3 := by revert l; decide +kernel
  subst this
  exact ⟨key, stageOf .active key, by decide +kernel, by decide +kernel, by decide +kernel⟩

end Sys2Proof.Tests
end

