-- ==== Sys2Proof/Proofs/PumpRequests.lean ====
section
/-! PROOFS. START, PAUSE and RELEASE under a grant and without one (03_injection_grants.md). -/

namespace Sys2Proof.Machine

/-! ### The parts of the state that a change leaves alone -/

section
variable {A : List Part} {s t : State}

theorem keeps.store (h : keeps A s t) (hs : .stages ∉ A) (hw : .writes ∉ A) (hf : .storeFault ∉ A) (hn : .nvCopy ∉ A) :
    t.store = s.store := by
  have stages : t.store.stages = s.store.stages := h.2 .stages hs
  have writes : t.store.writes = s.store.writes := h.2 .writes hw
  have fault : t.store.fault = s.store.fault := h.2 .storeFault hf
  have nv : t.store.nv = s.store.nv := h.2 .nvCopy hn
  cases ht : t.store
  cases hs : s.store
  simp_all

/-- Where a change begins no write and latches no STORE_FAULT, the same writes stand begun after one more. -/
theorem keeps.begun (h : keeps A s t) (hw : .writes ∉ A) (hf : .storeFault ∉ A) (w : StoreWrite) :
    begun t w = begun s w := by
  have writes : t.store.writes = s.store.writes := h.2 .writes hw
  have fault : t.store.fault = s.store.fault := h.2 .storeFault hf
  simp [Machine.begun, writes, fault]

/-- The mix order is formed from the lines, and of each stage its waiting flag and start class (R130). -/
theorem orderInputs_congr (hl : ∀ l, t.line l = s.line l)
    (hs : t.store.stages.filterMap (fun x => if x.waiting then some x.fields.startClass else none) =
      s.store.stages.filterMap (fun x => if x.waiting then some x.fields.startClass else none)) :
    t.orderInputs = s.orderInputs := by
  simp only [State.orderInputs, hl, hs]

theorem keeps.orderInputs (h : keeps A s t) (hr : .lines ∉ A) (hs : .lineSettings ∉ A) (hm : .meters ∉ A)
    (ht : .stages ∉ A) : t.orderInputs = s.orderInputs := by
  have stages : t.store.stages = s.store.stages := h.2 .stages ht
  exact orderInputs_congr (h.line hr hs hm) (by rw [stages])

end

/-- A change of one stage's record that is no matter of its mix leaves the classes of the mix order as they are. -/
theorem orderInputs_updStage (s : State) (k : StageKey) (f : Stage → Stage) (hw : ∀ x, (f x).waiting = x.waiting)
    (hf : ∀ x, (f x).fields = x.fields) : (s.updStage k f).orderInputs = s.orderInputs := by
  refine orderInputs_congr (fun _ => rfl) ?_
  rw [stages_updStage, mapStage, List.filterMap_map]
  congr 1
  funext x
  by_cases hk : x.key = k <;> simp [hk, hw, hf]

/-- The mix order stands as it was last formed (R130). -/
theorem mixOrder_formMixOrder (s : State) :
    (formMixOrder s).grout.mixOrder = lowestClass (formMixOrder s).orderInputs := by
  have inputs : (formMixOrder s).orderInputs = s.orderInputs :=
    (formMixOrder_keeps s).orderInputs (by decide) (by decide) (by decide) (by decide)
  rw [inputs]
  unfold formMixOrder
  dsimp only
  split
  · exact Eq.symm ‹_›
  · exact (postPart_keeps _ _ _).2 .mixOrder (by decide)

/-! ### A request under a grant -/

/-- The grant of a port once a request from it is heard: the keepalive of a LIVE one starts again (R50). -/
def Grant.heard (g : Grant) : Grant :=
  if g.phase = .live then { g with keepalive := g.keepalive.map Timer.restart } else g

theorem heard_live {g : Grant} (h : g.phase = .live) :
    g.heard = { g with keepalive := g.keepalive.map Timer.restart } := if_pos h

@[simp] theorem phase_heard (g : Grant) : g.heard.phase = g.phase := by unfold Grant.heard; split <;> rfl
@[simp] theorem startTaken_heard (g : Grant) : g.heard.startTaken = g.startTaken := by
  unfold Grant.heard; split <;> rfl
@[simp] theorem endReason_heard (g : Grant) : g.heard.endReason = g.endReason := by
  unfold Grant.heard; split <;> rfl

section
variable {s : State} {p : Port} {l : LineId} {g : Grant}

theorem heard_grant (h : holdsGrant s p l g) : ((heard p s).line l).grant = some g.heard := by
  obtain ⟨port, grant⟩ := h
  rw [heard_line, if_pos port]
  simp only [grant, Option.map_some, Grant.heard]

theorem begun_heard (p : Port) (s : State) (w : StoreWrite) : begun (heard p s) w = begun s w := by
  simp only [begun, heard_store]

/-- A pump port's request of a kind for pumps passes the role check (R170). -/
theorem permits_of_pumpReady {k : RequestKind} (hk : k.permits p = !p.isConsole) (hp : pumpReady s p) :
    k.permits p = true := by
  rw [hk, hp.1]; rfl

/-- A request that needs a grant, from the port that holds it: its own checks and effect decide (R50). -/
theorem request_held {α : Type} {k : RequestKind} (hk : k.permits p = !p.isConsole) (tag : Byte) (a : α)
    (without : State → Reply) (own : LineId → Grant → State → Reply) (hp : pumpReady s p) (hg : holdsGrant s p l g) :
    request k p tag (.args a) (fun _ => withGrant p without own) s =
      .next (respond p k.code tag (own l g.heard (heard p s))) := by
  have permitted := permits_of_pumpReady hk hp
  obtain ⟨-, listens, unlocked⟩ := hp
  rw [request_taken k tag a _ listens permitted, withGrant, unlessLocked_free _ (by simpa using unlocked)]
  simp only [heard_portGrant, hg.1, heard_grant hg]

/-- A request that needs a grant, from a port without one (R50). -/
theorem request_without {α : Type} {k : RequestKind} (hk : k.permits p = !p.isConsole) (tag : Byte) (a : α)
    (without : State → Reply) (own : LineId → Grant → State → Reply) (hp : pumpReady s p) (hg : s.portGrant p = none) :
    request k p tag (.args a) (fun _ => withGrant p without own) s =
      .next (respond p k.code tag (without (heard p s))) := by
  have permitted := permits_of_pumpReady hk hp
  obtain ⟨-, listens, unlocked⟩ := hp
  rw [request_taken k tag a _ listens permitted, withGrant, unlessLocked_free _ (by simpa using unlocked)]
  simp only [heard_portGrant, hg]

/-! START, PAUSE and RELEASE, from the port that holds the grant. -/

theorem exec_start_held (tag : Byte) (hp : pumpReady s p) (hg : holdsGrant s p l g) :
    exec (.start p tag (.args ())) s =
      .next (respond p RequestKind.start.code tag (startReply l g.heard (heard p s))) :=
  request_held rfl tag () _ _ hp hg

theorem exec_pause_held (tag : Byte) (hp : pumpReady s p) (hg : holdsGrant s p l g) :
    exec (.pause p tag (.args ())) s =
      .next (respond p RequestKind.pause.code tag (pauseReply l g.heard (heard p s))) :=
  request_held rfl tag () _ _ hp hg

theorem exec_release_held (tag : Byte) (hp : pumpReady s p) (hg : holdsGrant s p l g) :
    exec (.release p tag (.args ())) s =
      .next (respond p RequestKind.release.code tag (releaseReply l g.heard (heard p s))) :=
  request_held rfl tag () _ _ hp hg

end

/-- The directive under a LIVE grant (R57). -/
theorem directive_live {x : Line} {g : Grant} (hx : x.grant = some g) (hg : g.phase = .live) :
    x.directive = if x.state = .injecting then .run else if x.state = .holding then .hold else .none := by
  unfold Line.directive
  rw [hx]
  cases hs : x.state <;> simp [hg]

/-! ### START (R41, R54) -/

theorem withoutCause_eq_filter (c : HoldCause) (set : List HoldCause) :
    withoutCause c set = set.filter (fun d => d ≠ c) := by
  unfold withoutCause
  congr 1
  funext d
  by_cases h : d = c <;> simp [h]

section
variable {x : Line}

/-- A START that leaves no cause takes the line to INJECTING (R41). -/
theorem takeStart_clear (h : withoutCause .pump x.causes = []) :
    x.takeStart = { x with state := .injecting, causes := [], holdTimer := none, ring := [] } := by
  simp [Line.takeStart, Line.enterInjecting, h]

/-- A START that leaves a cause keeps a HOLDING line there, with its timer (R41). -/
theorem takeStart_holding (hs : x.state = .holding) (h : withoutCause .pump x.causes ≠ []) :
    x.takeStart = { x with causes := withoutCause .pump x.causes } := by
  simp [Line.takeStart, h, hs]

/-- A START that leaves a cause takes a line that is not HOLDING there (R41). -/
theorem takeStart_held (hs : x.state ≠ .holding) (h : withoutCause .pump x.causes ≠ []) :
    x.takeStart = { x with
      state := .holding, causes := withoutCause .pump x.causes, holdTimer := some 0,
      decision := x.decision.map (fun d => { d with refusal := 0, intensity := 0 }) } := by
  simp [Line.takeStart, Line.enterHolding, h, hs]

theorem takeStart_state :
    x.takeStart.state = if withoutCause .pump x.causes = [] then .injecting else .holding := by
  by_cases h : withoutCause .pump x.causes = []
  · rw [takeStart_clear h, if_pos h]
  · rw [if_neg h]
    by_cases hs : x.state = .holding
    · rw [takeStart_holding hs h]; exact hs
    · rw [takeStart_held hs h]

/-- A START leaves the line its binding and its grant. -/
theorem takeStart_binding : x.takeStart.stage = x.stage ∧ x.takeStart.grant = x.grant := by
  unfold Line.takeStart Line.enterInjecting Line.enterHolding
  dsimp only
  split
  · exact ⟨rfl, rfl⟩
  split <;> exact ⟨rfl, rfl⟩

/-- The directive after a START is taken in ARMED or HOLDING (R54, R57). -/
theorem takeStart_directive {g : Grant} (hx : x.grant = some g) (hg : g.phase = .live) :
    x.takeStart.directive = if withoutCause .pump x.causes = [] then .run else .hold := by
  rw [directive_live (takeStart_binding.2.trans hx) hg, takeStart_state]
  by_cases h : withoutCause .pump x.causes = [] <;> simp [h]

end

section
variable {s : State} {l : LineId}

theorem withBound_bound {k : StageKey} (h : (s.line l).stage = some k) (f : StageKey → State → State) :
    withBound l f s = f k s := by
  unfold withBound
  rw [h]

/-- A START in ARMED, on its line and on the stage bound to it (R21, R54). -/
theorem startArmed_bound {k : StageKey} (h : (s.line l).stage = some k) :
    startArmed l s =
      (s.setLine l ({ s.line l with grant := (s.line l).grant.map Grant.started } : Line).takeStart).updStage k
        (Stage.started l (s.line l).effectiveClass s.clock.site) := by
  unfold startArmed
  exact withBound_bound (by rw [line_setLine_self, takeStart_binding.1]; exact h) _

theorem key_started (l : LineId) (cls site : Nat) (x : Stage) : (x.started l cls site).key = x.key := by
  unfold Stage.started
  split <;> rfl

/-- A stage that has progress keeps it at a START, but for its last line (R21). -/
theorem started_again {x : Stage} {r : Progress} (h : x.progress = some r) (l : LineId) (cls site : Nat) :
    x.started l cls site = { x with progress := some { r with lastLine := l } } := by
  simp only [Stage.started, h]

/-- The first START of a stage creates its progress (R21). -/
theorem started_first {x : Stage} (h : x.progress = none) (l : LineId) (cls site : Nat) :
    x.started l cls site =
      { x with startTime := some site, progress := some ⟨0, 0, cls, 0, 0, 0, 0, 0, site, l⟩ } := by
  simp only [Stage.started, h]
  rfl

/-- The stage table after a START in ARMED (R21). -/
theorem stage_startArmed {k : StageKey} (h : (s.line l).stage = some k) (j : StageKey) :
    (startArmed l s).stage? j =
      if j = k then (s.stage? k).map (Stage.started l (s.line l).effectiveClass s.clock.site) else s.stage? j := by
  rw [startArmed_bound h, stage_updStage _ _ _ _ (key_started _ _ _)]
  rfl

/-- The lines after a START in ARMED (R41, R54). -/
theorem line_startArmed (m : LineId) :
    (startArmed l s).line m =
      if m = l then ({ s.line l with grant := (s.line l).grant.map Grant.started } : Line).takeStart
      else s.line m := by
  have stageSide (t : State) (f : StageKey → Stage → Stage) :
      (withBound l (fun k s => s.updStage k (f k)) t).line m = t.line m :=
    (withBound_keeps (A := [.stages]) l _ t (fun _ => updStage_keeps _ _ _)).line (by decide) (by decide) (by decide) m
  exact (stageSide _ _).trans (line_setLine _ _ _ _)

theorem startReply_wrongState {g : Grant} (h : (s.line l).state ∉ [.armed, .injecting, .holding]) :
    startReply l g s = refuse .wrongState s := by
  unfold startReply
  cases hs : (s.line l).state <;> simp_all

theorem startReply_injecting {g : Grant} (h : (s.line l).state = .injecting) :
    startReply l g s = accept (.directive (s.line l).directive) s := by
  unfold startReply
  rw [h]

theorem startReply_holding {g : Grant} (h : (s.line l).state = .holding) :
    startReply l g s = accept (.directive (s.line l).takeStart.directive) (s.updLine l Line.takeStart) := by
  unfold startReply
  simp only [h, line_updLine_self]

theorem startReply_armed {g : Grant} (h : (s.line l).state = .armed) :
    startReply l g s = accept (.directive ((startArmed l s).line l).directive) (startArmed l s) := by
  unfold startReply
  rw [h]

end

/-- A START heard and taken in ARMED, as the LIVE grant records it (R50, R54). -/
theorem started_heard {g : Grant} (h : g.phase = .live) :
    g.heard.started = { g with
      startTaken := true, accept := none, keepalive := g.keepalive.map (fun w => { w with elapsed := 0 }) } := by
  rw [heard_live h]
  rfl

/-- Settles O37: a case for each line state, by what `startReply` answers there and what `Line.takeStart` makes of the
line. -/
theorem startByTheLineState : Obligations.StartByTheLineState := by
  unfold Obligations.StartByTheLineState
  refine ⟨?_, fun s p tag hp hn => ⟨request_without rfl tag () _ _ hp hn, request_without rfl tag () _ _ hp hn⟩⟩
  intro s p tag l g hp hg c x left directive
  have run := exec_start_held tag hp hg
  have grant : x.grant = some g.heard := heard_grant hg
  have causes : withoutCause .pump x.causes = left := withoutCause_eq_filter _ _
  refine ⟨fun hs => ?wrongState, fun hs live => ?injecting, fun hs live => ?holding, fun k z hs live hk hz => ?armed⟩
  case wrongState => rwa [startReply_wrongState hs] at run
  case injecting =>
    rw [startReply_injecting hs, directive_live grant (by simpa using live), if_pos hs] at run
    exact run
  case holding =>
    rw [startReply_holding hs, takeStart_directive grant (by simpa using live), causes] at run
    refine ⟨_, run, fun m hm => by simp [line_updLine, hm], by simp, ?_⟩
    rw [line_updLine_self]
    split
    next noneLeft => exact takeStart_clear (causes.trans noneLeft)
    next someLeft => exact (takeStart_holding hs (causes ▸ someLeft)).trans (by rw [causes])
  case armed =>
    refine ⟨startArmed l (heard p s), ?_⟩
    intro y
    have line : (startArmed l (heard p s)).line l = y.takeStart := by
      rw [line_startArmed, if_pos rfl]
      simp only [y, x, heard_grant hg, Option.map_some, started_heard live]
    have causes : withoutCause .pump y.causes = left := causes
    have stage (j : StageKey) := stage_startArmed (s := heard p s) hk j
    rw [startReply_armed hs, line, takeStart_directive (x := y) rfl live, causes] at run
    refine ⟨run, fun m hm => by rw [line_startArmed, if_neg hm], fun h => ?_, fun h => ?_,
      fun j hj => ?_, fun r hr => ?_, fun hr => ?_⟩
    · exact line.trans (takeStart_clear (causes.trans h))
    · have armed : y.state ≠ .holding := fun e => by cases hs.symm.trans e
      rw [line, takeStart_held armed (causes ▸ h), causes]
    · rw [stage, if_neg hj, heard_stage?]
    · rw [stage, if_pos rfl, heard_stage?, hz, Option.map_some, started_again hr]
    · rw [stage, if_pos rfl, heard_stage?, hz, Option.map_some, started_first hr, heard_clock]

/-! ### PAUSE (R39, R55) -/

theorem mem_withCause {c d : HoldCause} {set : List HoldCause} : d ∈ withCause c set ↔ d = c ∨ d ∈ set := by
  have all : d ∈ HoldCause.all := by cases d <;> decide
  simp [withCause, all]

section
variable {x : Line} {c : HoldCause}

/-- A cause that a line has is added in vain (R39). -/
theorem held_of_mem (h : c ∈ x.causes) : x.held c = x := by
  simp [Line.held, h]

/-- A cause new to a line in ARMED or HOLDING joins its set (R39). -/
theorem held_stays (hs : x.state = .armed ∨ x.state = .holding) (h : c ∉ x.causes) :
    x.held c = { x with causes := withCause c x.causes } := by
  rcases hs with hs | hs <;> simp [Line.held, h, hs]

/-- A cause new to an INJECTING line takes it to HOLDING (R39, R42). -/
theorem held_injecting (hs : x.state = .injecting) (h : c ∉ x.causes) :
    x.held c = { x with
      causes := withCause c x.causes, state := .holding, holdTimer := some 0,
      decision := x.decision.map (fun d => { d with refusal := 0, intensity := 0 }) } := by
  simp [Line.held, h, hs]

theorem causes_held (hs : x.state ∈ [.armed, .injecting, .holding]) (d : HoldCause) :
    d ∈ (x.held c).causes ↔ d = c ∨ d ∈ x.causes := by
  by_cases h : c ∈ x.causes
  · rw [held_of_mem h]
    exact ⟨.inr, fun hd => hd.elim (fun e => e ▸ h) id⟩
  · have causes : (x.held c).causes = withCause c x.causes := by
      simp only [List.mem_cons, List.not_mem_nil, or_false] at hs
      rcases hs with hs | hs | hs
      · rw [held_stays (.inl hs) h]
      · rw [held_injecting hs h]
      · rw [held_stays (.inr hs) h]
    rw [causes, mem_withCause]

theorem held_grant : (x.held c).grant = x.grant := by
  unfold Line.held
  split
  · rfl
  split <;> rfl

/-- Only an INJECTING line changes its state and its hold timer for a cause added (R39). -/
theorem held_state_of_ne (hs : x.state ≠ .injecting) :
    (x.held c).state = x.state ∧ (x.held c).holdTimer = x.holdTimer := by
  unfold Line.held
  split
  · exact ⟨rfl, rfl⟩
  · cases h : x.state with
    | injecting => exact absurd h hs
    | _ => simp [h]

end

section
variable {s : State} {l : LineId} {g : Grant}

theorem pauseReply_wrongState (h : (s.line l).state ∉ [.armed, .injecting, .holding]) :
    pauseReply l g s = refuse .wrongState s := by
  unfold pauseReply
  cases hs : (s.line l).state <;> simp_all

theorem pauseReply_taken (h : (s.line l).state ∈ [.armed, .injecting, .holding]) :
    pauseReply l g s = accept (.directive ((s.line l).held .pump).directive) (addCause .pump l s) := by
  have line : (addCause .pump l s).line l = (s.line l).held .pump := by rw [line_addCause, if_pos rfl]
  unfold pauseReply
  cases hs : (s.line l).state <;> simp_all

end

/-- Settles O38: in each of the three states the line is `Line.held` by PUMP, and the directive follows its new
state. -/
theorem pauseAddsThePumpCause : Obligations.PauseAddsThePumpCause := by
  unfold Obligations.PauseAddsThePumpCause
  intro s p tag l g hp hg c x
  have run := exec_pause_held tag hp hg
  refine ⟨fun hs => by rwa [pauseReply_wrongState hs] at run, fun hs empty live => ?_⟩
  have line : (addCause .pump l (heard p s)).line l = x.held .pump := by rw [line_addCause, if_pos rfl]
  have injecting (h : x.state = .injecting) := held_injecting (c := .pump) h (by simp [empty h])
  have directive : (x.held .pump).directive = if x.state = .armed then .none else .hold := by
    have grant : (x.held .pump).grant = some g.heard := held_grant.trans (heard_grant hg)
    rw [directive_live grant (by simpa using live)]
    by_cases h : x.state = .injecting
    · rw [injecting h]
      simp [h]
    · rw [(held_state_of_ne h).1]
      simp only [List.mem_cons, List.not_mem_nil, or_false] at hs
      rcases hs with hs | hs | hs <;> simp_all
  rw [pauseReply_taken hs, directive] at run
  refine ⟨_, run, fun m hm => by rw [line_addCause, if_neg hm],
    ?store, line, ?causes, ?armed, ?injecting, ?holding, ?repeated⟩
  case store =>
    rw [(addCause_keeps .pump l (heard p s)).store (by decide) (by decide) (by decide) (by decide), heard_store]
  case causes => rw [line]; exact causes_held hs
  case armed => intro h; rw [line, (held_state_of_ne (by simp [h])).1, h]
  case injecting => intro h; rw [line, injecting h]; exact ⟨rfl, rfl⟩
  case holding =>
    intro h
    rw [line]
    have kept := held_state_of_ne (c := .pump) (x := x) (by simp [h])
    exact ⟨kept.1.trans h, kept.2⟩
  case repeated => intro h; rw [line, held_of_mem h]

/-! ### RELEASE (R12, R14, R61, R65) -/

section
variable {s : State} {k : StageKey} {x : Stage} {f : Stage → Stage}

/-- A stage's record written through: the write of what the table holds of it stands begun (R23). -/
theorem writes_saveStage (h : s.stage? k = some x) : (saveStage k s).store.writes = begun s (.stage x.stored) := by
  simp only [saveStage, h, writeThrough, begun]
  split <;> rfl

theorem stage_saveStage (k j : StageKey) (s : State) : (saveStage k s).stage? j = s.stage? j :=
  (saveStage_keeps k s).stage (by decide) j

/-- A stage changed, its key kept, and its record written through, alerts besides: the table holds it changed and every
other stage as before, and its write stands begun. -/
theorem stages_saved {u : State} (hf : ∀ x, (f x).key = x.key) (h : s.stage? k = some x)
    (hu : keeps [.queues] (saveStage k (s.updStage k f)) u) :
    sameOtherStages k s u ∧ u.stage? k = some (f x) ∧ u.store.writes = begun s (.stage (f x).stored) := by
  have table (j : StageKey) : u.stage? j = (s.updStage k f).stage? j :=
    (hu.stage (by decide) j).trans (stage_saveStage k j _)
  have changed : (s.updStage k f).stage? k = some (f x) := by
    rw [stage_updStage s k k f hf, if_pos rfl, h, Option.map_some]
  refine ⟨fun j hj => ?_, (table k).trans changed, (hu.2 .writes (by decide)).trans (writes_saveStage changed)⟩
  rw [table, stage_updStage s k j f hf, if_neg hj]

/-- READY again, as a change of the stage's record (R12). -/
theorem returnToReady_active (h : s.stage? k = some x) (ha : x.status = .active) :
    returnToReady k s = saveStage k (s.updStage k (fun x => { x with status := .ready })) := by
  simp only [returnToReady, h, if_pos ha]

/-- SUSPENDED, as a change of the stage's record, with an alert besides (R14). -/
theorem suspendStage_active (l : Option LineId) (c : EndCause) (h : s.stage? k = some x) (ha : x.status = .active) :
    keeps [.queues] (saveStage k (s.updStage k (Stage.suspendedBy c))) (suspendStage l k c s) := by
  simp only [suspendStage, h, if_pos ha]
  exact postStage_keeps _ _ _ _ _

/-- Both leave a stage that is not ACTIVE as it is (R12, R14). -/
theorem returnToReady_of_ne (h : s.stage? k = some x) (ha : x.status ≠ .active) : returnToReady k s = s := by
  simp only [returnToReady, h, if_neg ha]

theorem suspendStage_of_ne (l : Option LineId) (c : EndCause) (h : s.stage? k = some x) (ha : x.status ≠ .active) :
    suspendStage l k c s = s := by
  simp only [suspendStage, h, if_neg ha]

theorem orderInputs_saveStage (k : StageKey) (s : State) : (saveStage k s).orderInputs = s.orderInputs :=
  (saveStage_keeps k s).orderInputs (by decide) (by decide) (by decide) (by decide)

theorem orderInputs_returnToReady (k : StageKey) (s : State) : (returnToReady k s).orderInputs = s.orderInputs := by
  cases h : s.stage? k with
  | none => simp only [returnToReady, h]
  | some x =>
    by_cases ha : x.status = .active
    · rw [returnToReady_active h ha, orderInputs_saveStage]
      exact orderInputs_updStage _ _ _ (fun _ => rfl) (fun _ => rfl)
    · rw [returnToReady_of_ne h ha]

theorem orderInputs_suspendStage (l : Option LineId) (k : StageKey) (c : EndCause) (s : State) :
    (suspendStage l k c s).orderInputs = s.orderInputs := by
  cases h : s.stage? k with
  | none => simp only [suspendStage, h]
  | some x =>
    by_cases ha : x.status = .active
    · rw [(suspendStage_active l c h ha).orderInputs (by decide) (by decide) (by decide) (by decide),
        orderInputs_saveStage]
      exact orderInputs_updStage _ _ _ (fun _ => rfl) (fun _ => rfl)
    · rw [suspendStage_of_ne l c h ha]

end

/-- An ACTIVE stage after its grant was given up: READY before START, SUSPENDED after it (R61). -/
def Stage.givenUp (startTaken : Bool) (x : Stage) : Stage :=
  if startTaken then x.suspendedBy .releasedEarly else { x with status := .ready }

theorem key_givenUp (startTaken : Bool) (x : Stage) : (x.givenUp startTaken).key = x.key := by
  unfold Stage.givenUp
  split <;> rfl

section
variable {s : State} {l : LineId} {g : Grant}

/-- What a RELEASE does beside closing the line concerns its stage alone (R61). -/
theorem releaseLive_keeps (l : LineId) (g : Grant) (s : State) :
    keeps [.stages, .writes, .queues] (closeLine .released l s) (releaseLive l g s) := by
  unfold releaseLive
  refine withBound_keeps _ _ _ (fun k => ?_)
  split
  · exact suspendStage_keeps _ _ _ _
  · exact (returnToReady_keeps _ _).mono (by decide)

/-- The lines after a RELEASE (R31, R61). -/
theorem line_releaseLive (m : LineId) :
    (releaseLive l g s).line m = if m = l then (s.line l).closed .released s.settings.travelTime else s.line m :=
  ((releaseLive_keeps l g s).line (by decide) (by decide) (by decide) m).trans (line_closeLine _ _ _ _)

/-- The mix order stands formed after a RELEASE (R130). -/
theorem mixOrder_releaseLive (l : LineId) (g : Grant) (s : State) :
    (releaseLive l g s).grout.mixOrder = lowestClass (releaseLive l g s).orderInputs := by
  have order : (releaseLive l g s).grout.mixOrder = (closeLine .released l s).grout.mixOrder :=
    (releaseLive_keeps l g s).2 .mixOrder (by decide)
  have inputs : (releaseLive l g s).orderInputs = (closeLine .released l s).orderInputs := by
    unfold releaseLive withBound
    split
    · split
      · exact orderInputs_suspendStage _ _ _ _
      · exact orderInputs_returnToReady _ _
    · rfl
  rw [order, inputs]
  exact mixOrder_formMixOrder _

/-- A RELEASE, on the stage bound to the line. -/
theorem releaseLive_bound {k : StageKey} (h : (s.line l).stage = some k) :
    releaseLive l g s =
      if g.startTaken = true then suspendStage (some l) k .releasedEarly (closeLine .released l s)
      else returnToReady k (closeLine .released l s) := by
  have bound : ((closeLine .released l s).line l).stage = some k := by rw [line_closeLine, if_pos rfl]; exact h
  unfold releaseLive
  rw [withBound_bound bound]
  split <;> rfl

/-- The table and the writes after the line closes, before its stage does. -/
theorem stage_closeLine (r : EndReason) (l : LineId) (s : State) (j : StageKey) :
    (closeLine r l s).stage? j = s.stage? j := (closeLine_keeps r l s).stage (by decide) j

theorem begun_closeLine (r : EndReason) (l : LineId) (s : State) (w : StoreWrite) :
    begun (closeLine r l s) w = begun s w := (closeLine_keeps r l s).begun (by decide) (by decide) w

/-- A RELEASE of a LIVE grant, on an ACTIVE stage bound to its line: given up, and written through (R12, R14, R61). -/
theorem stages_releaseLive {k : StageKey} {x : Stage} (hk : (s.line l).stage = some k) (hx : s.stage? k = some x)
    (ha : x.status = .active) :
    sameOtherStages k s (releaseLive l g s) ∧
    (releaseLive l g s).stage? k = some (x.givenUp g.startTaken) ∧
    (releaseLive l g s).store.writes = begun s (.stage (x.givenUp g.startTaken).stored) := by
  have found := (stage_closeLine .released l s k).trans hx
  have change : keeps [.queues] (saveStage k ((closeLine .released l s).updStage k (Stage.givenUp g.startTaken)))
      (releaseLive l g s) := by
    rw [releaseLive_bound hk]
    cases g.startTaken with
    | false => exact returnToReady_active found ha ▸ keeps_refl _ _
    | true => exact suspendStage_active (some l) .releasedEarly found ha
  obtain ⟨others, given, saved⟩ := stages_saved (key_givenUp _) found change
  exact ⟨fun j hj => (others j hj).trans (stage_closeLine _ _ _ j), given, saved.trans (begun_closeLine _ _ _ _)⟩

/-- A RELEASE of a LIVE grant, on a stage that is not ACTIVE: the table is left as it is (R12, R14). -/
theorem stage_releaseLive_of_ne {k : StageKey} {x : Stage} (hk : (s.line l).stage = some k) (hx : s.stage? k = some x)
    (ha : x.status ≠ .active) (j : StageKey) : (releaseLive l g s).stage? j = s.stage? j := by
  have found := (stage_closeLine .released l s k).trans hx
  rw [releaseLive_bound hk, suspendStage_of_ne _ _ found ha, returnToReady_of_ne found ha, ite_self, stage_closeLine]

theorem releaseReply_live (h : g.phase = .live) :
    releaseReply l g s = accept (.directive .quit) (releaseLive l g s) := by
  simp only [releaseReply, h]

theorem releaseReply_ending (h : g.phase = .ending) :
    releaseReply l g s =
      if g.endReason = some .keepaliveLost then refuse .noGrant s else accept (.directive .quit) s := by
  simp only [releaseReply, h]

end

/-- Settles O40: by the phase of the grant, and without one. -/
theorem releaseEndsTheGrant : Obligations.ReleaseEndsTheGrant := by
  unfold Obligations.ReleaseEndsTheGrant
  intro s p tag hp c
  refine ⟨fun l g hg => ?_, fun hn => request_without rfl tag () _ _ hp hn⟩
  have run := exec_release_held tag hp hg
  refine ⟨fun live => ?live, fun ending hr => ?ending, fun ending hr => ?lost⟩
  case live =>
    rw [releaseReply_live (by simpa using live)] at run
    refine ⟨_, run, fun m hm => by rw [line_releaseLive, if_neg hm],
      by rw [line_releaseLive, if_pos rfl, heard_settings], mixOrder_releaseLive _ _ _, fun k x hk hx => ?_⟩
    have bound : ((heard p s).line l).stage = some k := (heard_line_stage p s l).trans hk
    have found : (heard p s).stage? k = some x := (heard_stage? p s k).trans hx
    by_cases ha : x.status = .active
    · obtain ⟨others, given, saved⟩ := stages_releaseLive (g := g.heard) bound found ha
      rw [startTaken_heard] at given saved
      rw [begun_heard] at saved
      refine ⟨fun j hj => (others j hj).trans (heard_stage? p s j), fun _ early => ?_, fun _ late => ?_,
        fun h => absurd ha h⟩
      · rw [early] at given saved
        exact ⟨given, saved⟩
      · rw [late] at given saved
        exact ⟨given, saved⟩
    · have same (j : StageKey) : (releaseLive l g.heard (heard p s)).stage? j = s.stage? j :=
        (stage_releaseLive_of_ne bound found ha j).trans (heard_stage? p s j)
      exact ⟨fun j _ => same j, fun h => absurd h ha, fun h => absurd h ha, fun _ => (same k).trans hx⟩
  case ending =>
    rw [releaseReply_ending (by simpa using ending), if_neg (by simpa using hr)] at run
    exact run
  case lost =>
    rw [releaseReply_ending (by simpa using ending), if_pos (by simpa using hr)] at run
    exact run

end Sys2Proof.Machine
end

section
/-! PROOFS. READ_RECORDS and the readers (09_alerts_records_and_the_fault_history.md). -/

namespace Sys2Proof.Machine

/-! ### READ_RECORDS (R159, R160) -/

section
variable {r : Records} {p q : Port} {x y : Reader}

/-- A console's reader replaced: that reader alone is another. -/
theorem reader_setReader (h : r.reader? p = some y) :
    (r.setReader p x).reader? q = if q = p then some x else r.reader? q := by
  cases p with
  | c0 => cases q <;> rfl
  | c1 => cases q <;> rfl
  | p0 | p1 | p2 | p3 => cases h

@[simp] theorem records_setReader : (r.setReader p x).records = r.records := by cases p <;> rfl
@[simp] theorem nextRecord_setReader : (r.setReader p x).nextRecord = r.nextRecord := by cases p <;> rfl

@[simp] theorem reader_trim : r.trim.reader? q = r.reader? q := by cases q <;> rfl
@[simp] theorem nextRecord_trim : r.trim.nextRecord = r.nextRecord := rfl

/-- A reader keeps no more records than a bound on the unread ones of the enabled readers. -/
theorem holds_le {n : Nat} (h : x.enabled = true → x.unread ≤ n) : x.holds ≤ n := by
  unfold Reader.holds
  split
  · exact h ‹_›
  · exact Nat.zero_le n

/-- The records kept are as many of the newest as the enabled reader furthest behind has unread (R159). -/
theorem records_trim {n : Nat} (hle : ∀ q y, r.reader? q = some y → y.enabled = true → y.unread ≤ n)
    (hn : ∃ q y, r.reader? q = some y ∧ y.enabled = true ∧ y.unread = n) : r.trim.records = lastN n r.records := by
  have c0 : r.readerC0.holds ≤ n := holds_le (hle .c0 _ rfl)
  have c1 : r.readerC1.holds ≤ n := holds_le (hle .c1 _ rfl)
  have attained : r.readerC0.holds = n ∨ r.readerC1.holds = n := by
    obtain ⟨q, y, found, enabled, unread⟩ := hn
    have holds : y.holds = n := by rw [Reader.holds, if_pos enabled, unread]
    cases q with
    | c0 => cases found; exact .inl holds
    | c1 => cases found; exact .inr holds
    | p0 | p1 | p2 | p3 => cases found
  have most : max r.readerC0.holds r.readerC1.holds = n := by omega
  simp only [Records.trim, most]

/-- Only a console's port has a reader (R159). -/
theorem isConsole_of_reader (h : r.reader? p = some x) : p.isConsole = true := by
  cases p with
  | c0 | c1 => rfl
  | p0 | p1 | p2 | p3 => cases h

end

/-- A reader with its unread records in the queue has so many of them there. -/
theorem length_lastN {α : Type} {n : Nat} {xs : List α} (h : n ≤ xs.length) : (lastN n xs).length = n := by
  rw [lastN, List.length_drop]
  omega

section
variable {s : State} {p : Port} {x : Reader}

theorem readRecordsReply_disabled (hx : s.record.reader? p = some x) (h : x.enabled = false) :
    readRecordsReply p s = refuse .wrongState s := by
  simp [readRecordsReply, hx, h]

/-- An enabled reader is given the oldest 4 of its unread records, and the others stay unread (R160). -/
theorem readRecordsReply_enabled (hx : s.record.reader? p = some x) (h : x.enabled = true)
    (hn : x.unread ≤ s.record.records.length) :
    readRecordsReply p s =
      accept (.records ((lastN x.unread s.record.records).take 4) ((lastN x.unread s.record.records).drop 4).length)
        (s.updRecord (fun r =>
          (r.setReader p { x with unread := ((lastN x.unread s.record.records).drop 4).length }).trim)) := by
  have left : x.unread - ((lastN x.unread s.record.records).take 4).length =
      ((lastN x.unread s.record.records).drop 4).length := by
    rw [List.length_take, List.length_drop, length_lastN hn]
    omega
  simp only [readRecordsReply, hx, h, if_true, left]

end

/-- Settles O17: `records_trim` gives the queue, the equation of an enabled reader's reading the rest. -/
theorem readRecordsMovesTheReader : Obligations.ReadRecordsMovesTheReader := by
  unfold Obligations.ReadRecordsMovesTheReader
  intro s p tag x hl hx c
  have found : (heard p s).record.reader? p = some x := by rw [heard_record, hx]
  have run : exec c s = .next (respond p RequestKind.readRecords.code tag (readRecordsReply p (heard p s))) :=
    request_taken .readRecords tag () (fun _ => readRecordsReply p) hl (isConsole_of_reader hx)
  refine ⟨fun h => ?disabled, fun h hn => ?enabled⟩
  case disabled => rwa [readRecordsReply_disabled found h] at run
  case enabled =>
    rw [readRecordsReply_enabled found h (by rwa [heard_record])] at run
    simp only [heard_record] at run
    refine ⟨_, run, ?reader, fun q hq => ?others, ?next, fun n hle hn => ?queue⟩
    case reader => simp [reader_setReader hx, lastN]
    case others => simp [reader_setReader hx, hq]
    case next => simp
    case queue =>
      simp only [record_updRecord, reader_trim] at hle hn
      rw [record_updRecord, records_trim hle hn, records_setReader, heard_record, lastN]

end Sys2Proof.Machine
end

section
/-! PROOFS. READ_ALERTS, and the alert summary in the header of every answer
(09_alerts_records_and_the_fault_history.md). -/

namespace Sys2Proof.Machine

/-! ### Replies whose header shows the port's own slip flag (R157) -/

/-- The header of the answer shows the slip flag that the port has when it is made: the contents are no READ_ALERTS's
(R157). -/
def Reply.showsSlip (r : Reply) : Prop := ∀ x, headerSlip r.contents x = x.slipFlag

theorem refuse_showsSlip (st : Status) (s : State) : (refuse st s).showsSlip := fun _ => rfl

theorem editDone_showsSlip (k : StageKey) (s : State) : (editDone k s).showsSlip := fun _ => rfl

theorem unlessLocked_showsSlip (s : State) {r : Reply} (h : r.showsSlip) : (unlessLocked s r).showsSlip := by
  unfold unlessLocked
  split
  · exact refuse_showsSlip _ _
  · exact h

theorem stageEdit_showsSlip (s : State) {r : Reply} (h : r.showsSlip) : (stageEdit s r).showsSlip := by
  unfold stageEdit
  refine unlessLocked_showsSlip s ?_
  split
  · exact refuse_showsSlip _ _
  · exact h

/-! ### Pump requests -/

theorem claimStage_showsSlip (p : Port) (l : LineId) (x : Stage) (s : State) : (claimStage p l x s).showsSlip := by
  unfold claimStage
  repeat' split
  all_goals exact fun _ => rfl

theorem claimReply_showsSlip (p : Port) (a : ClaimArgs) (s : State) : (claimReply p a s).showsSlip := by
  have grant : (claimGrant p a s).showsSlip := by
    unfold claimGrant
    split
    · split <;> exact fun _ => rfl
    split
    · split
      · exact claimStage_showsSlip _ _ _ _
      · exact refuse_showsSlip _ _
    · exact refuse_showsSlip _ _
  unfold claimReply
  refine unlessLocked_showsSlip s ?_
  repeat' split
  · exact refuse_showsSlip _ _
  · exact refuse_showsSlip _ _
  · exact grant

theorem startReply_showsSlip (l : LineId) (g : Grant) (s : State) : (startReply l g s).showsSlip := by
  unfold startReply
  split <;> exact fun _ => rfl

theorem pauseReply_showsSlip (l : LineId) (g : Grant) (s : State) : (pauseReply l g s).showsSlip := by
  unfold pauseReply
  split <;> exact fun _ => rfl

theorem pumpReport_showsSlip (a : PumpStatusArgs) (l : LineId) (g : Grant) (s : State) :
    (pumpReport a l g s).showsSlip := by
  unfold pumpReport
  split <;> exact fun _ => rfl

theorem pumpStatusWithout_showsSlip (p : Port) (a : PumpStatusArgs) (s : State) :
    (pumpStatusWithout p a s).showsSlip := by
  unfold pumpStatusWithout
  repeat' split
  all_goals exact fun _ => rfl

theorem releaseReply_showsSlip (l : LineId) (g : Grant) (s : State) : (releaseReply l g s).showsSlip := by
  unfold releaseReply
  repeat' split
  all_goals exact fun _ => rfl

/-! ### Reading requests -/

theorem stageReadReply_showsSlip (a : StageReadArgs) (s : State) : (stageReadReply a s).showsSlip := by
  unfold stageReadReply
  repeat' split
  all_goals exact fun _ => rfl

theorem lineReadReply_showsSlip (n : Nat) (s : State) : (lineReadReply n s).showsSlip := by
  unfold lineReadReply
  split <;> exact fun _ => rfl

theorem alertMaskReply_showsSlip (p : Port) (m : Nat) (s : State) : (alertMaskReply p m s).showsSlip := by
  unfold alertMaskReply
  split <;> exact fun _ => rfl

theorem readRecordsReply_showsSlip (p : Port) (s : State) : (readRecordsReply p s).showsSlip := by
  unfold readRecordsReply
  repeat' split
  all_goals exact fun _ => rfl

theorem rangeReply_showsSlip {α : Type} {xs : List α} {contents : Nat → List α → Contents} (a : RangeArgs) (s : State)
    (h : ∀ n ys x, headerSlip (contents n ys) x = x.slipFlag) : (rangeReply xs contents a s).showsSlip := by
  unfold rangeReply
  split
  · exact h _ _
  · exact refuse_showsSlip _ _

/-! ### Stage edits -/

theorem stageWriteReply_showsSlip (a : StageWriteArgs) (s : State) : (stageWriteReply a s).showsSlip := by
  unfold stageWriteReply
  refine stageEdit_showsSlip s ?_
  repeat' split
  all_goals exact fun _ => rfl

theorem stageReleaseOwn_showsSlip (x : Stage) (s : State) : (stageReleaseOwn x s).showsSlip := by
  unfold stageReleaseOwn
  repeat' split
  all_goals exact fun _ => rfl

theorem stageWithdrawOwn_showsSlip (x : Stage) (s : State) : (stageWithdrawOwn x s).showsSlip := by
  unfold stageWithdrawOwn
  split <;> exact fun _ => rfl

theorem stageDeleteOwn_showsSlip (x : Stage) (s : State) : (stageDeleteOwn x s).showsSlip := by
  unfold stageDeleteOwn
  repeat' split
  all_goals exact fun _ => rfl

theorem decideContinueOwn_showsSlip (a : DecideArgs) (x : Stage) (s : State) :
    (decideContinueOwn a x s).showsSlip := by
  unfold decideContinueOwn
  repeat' split
  all_goals exact fun _ => rfl

theorem decideCloseOwn_showsSlip (x : Stage) (s : State) : (decideCloseOwn x s).showsSlip := by
  unfold decideCloseOwn
  split <;> exact fun _ => rfl

theorem decideAbandonOwn_showsSlip (x : Stage) (s : State) : (decideAbandonOwn x s).showsSlip := by
  unfold decideAbandonOwn
  split <;> exact fun _ => rfl

theorem decideResumeOwn_showsSlip (x : Stage) (s : State) : (decideResumeOwn x s).showsSlip := by
  unfold decideResumeOwn
  split <;> exact fun _ => rfl

/-! ### Line requests -/

theorem lineConfigReply_showsSlip (a : LineConfigArgs) (s : State) : (lineConfigReply a s).showsSlip := by
  unfold lineConfigReply
  refine unlessLocked_showsSlip s ?_
  repeat' split
  all_goals exact fun _ => rfl

theorem lineWatchReply_showsSlip (a : LineWatchArgs) (s : State) : (lineWatchReply a s).showsSlip := by
  unfold lineWatchReply
  refine unlessLocked_showsSlip s ?_
  repeat' split
  all_goals exact fun _ => rfl

theorem lineUnwatchOwn_showsSlip (l : LineId) (s : State) : (lineUnwatchOwn l s).showsSlip := by
  unfold lineUnwatchOwn
  split <;> exact fun _ => rfl

theorem lineIsolateOwn_showsSlip (l : LineId) (s : State) : (lineIsolateOwn l s).showsSlip := by
  unfold lineIsolateOwn
  split <;> exact fun _ => rfl

theorem lineReturnOwn_showsSlip (l : LineId) (s : State) : (lineReturnOwn l s).showsSlip := by
  unfold lineReturnOwn
  dsimp only
  split <;> exact fun _ => rfl

theorem holdAllReply_showsSlip (s : State) : (holdAllReply s).showsSlip := by
  unfold holdAllReply
  refine unlessLocked_showsSlip s ?_
  split <;> exact fun _ => rfl

theorem releaseAllReply_showsSlip (s : State) : (releaseAllReply s).showsSlip := by
  unfold releaseAllReply
  refine unlessLocked_showsSlip s ?_
  split <;> exact fun _ => rfl

/-! ### Grout, uplift and part requests -/

theorem batchReportReply_showsSlip (a : BatchArgs) (s : State) : (batchReportReply a s).showsSlip := by
  unfold batchReportReply
  refine unlessLocked_showsSlip s ?_
  repeat' split
  all_goals exact fun _ => rfl

theorem tankDumpReply_showsSlip (s : State) : (tankDumpReply s).showsSlip :=
  unlessLocked_showsSlip s (fun _ => rfl)

theorem upliftZeroReply_showsSlip (s : State) : (upliftZeroReply s).showsSlip := by
  unfold upliftZeroReply
  refine unlessLocked_showsSlip s ?_
  split <;> exact fun _ => rfl

theorem upliftClearReply_showsSlip (s : State) : (upliftClearReply s).showsSlip := by
  unfold upliftClearReply
  refine unlessLocked_showsSlip s ?_
  repeat' split
  all_goals exact fun _ => rfl

theorem partConfigReply_showsSlip (a : PartConfigArgs) (s : State) : (partConfigReply a s).showsSlip := by
  unfold partConfigReply
  refine unlessLocked_showsSlip s ?_
  repeat' split
  all_goals exact fun _ => rfl

theorem readerEnableReply_showsSlip (a : ReaderArgs) (s : State) : (readerEnableReply a s).showsSlip := by
  unfold readerEnableReply
  refine unlessLocked_showsSlip s ?_
  split <;> exact fun _ => rfl

theorem clearCountersReply_showsSlip (n : Nat) (s : State) : (clearCountersReply n s).showsSlip := by
  unfold clearCountersReply
  refine unlessLocked_showsSlip s ?_
  repeat' split
  all_goals exact fun _ => rfl

theorem clearLatchesReply_showsSlip (n : Nat) (s : State) : (clearLatchesReply n s).showsSlip := by
  unfold clearLatchesReply
  refine unlessLocked_showsSlip s ?_
  repeat' split
  all_goals exact fun _ => rfl

theorem setTimeReply_showsSlip (n : Nat) (s : State) : (setTimeReply n s).showsSlip :=
  unlessLocked_showsSlip s (fun _ => rfl)

theorem exerciseStepReply_showsSlip (s : State) : (exerciseStepReply s).showsSlip := by
  unfold exerciseStepReply
  refine unlessLocked_showsSlip s ?_
  split <;> exact fun _ => rfl

theorem resetReply_showsSlip (n : Nat) (s : State) : (resetReply n s).showsSlip := by
  unfold resetReply
  repeat' split
  all_goals exact fun _ => rfl

/-! ### Every request (R154, R157) -/

/-- What every reply to a request of a kind does: ALERT_MASK alone changes a mask, and READ_ALERTS alone answers with
another slip flag than the port's own (R154, R157). -/
def Reply.handles (k : RequestKind) (s : State) (r : Reply) : Prop :=
  (k ≠ .alertMask → Part.masks.same s r.state) ∧ (k ≠ .readAlerts → r.showsSlip)

section
variable {k : RequestKind} {s : State} {r : Reply}

theorem handles_of_keeps {A : List Part} (h : keeps A s r.state) (hr : r.showsSlip) (hA : .masks ∉ A := by decide) :
    r.handles k s :=
  ⟨fun _ => h.2 .masks hA, fun _ => hr⟩

theorem refuse_handles (k : RequestKind) (st : Status) (s : State) : (refuse st s).handles k s :=
  handles_of_keeps (refuse_keeps [] st s) (refuse_showsSlip st s)

theorem unlessLocked_handles (h : r.handles k s) : (unlessLocked s r).handles k s := by
  unfold unlessLocked
  split
  · exact refuse_handles _ _ _
  · exact h

theorem stageEdit_handles (h : r.handles k s) : (stageEdit s r).handles k s := by
  unfold stageEdit
  refine unlessLocked_handles ?_
  split
  · exact refuse_handles _ _ _
  · exact h

theorem withGrant_handles {p : Port} {without : State → Reply} {own : LineId → Grant → State → Reply}
    (hw : (without s).handles k s) (ho : ∀ l g, (own l g s).handles k s) : (withGrant p without own s).handles k s := by
  unfold withGrant
  refine unlessLocked_handles ?_
  repeat' split
  · exact ho _ _
  · exact hw
  · exact hw

theorem stageEditOf_handles {j : StageKey} {own : Stage → State → Reply} (h : ∀ x, (own x s).handles k s) :
    (stageEditOf j own s).handles k s := by
  unfold stageEditOf
  refine stageEdit_handles ?_
  split
  · exact h _
  · exact refuse_handles _ _ _

theorem decideOf_handles {a : DecideArgs} {own : Stage → State → Reply} (h : ∀ x, (own x s).handles k s) :
    (decideOf a own s).handles k s := by
  unfold decideOf
  refine stageEdit_handles ?_
  repeat' split
  · exact h _
  · exact refuse_handles _ _ _
  · exact refuse_handles _ _ _

theorem lineRequest_handles {n : Nat} {own : LineId → State → Reply} (h : ∀ l, (own l s).handles k s) :
    (lineRequest n own s).handles k s := by
  unfold lineRequest
  refine unlessLocked_handles ?_
  split
  · exact h _
  · exact refuse_handles _ _ _

theorem readAlertsReply_handles (p : Port) : (readAlertsReply p s).handles .readAlerts s :=
  ⟨fun _ => (readAlertsReply_keeps p s).2 .masks (by decide), fun h => absurd rfl h⟩

theorem alertMaskReply_handles (p : Port) (m : Nat) : (alertMaskReply p m s).handles .alertMask s :=
  ⟨fun h => absurd rfl h, fun _ => alertMaskReply_showsSlip p m s⟩

end

/-- The command is a request of a kind from a port: taken as such in every state, with a reply of that kind. -/
def handledAs (c : Instr) (p : Port) (k : RequestKind) (tag : Byte) : Prop :=
  ∃ (α : Type) (b : Body α) (own : α → State → Reply),
    (∀ s, exec c s = request k p tag b own s) ∧ ∀ a s, (own a s).handles k s

section
variable {c : Instr} {p : Port} {k : RequestKind} {tag : Byte}

/-- A request whose kind, port and tag are known. -/
theorem handledAs_of {α : Type} {q : Port} {j : RequestKind} {t : Byte} (b : Body α) (own : α → State → Reply)
    (hk : some (q, j, t) = some (p, k, tag)) (hc : ∀ s, exec c s = request j q t b own s)
    (ho : ∀ a s, (own a s).handles j s) : handledAs c p k tag := by
  cases hk
  exact ⟨α, b, own, hc, ho⟩

/-- Every command with a request kind is such a request, but for the frames of a kind that section 10.4 does not
list (R170). -/
theorem handledAs_of_kind (hk : c.kind? = some (p, k, tag)) (hu : ∀ q n t b, c ≠ .unknownKind q n t b) :
    handledAs c p k tag := by
  cases c with
  | claim q t b =>
    exact handledAs_of b (claimReply q) hk (fun _ => rfl)
      (fun a s => handles_of_keeps (claimReply_keeps q a s) (claimReply_showsSlip q a s))
  | start q t b =>
    exact handledAs_of b (fun _ => withGrant q (refuse .noGrant) startReply) hk (fun _ => rfl)
      (fun _ s => withGrant_handles (refuse_handles _ _ _) (fun l g =>
        handles_of_keeps (startReply_keeps l g s) (startReply_showsSlip l g s)))
  | pause q t b =>
    exact handledAs_of b (fun _ => withGrant q (refuse .noGrant) pauseReply) hk (fun _ => rfl)
      (fun _ s => withGrant_handles (refuse_handles _ _ _) (fun l g =>
        handles_of_keeps (pauseReply_keeps l g s) (pauseReply_showsSlip l g s)))
  | pumpStatus q t b =>
    exact handledAs_of b (fun a => withGrant q (pumpStatusWithout q a) (pumpReport a)) hk (fun _ => rfl)
      (fun a s => withGrant_handles
        (handles_of_keeps (pumpStatusWithout_keeps q a s) (pumpStatusWithout_showsSlip q a s))
        (fun l g => handles_of_keeps (pumpReport_keeps a l g s) (pumpReport_showsSlip a l g s)))
  | release q t b =>
    exact handledAs_of b (fun _ => withGrant q (releaseWithout q) releaseReply) hk (fun _ => rfl)
      (fun _ s => withGrant_handles (handles_of_keeps (releaseWithout_keeps q s) (fun _ => rfl)) (fun l g =>
        handles_of_keeps (releaseReply_keeps l g s) (releaseReply_showsSlip l g s)))
  | status q t b =>
    exact handledAs_of b (fun _ s => accept (.status s.report) s) hk (fun _ => rfl)
      (fun _ s => handles_of_keeps (keeps_refl [] s) (fun _ => rfl))
  | stageRead q t b =>
    exact handledAs_of b stageReadReply hk (fun _ => rfl)
      (fun a s => handles_of_keeps (stageReadReply_keeps [] a s) (stageReadReply_showsSlip a s))
  | lineRead q t b =>
    exact handledAs_of b lineReadReply hk (fun _ => rfl)
      (fun n s => handles_of_keeps (lineReadReply_keeps [] n s) (lineReadReply_showsSlip n s))
  | readAlerts q t b =>
    exact handledAs_of b (fun _ => readAlertsReply q) hk (fun _ => rfl) (fun _ _ => readAlertsReply_handles q)
  | alertMask q t b =>
    exact handledAs_of b (alertMaskReply q) hk (fun _ => rfl) (fun m _ => alertMaskReply_handles q m)
  | stageWrite q t b =>
    exact handledAs_of b stageWriteReply hk (fun _ => rfl)
      (fun a s => handles_of_keeps (stageWriteReply_keeps a s) (stageWriteReply_showsSlip a s))
  | stageRelease q t b =>
    exact handledAs_of b (fun k => stageEditOf k stageReleaseOwn) hk (fun _ => rfl)
      (fun _ s => stageEditOf_handles (fun x =>
        handles_of_keeps (stageReleaseOwn_keeps x s) (stageReleaseOwn_showsSlip x s)))
  | stageWithdraw q t b =>
    exact handledAs_of b (fun k => stageEditOf k stageWithdrawOwn) hk (fun _ => rfl)
      (fun _ s => stageEditOf_handles (fun x =>
        handles_of_keeps (stageWithdrawOwn_keeps x s) (stageWithdrawOwn_showsSlip x s)))
  | stageDelete q t b =>
    exact handledAs_of b (fun k => stageEditOf k stageDeleteOwn) hk (fun _ => rfl)
      (fun _ s => stageEditOf_handles (fun x =>
        handles_of_keeps (stageDeleteOwn_keeps x s) (stageDeleteOwn_showsSlip x s)))
  | stageDecideContinue q t b =>
    exact handledAs_of b (fun a => decideOf a (decideContinueOwn a)) hk (fun _ => rfl)
      (fun a s => decideOf_handles (fun x =>
        handles_of_keeps (decideContinueOwn_keeps a x s) (decideContinueOwn_showsSlip a x s)))
  | stageDecideClose q t b =>
    exact handledAs_of b (fun a => decideOf a decideCloseOwn) hk (fun _ => rfl)
      (fun _ s => decideOf_handles (fun x =>
        handles_of_keeps (decideCloseOwn_keeps x s) (decideCloseOwn_showsSlip x s)))
  | stageDecideAbandon q t b =>
    exact handledAs_of b (fun a => decideOf a decideAbandonOwn) hk (fun _ => rfl)
      (fun _ s => decideOf_handles (fun x =>
        handles_of_keeps (decideAbandonOwn_keeps x s) (decideAbandonOwn_showsSlip x s)))
  | stageDecideResume q t b =>
    exact handledAs_of b (fun a => decideOf a decideResumeOwn) hk (fun _ => rfl)
      (fun _ s => decideOf_handles (fun x =>
        handles_of_keeps (decideResumeOwn_keeps x s) (decideResumeOwn_showsSlip x s)))
  | lineConfig q t b =>
    exact handledAs_of b lineConfigReply hk (fun _ => rfl)
      (fun a s => handles_of_keeps (lineConfigReply_keeps a s) (lineConfigReply_showsSlip a s))
  | lineWatch q t b =>
    exact handledAs_of b lineWatchReply hk (fun _ => rfl)
      (fun a s => handles_of_keeps (lineWatchReply_keeps a s) (lineWatchReply_showsSlip a s))
  | lineUnwatch q t b =>
    exact handledAs_of b (fun n => lineRequest n lineUnwatchOwn) hk (fun _ => rfl)
      (fun _ s => lineRequest_handles (fun l =>
        handles_of_keeps (lineUnwatchOwn_keeps l s) (lineUnwatchOwn_showsSlip l s)))
  | lineIsolate q t b =>
    exact handledAs_of b (fun n => lineRequest n lineIsolateOwn) hk (fun _ => rfl)
      (fun _ s => lineRequest_handles (fun l =>
        handles_of_keeps (lineIsolateOwn_keeps l s) (lineIsolateOwn_showsSlip l s)))
  | lineReturn q t b =>
    exact handledAs_of b (fun n => lineRequest n lineReturnOwn) hk (fun _ => rfl)
      (fun _ s => lineRequest_handles (fun l =>
        handles_of_keeps (lineReturnOwn_keeps l s) (lineReturnOwn_showsSlip l s)))
  | holdAll q t b =>
    exact handledAs_of b (fun _ => holdAllReply) hk (fun _ => rfl)
      (fun _ s => handles_of_keeps (holdAllReply_keeps s) (holdAllReply_showsSlip s))
  | releaseAll q t b =>
    exact handledAs_of b (fun _ => releaseAllReply) hk (fun _ => rfl)
      (fun _ s => handles_of_keeps (releaseAllReply_keeps s) (releaseAllReply_showsSlip s))
  | batchReport q t b =>
    exact handledAs_of b batchReportReply hk (fun _ => rfl)
      (fun a s => handles_of_keeps (batchReportReply_keeps a s) (batchReportReply_showsSlip a s))
  | tankDump q t b =>
    exact handledAs_of b (fun _ => tankDumpReply) hk (fun _ => rfl)
      (fun _ s => handles_of_keeps (tankDumpReply_keeps s) (tankDumpReply_showsSlip s))
  | upliftZero q t b =>
    exact handledAs_of b (fun _ => upliftZeroReply) hk (fun _ => rfl)
      (fun _ s => handles_of_keeps (upliftZeroReply_keeps s) (upliftZeroReply_showsSlip s))
  | upliftClear q t b =>
    exact handledAs_of b (fun _ => upliftClearReply) hk (fun _ => rfl)
      (fun _ s => handles_of_keeps (upliftClearReply_keeps s) (upliftClearReply_showsSlip s))
  | partConfig q t b =>
    exact handledAs_of b partConfigReply hk (fun _ => rfl)
      (fun a s => handles_of_keeps (partConfigReply_keeps a s) (partConfigReply_showsSlip a s))
  | readerEnable q t b =>
    exact handledAs_of b readerEnableReply hk (fun _ => rfl)
      (fun a s => handles_of_keeps (readerEnableReply_keeps a s) (readerEnableReply_showsSlip a s))
  | readRecords q t b =>
    exact handledAs_of b (fun _ => readRecordsReply q) hk (fun _ => rfl)
      (fun _ s => handles_of_keeps (readRecordsReply_keeps q s) (readRecordsReply_showsSlip q s))
  | readCompletions q t b =>
    exact handledAs_of b (fun a s => rangeReply s.record.completions .completions a s) hk (fun _ => rfl)
      (fun a s => handles_of_keeps (rangeReply_keeps [] _ _ a s) (rangeReply_showsSlip a s (fun _ _ _ => rfl)))
  | readFaults q t b =>
    exact handledAs_of b (fun a s => rangeReply s.record.faults .faults a s) hk (fun _ => rfl)
      (fun a s => handles_of_keeps (rangeReply_keeps [] _ _ a s) (rangeReply_showsSlip a s (fun _ _ _ => rfl)))
  | readConnections q t b =>
    exact handledAs_of b (fun a s => rangeReply s.connections.records .connections a s) hk (fun _ => rfl)
      (fun a s => handles_of_keeps (rangeReply_keeps [] _ _ a s) (rangeReply_showsSlip a s (fun _ _ _ => rfl)))
  | clearCounters q t b =>
    exact handledAs_of b clearCountersReply hk (fun _ => rfl)
      (fun n s => handles_of_keeps (clearCountersReply_keeps n s) (clearCountersReply_showsSlip n s))
  | clearLatches q t b =>
    exact handledAs_of b clearLatchesReply hk (fun _ => rfl)
      (fun n s => handles_of_keeps (clearLatchesReply_keeps n s) (clearLatchesReply_showsSlip n s))
  | setTime q t b =>
    exact handledAs_of b setTimeReply hk (fun _ => rfl)
      (fun n s => handles_of_keeps (setTimeReply_keeps n s) (setTimeReply_showsSlip n s))
  | exerciseStep q t b =>
    exact handledAs_of b (fun _ => exerciseStepReply) hk (fun _ => rfl)
      (fun _ s => handles_of_keeps (exerciseStepReply_keeps s) (exerciseStepReply_showsSlip s))
  | reset q t b =>
    exact handledAs_of b resetReply hk (fun _ => rfl)
      (fun n s => handles_of_keeps (resetReply_keeps n s) (resetReply_showsSlip n s))
  | unknownKind q n t b => exact absurd rfl (hu q n t b)
  | _ => cases hk

/-- A well-formed command with a request kind is of a kind that section 10.4 lists (R170). -/
theorem ne_unknownKind_of_wf (hc : c.wf = true) (hk : c.kind? = some (p, k, tag)) (q : Port) (n t : Byte)
    (b : List Byte) : c ≠ .unknownKind q n t b := by
  rintro rfl
  have known : RequestKind.ofCode? n = none := by
    simp only [Instr.wf, Bool.and_eq_true, Option.isNone_iff_eq_none] at hc
    exact hc.1
  simp [Instr.kind?, encodeRequest, known] at hk

/-- Every well-formed request that a listening port takes is answered (R170). -/
theorem exec_answers {s : State} (hc : c.wf = true) (hk : c.kind? = some (p, k, tag)) (hl : listening s p) :
    ∃ r, exec c s = .next (respond p k.code tag r) ∧ (k ≠ .readAlerts → r.showsSlip) := by
  obtain ⟨α, b, own, run, replies⟩ := handledAs_of_kind hk (ne_unknownKind_of_wf hc hk)
  refine ⟨_, (run s).trans (request_listening k tag b own hl), fun hr => ?_⟩
  repeat' split
  · exact (replies _ _).2 hr
  · exact refuse_showsSlip _ _
  · exact refuse_showsSlip _ _

end

/-! ### The alert summary of an answer (R157) -/

/-- The largest of some numbers and a start is no less than each, and one of them or the start. -/
theorem foldl_max_spec (xs : List Nat) (n : Nat) :
    (n ≤ xs.foldl max n ∧ ∀ x ∈ xs, x ≤ xs.foldl max n) ∧ (xs.foldl max n = n ∨ xs.foldl max n ∈ xs) := by
  induction xs generalizing n with
  | nil => simp
  | cons x xs ih =>
    obtain ⟨⟨start, all⟩, reached⟩ := ih (max n x)
    have larger : x ≤ xs.foldl max (max n x) := le_trans (le_max_right n x) start
    refine ⟨⟨le_trans (le_max_left n x) start, ?_⟩, ?_⟩
    · rintro y (_ | ⟨_, hy⟩)
      · exact larger
      · exact all y hy
    · rw [List.foldl_cons]
      rcases reached with e | mem
      · rcases max_choice n x with m | m
        · exact .inl (e.trans m)
        · exact .inr (by rw [e, m]; exact List.mem_cons_self)
      · exact .inr (List.mem_cons_of_mem _ mem)

theorem level_le_highestLevel {q : List AlertEntry} {e : AlertEntry} (he : e ∈ q) :
    e.kind.level ≤ highestLevel q :=
  (foldl_max_spec _ 0).1.2 _ (List.mem_map_of_mem he)

/-- The highest level of a queue is 0 or that of an entry in it. -/
theorem highestLevel_reached (q : List AlertEntry) :
    highestLevel q = 0 ∨ ∃ e ∈ q, e.kind.level = highestLevel q :=
  (foldl_max_spec _ 0).2.imp id List.mem_map.mp

section
variable (p : Port) (kind tag : Byte) (r : Reply)

/-- An answer's header shows the port's queue as the request leaves it, the slip flag of the contents or else of the port,
and the part mode (R157). -/
theorem answer_respond : ∃ a, ((respond p kind tag r).port p).answer = some a ∧
    a.status = r.status ∧ a.contents = r.contents ∧ a.queued = (r.state.port p).queue.length ∧
    a.highest = highestLevel (r.state.port p).queue ∧ a.slip = headerSlip r.contents (r.state.port p) ∧
    a.mode = r.state.mode := by
  refine ⟨_, congrArg PortRecord.answer (port_updPort_self _ _ _), rfl, rfl, rfl, rfl, rfl, rfl⟩

/-- The answer made leaves the port's queue, its slip flag and the part mode as the request did. -/
theorem queue_respond : ((respond p kind tag r).port p).queue = (r.state.port p).queue := by
  rw [respond, port_updPort_self]

theorem slipFlag_respond : ((respond p kind tag r).port p).slipFlag = (r.state.port p).slipFlag := by
  rw [respond, port_updPort_self]

theorem mode_respond : (respond p kind tag r).mode = r.state.mode := rfl

end

/-- A port has its slip flag set by an offer that it must drop or make room for, and by no other (R156). -/
theorem slipFlag_offer (top time : Nat) (a : Posting) (x : PortRecord) :
    (x.offer top time a).1.slipFlag = true ↔ x.slipFlag = true ∨
      (x.unmasked a.kind = true ∧ x.queue.any (fun e => e.matchesPosting a) = false ∧ 16 ≤ x.queue.length) := by
  unfold PortRecord.offer
  split
  case isTrue masked => simp_all
  case isFalse unmasked =>
    split
    case isTrue merged => simp_all
    case isFalse new =>
      split
      case isTrue room => simp_all
      case isFalse full => split <;> simp_all [PortRecord.countSlip]

/-- A masked kind is offered in vain (R154). -/
theorem offer_masked (top time : Nat) {a : Posting} {x : PortRecord} (h : x.unmasked a.kind = false) :
    x.offer top time a = (x, false) := by
  simp [PortRecord.offer, h]

/-- A READ_ALERTS taken by a listening port, on the queue and the slip flag that the request found (R157). -/
theorem exec_readAlerts {s : State} {p : Port} (tag : Byte) (hl : listening s p) :
    exec (.readAlerts p tag (.args ())) s =
      .next (respond p RequestKind.readAlerts.code tag (readAlertsReply p (heard p s))) :=
  request_taken .readAlerts tag () (fun _ => readAlertsReply p) hl rfl

/-- Settles O13: the answer is made from the state the request leaves (`answer_respond`), for every kind of request
alike, and only READ_ALERTS replies with another slip flag (`exec_answers`). -/
theorem readAlertsAndTheAlertSummary : Obligations.ReadAlertsAndTheAlertSummary := by
  unfold Obligations.ReadAlertsAndTheAlertSummary
  refine ⟨fun s p tag hl => ?read, fun c s p k tag hc hk hl => ?summary, slipFlag_offer⟩
  case read =>
    obtain ⟨a, made, status, contents, -, -, slip, -⟩ :=
      answer_respond p RequestKind.readAlerts.code tag (readAlertsReply p (heard p s))
    have found : (heard p s).port p = { s.port p with receiver := .answering } := by rw [heard_port, if_pos rfl]
    refine ⟨_, a, exec_readAlerts tag hl, ?_, ?_, made, status, ?_, ?_⟩
    · simp [queue_respond, readAlertsReply, accept, found]
    · simp [slipFlag_respond, readAlertsReply, accept]
    · simp [contents, readAlertsReply, accept, found]
    · simp [slip, readAlertsReply, accept, headerSlip, found]
  case summary =>
    obtain ⟨r, run, own⟩ := exec_answers hc hk hl
    obtain ⟨a, made, -, -, queued, highest, slip, mode⟩ := answer_respond p k.code tag r
    refine ⟨_, a, run, made, ?_, mode, ?_, ?_, fun hr => ?_⟩
    · rw [queue_respond, queued]
    · rw [queue_respond, highest]
      exact fun e he => level_le_highestLevel he
    · rw [queue_respond, highest]
      exact highestLevel_reached _
    · rw [slipFlag_respond, slip, own hr]

end Sys2Proof.Machine
end

section
/-! PROOFS. The kind masks, which only ALERT_MASK and POWER_ON replace (09_alerts_records_and_the_fault_history.md). -/

namespace Sys2Proof.Machine

/-! ### ALERT_MASK (R154) -/

/-- The masks that may be taken: UPLIFT_STOP and LOCKDOWN enabled, bits 25 to 31 clear (R154, section 10.6). -/
theorem maskOk_iff {m : Nat} : maskOk m = true ↔
    m.testBit (AlertKind.upliftStop.code - 1) = true ∧ m.testBit (AlertKind.lockdown.code - 1) = true ∧ m < 2 ^ 25 := by
  simp only [maskOk, AlertKind.code, Bool.and_eq_true, decide_eq_true_eq]
  tauto

theorem alertMaskReply_taken {p : Port} {m : Nat} {s : State} (h : maskOk m = true) :
    alertMaskReply p m s =
      accept (.mask (BitVec.ofNat 32 m)) (s.updPort p (fun x => { x with mask := BitVec.ofNat 32 m })) := by
  rw [alertMaskReply, if_pos h]

theorem alertMaskReply_refused {p : Port} {m : Nat} {s : State} (h : maskOk m ≠ true) :
    alertMaskReply p m s = refuse .badArgument s := by
  rw [alertMaskReply, if_neg h]

/-- An ALERT_MASK taken by a listening port, on the state that the request found. -/
theorem exec_alertMask {s : State} {p : Port} (tag : Byte) (m : Nat) (hl : listening s p) :
    exec (.alertMask p tag (.args m)) s =
      .next (respond p RequestKind.alertMask.code tag (alertMaskReply p m (heard p s))) :=
  request_taken .alertMask tag m (alertMaskReply p) hl rfl

/-- A port's mask enables a kind by the bit of its code (R154). -/
theorem unmasked_ofNat (x : PortRecord) (m : Nat) (k : AlertKind) :
    ({ x with mask := BitVec.ofNat 32 m } : PortRecord).unmasked k = m.testBit (k.code - 1) := by
  have code : k.code - 1 < 32 := by cases k <;> decide
  rw [PortRecord.unmasked, BitVec.getLsbD_ofNat, decide_eq_true code, Bool.true_and]

/-! ### POWER_ON (R154) -/

theorem unmasked_fresh (k : AlertKind) : PortRecord.fresh.unmasked k = true := by cases k <;> decide

theorem port_freshPart (storeOk kept : Bool) (secs : Nat) (s : State) (p : Port) :
    (freshPart storeOk kept secs s).port p = PortRecord.fresh := by cases p <;> rfl

/-- The fault entries and alerts of power-on change no mask. -/
theorem powerUp_masks (storeOk kept : Bool) (secs : Nat) (s : State) :
    Part.masks.same (freshPart storeOk (kept && s.clock.valid) secs s) (powerUp storeOk kept secs s) := by
  have clock (u : State) : keeps [.queues, .faults, .writes, .stages] u
      (if kept && s.clock.valid then u else enterFault .rtcInvalid (.value 0) none .record u) := by
    split
    · exact keeps_refl _ _
    · exact (enterFault_keeps _ _ _ _ _).mono (by decide)
  have store (u : State) : keeps [.queues, .faults, .writes, .stages] u
      (if storeOk then u else reportStoreFault (.value 0) none u) := by
    split
    · exact keeps_refl _ _
    · exact (reportStoreFault_keeps _ _ _).mono (by decide)
  have stages (ks : List StageKey) (u : State) : keeps [.queues, .faults, .writes, .stages] u
      (ks.foldl (fun s k => losePower k s) u) :=
    foldl_keeps _ _ _ (fun s k => (losePower_keeps k s).mono (by decide))
  have all : keeps [.queues, .faults, .writes, .stages, .startCheck, .warn]
      (freshPart storeOk (kept && s.clock.valid) secs s) (powerUp storeOk kept secs s) := by
    unfold powerUp
    dsimp only
    refine (formWarn_keeps _).after (by decide) ?_
    refine (settleStartCheck_keeps _).after (by decide) ?_
    refine (stages _ _).after (by decide) ?_
    refine (store _).after (by decide) ?_
    exact (clock _).mono (by decide)
  exact all.2 .masks (by decide)

/-! ### Every other command keeps the masks (R154) -/

/-- A frame whose handling keeps the masks keeps them. -/
theorem receive_masks (p : Port) (act : State → State) (s : State) (h : ∀ s, Part.masks.same s (act s)) :
    Part.masks.same s (receive p act s) := by
  have taken : Part.masks.same s (act (heard p s)) :=
    Part.same_trans ((heard_keeps p s).2 .masks (by decide)) (h _)
  unfold receive
  split
  · exact taken
  · exact taken
  · exact (countOverrun_keeps p s).2 .masks (by decide)
  · exact (keeps_refl [] s).2 .masks (by decide)

/-- An answer made keeps the masks. -/
theorem respond_masks {p : Port} (kind tag : Byte) {s : State} {r : Reply} (h : Part.masks.same s r.state) :
    Part.masks.same s (respond p kind tag r) :=
  Part.same_trans h ((respond_keeps p kind tag r).2 .masks (by decide))

section
variable {c : Instr} {p : Port} {k : RequestKind} {tag : Byte}

/-- A request of another kind than ALERT_MASK keeps the masks. -/
theorem handledAs_masks (hc : handledAs c p k tag) (hk : k ≠ .alertMask) (s : State) :
    ∃ t, exec c s = .next t ∧ Part.masks.same s t := by
  obtain ⟨α, b, own, run, replies⟩ := hc
  refine ⟨_, run s, receive_masks p _ s (fun u => respond_masks _ _ ?_)⟩
  repeat' split
  · exact (replies _ u).1 hk
  · exact (refuse_handles k _ u).1 hk
  · exact (refuse_handles k _ u).1 hk

/-- Only ALERT_MASK is a request of its kind, but for the frames of a kind that section 10.4 does not list. -/
theorem eq_alertMask_of_kind (hk : c.kind? = some (p, .alertMask, tag)) (hu : ∀ q n t b, c ≠ .unknownKind q n t b) :
    ∃ b, c = .alertMask p tag b := by
  cases c with
  | alertMask q t b => cases hk; exact ⟨b, rfl⟩
  | unknownKind q n t b => exact absurd rfl (hu q n t b)
  | _ => cases hk

/-- A frame of a kind that section 10.4 does not list is refused, and keeps the masks (R170). -/
theorem unknownKind_masks (q : Port) (n t : Byte) (b : List Byte) (s : State) :
    ∃ u, exec (.unknownKind q n t b) s = .next u ∧ Part.masks.same s u := by
  refine ⟨_, rfl, ?_⟩
  split
  · exact receive_masks q _ s (fun u => respond_masks n t ((refuse_keeps [] .unknownKind u).2 .masks (by decide)))
  · exact (keeps_refl [] s).2 .masks (by decide)

/-- The masks after a command that is known to change other parts alone. -/
theorem masks_of_exec {A : List Part} {s : State} (h : ∃ t, exec c s = .next t ∧ keeps A s t)
    (hA : .masks ∉ A := by decide) : ∃ t, exec c s = .next t ∧ Part.masks.same s t := by
  obtain ⟨t, run, kept⟩ := h
  exact ⟨t, run, kept.2 .masks hA⟩

end

section
variable (s : State)

/-- An event that has its effect only under a condition changes no more than the effect. -/
theorem ite_keeps {A : List Part} {t : State} (b : Prop) [Decidable b] (h : keeps A s t) :
    keeps A s (if b then t else s) := by
  split
  · exact h
  · exact keeps_refl A s

/-- A port's receiver and sending flag belong to its link. -/
theorem updPort_keeps_link (p : Port) (f : PortRecord → PortRecord) (hq : ∀ x, (f x).queuePart = x.queuePart)
    (hc : ∀ x, (f x).counterPart = x.counterPart) (hm : ∀ x, (f x).mask = x.mask) (hn : ∀ x, (f x).cut = x.cut) :
    keeps [.links, .portCounters, .queues] s (s.updPort p f) :=
  updPort_keeps p f s (.inr (hq _)) (.inl (by decide)) (.inr (hc _)) (.inr (hm _)) (.inr (hn _))

/-! Events that have several effects, or one of several. -/

theorem overrun_keeps (p : Port) :
    ∃ t, exec (.overrun p) s = .next t ∧ keeps [.links, .portCounters, .queues] s t := by
  refine ⟨_, rfl, ?_⟩
  split
  · exact countOverrun_keeps p s
  all_goals exact keeps_refl _ _

theorem answerSent_keeps (p : Port) :
    ∃ t, exec (.answerSent p) s = .next t ∧ keeps [.links, .portCounters, .queues] s t := by
  refine ⟨_, rfl, ?_⟩
  split
  · exact updPort_keeps_link s p _ (fun _ => rfl) (fun _ => rfl) (fun _ => rfl) (fun _ => rfl)
  · exact updPort_keeps_link s p _ (fun _ => rfl) (fun _ => rfl) (fun _ => rfl) (fun _ => rfl)
  all_goals exact keeps_refl _ _

theorem startByteReceived_keeps (p : Port) :
    ∃ t, exec (.startByteReceived p) s = .next t ∧ keeps [.links, .portCounters, .queues] s t := by
  refine ⟨_, rfl, ?_⟩
  split
  · exact updPort_keeps_link s p _ (fun _ => rfl) (fun _ => rfl) (fun _ => rfl) (fun _ => rfl)
  · exact countOverrun_keeps p s
  all_goals exact keeps_refl _ _

theorem flowPulse_keeps (l : LineId) : ∃ t, exec (.flowPulse l) s = .next t ∧
    keeps [.lines, .meters, .lineSettings, .stages, .batches, .account, .aged, .queues] s t := by
  refine ⟨_, rfl, ?_⟩
  dsimp only
  split
  · split
    · exact (meteredPulse_keeps l _ _).after (by decide) ((setLine_keeps_all l _ s).mono (by decide))
    · exact (addProgress_keeps l _ _).after (by decide) ((setLine_keeps_all l _ s).mono (by decide))
  · exact keeps_refl _ _

theorem estopSample_keeps (b : Bool) : ∃ t, exec (.estopSample b) s = .next t ∧
    keeps [.estop, .exercise, .queues, .faults, .writes, .lines, .mixOrder, .stages] s t := by
  refine ⟨_, rfl, ?_⟩
  dsimp only
  split
  · exact (beginEstop_keeps _).after (by decide) ((countContact_keeps b s).mono (by decide))
  split
  · exact (finishEstop_keeps _).after (by decide) ((countContact_keeps b s).mono (by decide))
  · exact (countContact_keeps b s).mono (by decide)

theorem acceptWindowExpiry_keeps (l : LineId) : ∃ t, exec (.acceptWindowExpiry l) s = .next t ∧
    keeps [.lines, .mixOrder, .queues, .stages, .writes] s t := by
  refine ⟨_, rfl, ite_keeps s _ ?_⟩
  refine (withBound_keeps (A := [.stages, .writes]) _ _ _ (fun k => returnToReady_keeps k _)).after (by decide) ?_
  exact (closeLine_keeps _ l s).mono (by decide)

theorem keepaliveExpiry_keeps (l : LineId) : ∃ t, exec (.keepaliveExpiry l) s = .next t ∧
    keeps [.lines, .mixOrder, .queues, .stages, .writes, .faults] s t := by
  refine ⟨_, rfl, ?_⟩
  split
  · exact expireKeepalive_keeps l _ s
  · exact keeps_refl _ _

/-- The clocks and the level period at a second of the part's clock. -/
theorem tickClock_keeps :
    keeps [.clock, .levelPeriod] s ({ s with clock := s.clock.tick }.updGrout Grout.tickPeriod) :=
  (updPeriod_keeps (· + 1) _).after (by decide) ((setClock_keeps _ s).mono (by decide))

theorem clockSecond_keeps : ∃ t, exec .clockSecond s = .next t ∧
    keeps [.clock, .levelPeriod, .lines, .stages, .free, .aged, .queues] s t := by
  refine ⟨_, rfl, (decideAged_keeps _).after (by decide) ?_⟩
  refine (forLines_keeps (A := [.lines, .stages, .free]) _ _ tickLine_keeps).after (by decide) ?_
  exact (tickClock_keeps s).mono (by decide)

theorem levelComparison_keeps : ∃ t, exec .levelComparison s = .next t ∧
    keeps [.comparison, .levelPeriod, .queues] s t := by
  refine ⟨_, rfl, ite_keeps s _ ?_⟩
  exact (compareLevels_keeps _).after (by decide) ((updPeriod_keeps (· - levelPeriodLength) s).mono (by decide))

/-- A change of the writes begun, the latch and the copy alone. -/
theorem setStore_keeps (w : List StoreWrite) (b : Bool) (n : NvCopy) :
    keeps [.writes, .storeFault, .nvCopy] s { s with store := { s.store with writes := w, fault := b, nv := n } } := by
  refine ⟨rfl, fun q hq => ?_⟩
  cases q <;> simp_all [Part.same, PortRecord.same] <;> exact fun _ => rfl

theorem storeWriteFailed_keeps : ∃ t, exec .storeWriteFailed s = .next t ∧
    keeps [.writes, .storeFault, .nvCopy, .queues, .faults] s t := by
  refine ⟨_, rfl, ?_⟩
  split
  · exact (reportStoreFault_keeps _ _ _).after (by decide) ((setStore_keeps s _ _ _).mono (by decide))
  · exact keeps_refl _ _

theorem storeWriteCompleted_keeps : ∃ t, exec .storeWriteCompleted s = .next t ∧
    keeps [.writes, .storeFault, .nvCopy] s t := by
  refine ⟨_, rfl, ?_⟩
  split
  · exact setStore_keeps s _ _ _
  · exact keeps_refl _ _

end

/-- Every event but POWER_ON keeps the masks. -/
theorem event_masks {c : Instr} (hk : c.kind? = none) (hu : ∀ q n t b, c ≠ .unknownKind q n t b)
    (hp : ∀ a b n, c ≠ .powerOn a b n) (s : State) : ∃ t, exec c s = .next t ∧ Part.masks.same s t := by
  cases c with
  | crcError p => exact masks_of_exec ⟨_, rfl, brokenFrame_keeps p _ s (countCrc_keeps p s)⟩
  | framingError p _ => exact masks_of_exec ⟨_, rfl, brokenFrame_keeps p _ s (countFraming_keeps p .discarding s)⟩
  | frameGapAbort p _ => exact masks_of_exec ⟨_, rfl, brokenFrame_keeps p _ s (countFraming_keeps p _ s)⟩
  | overrun p => exact masks_of_exec (overrun_keeps s p)
  | answerSent p => exact masks_of_exec (answerSent_keeps s p)
  | discardSilenceEnd p =>
    exact masks_of_exec ⟨_, rfl, ite_keeps s _
      (updPort_keeps_link s p _ (fun _ => rfl) (fun _ => rfl) (fun _ => rfl) (fun _ => rfl))⟩
  | lineSampleEvent l n a b c => exact masks_of_exec ⟨_, rfl, ite_keeps s _ (lineSample_keeps l n a b c s)⟩
  | flowPulse l => exact masks_of_exec (flowPulse_keeps s l)
  | gaugeSampleEvent g n => exact masks_of_exec ⟨_, rfl, ite_keeps s _ (gaugeSample_keeps g n s)⟩
  | levelSampleEvent n => exact masks_of_exec ⟨_, rfl, levelSample_keeps n s⟩
  | estopSample b => exact masks_of_exec (estopSample_keeps s b)
  | clockSecond => exact masks_of_exec (clockSecond_keeps s)
  | valveTravelTimeElapsed l => exact masks_of_exec ⟨_, rfl, updLine_keeps l _ s (fun _ => rfl) (fun _ => rfl)⟩
  | holdTimeout l => exact masks_of_exec ⟨_, rfl, ite_keeps s _ (timeoutHold_keeps l s)⟩
  | acceptWindowExpiry l => exact masks_of_exec (acceptWindowExpiry_keeps s l)
  | keepaliveExpiry l => exact masks_of_exec (keepaliveExpiry_keeps s l)
  | recordInterval l =>
    exact masks_of_exec ⟨_, rfl, ite_keeps s _ (withBound_keeps l _ s (fun k => writeRecord_keeps l k s))⟩
  | levelComparison => exact masks_of_exec (levelComparison_keeps s)
  | groutAgeLimitReached => exact masks_of_exec ⟨_, rfl, decideAged_keeps s⟩
  | storeWriteFailed => exact masks_of_exec (storeWriteFailed_keeps s)
  | storeWriteCompleted => exact masks_of_exec (storeWriteCompleted_keeps s)
  | startByteReceived p => exact masks_of_exec (startByteReceived_keeps s p)
  | powerOn a b n => exact absurd rfl (hp a b n)
  | unknownKind q n t b => exact absurd rfl (hu q n t b)
  | _ => cases hk

/-- Every command but ALERT_MASK and POWER_ON keeps the masks (R154). -/
theorem exec_masks {c : Instr} (ha : ∀ p tag b, c ≠ .alertMask p tag b) (hp : ∀ a b n, c ≠ .powerOn a b n)
    (s : State) : ∃ t, exec c s = .next t ∧ Part.masks.same s t := by
  by_cases hu : ∀ q n t b, c ≠ .unknownKind q n t b
  · cases hk : c.kind? with
    | none => exact event_masks hk hu hp s
    | some request =>
      obtain ⟨p, k, tag⟩ := request
      refine handledAs_masks (handledAs_of_kind hk hu) ?_ s
      rintro rfl
      obtain ⟨b, e⟩ := eq_alertMask_of_kind hk hu
      exact ha p tag b e
  · push Not at hu
    obtain ⟨q, n, t, b, rfl⟩ := hu
    exact unknownKind_masks q n t b s

/-- Settles O14: POWER_ON builds the ports afresh, every other command but ALERT_MASK keeps the masks (`exec_masks`), and
ALERT_MASK acts on its own port alone. -/
theorem alertMaskRules : Obligations.AlertMaskRules := by
  unfold Obligations.AlertMaskRules
  refine ⟨fun storeOk kept secs s t p k run => ?powerOn, fun c s t run ha hp q => ?others,
    fun top time a x h => offer_masked top time h, fun s p tag m hl _ => ⟨fun bad => ?refused, fun up lock low => ?taken⟩⟩
  case powerOn =>
    obtain rfl : powerUp storeOk kept secs s = t := Host.Outcome.next.inj run
    have mask := powerUp_masks storeOk kept secs s p
    rw [port_freshPart] at mask
    rw [PortRecord.unmasked, mask]
    exact unmasked_fresh k
  case others =>
    obtain ⟨u, ran, kept⟩ := exec_masks ha hp s
    obtain rfl : t = u := Host.Outcome.next.inj (run.symm.trans ran)
    exact kept q
  case refused =>
    have refused : maskOk m ≠ true := by
      rw [ne_eq, maskOk_iff]
      rintro ⟨up, lock, low⟩
      rcases bad with e | e | high
      · exact absurd (up.symm.trans e) (by decide)
      · exact absurd (lock.symm.trans e) (by decide)
      · omega
    have run := exec_alertMask tag m hl
    rwa [alertMaskReply_refused refused] at run
  case taken =>
    have run := exec_alertMask tag m hl
    rw [alertMaskReply_taken (maskOk_iff.mpr ⟨up, lock, low⟩)] at run
    refine ⟨_, run, rfl, fun k => ?_⟩
    rw [port_updPort_self]
    exact unmasked_ofNat _ m k

end Sys2Proof.Machine
end

section
/-! PROOFS. Every command and every step answers a next state, and a command changes its footprint alone
(00_scope.md). -/

namespace Sys2Proof.Machine

/-! ### Steps (log entry 4) -/

/-- Settles O1: by the definition of a step. -/
theorem stepRunsTheFrontCommand : Obligations.StepRunsTheFrontCommand := fun _ _ _ => rfl

/-- Every arm of the dispatch answers a next state. -/
theorem exec_next (c : Instr) (s : State) : ∃ t, exec c s = .next t := by
  cases c <;> exact ⟨_, rfl⟩

theorem step_idle {s : State} (h : s.pending = []) : step s = .next s := by
  rw [step, h]

theorem step_front {s : State} {c : Instr} {rest : List Instr} (h : s.pending = c :: rest) :
    step s = exec c { s with pending := rest } := by
  rw [step, h]

/-- Settles O2: a step idles, or is the command at the front of the queue (`exec_next`). -/
theorem noCommandStops : Obligations.NoCommandStops := by
  refine ⟨exec_next, fun s => ?_, fun _ => step_idle⟩
  cases h : s.pending with
  | nil => exact ⟨s, step_idle h⟩
  | cons c rest => exact step_front h ▸ exec_next c _

/-! ### The frame of a request -/

section
variable {A : List Part} {k : RequestKind} {p : Port} {tag : Byte}

/-- A request changes what its own checks and effect change, beyond what taking it does. -/
theorem request_frame {α : Type} {B : List Part} {b : Body α} {own : α → State → Reply} {s t : State}
    (h : ∀ a u, keeps B u (own a u).state) (run : request k p tag b own s = .next t)
    (hA : requestParts ⊆ A := by dsimp only [footprint]; decide) (hB : B ⊆ A := by dsimp only [footprint]; decide) :
    keeps A s t :=
  request_keeps k p tag b own s t hA (fun a u => (h a u).mono hB) run

/-- A request that needs a grant (R50). -/
theorem withGrant_frame {B C D : List Part} {without : State → Reply} {own : LineId → Grant → State → Reply}
    (hw : ∀ u, keeps B u (without u).state) (ho : ∀ l g u, keeps C u (own l g u).state)
    (hB : B ⊆ D) (hC : C ⊆ D) (u : State) : keeps D u (withGrant p without own u).state :=
  withGrant_keeps p without own u ((hw u).mono hB) (fun l g => (ho l g u).mono hC)

end

/-- The frame of every request of a kind that section 10.4 lists. -/
theorem request_footprint {c : Instr} {s t : State} (hk : c.kind?.isSome) (hu : ∀ q n g b, c ≠ .unknownKind q n g b)
    (run : exec c s = .next t) : keeps (footprint c) s t := by
  cases c with
  | claim q g b => exact request_frame (claimReply_keeps q) run
  | start q g b =>
    exact request_frame (B := [.lines, .stages])
      (fun _ => withGrant_frame (fun u => refuse_keeps [] _ u) startReply_keeps (by decide) (by decide)) run
  | pause q g b =>
    exact request_frame (B := [.lines])
      (fun _ => withGrant_frame (fun u => refuse_keeps [] _ u) pauseReply_keeps (by decide) (by decide)) run
  | pumpStatus q g b =>
    exact request_frame (B := [.lines, .cuts])
      (fun a => withGrant_frame (pumpStatusWithout_keeps q a) (pumpReport_keeps a) (by decide) (by decide)) run
  | release q g b =>
    exact request_frame (B := [.lines, .cuts, .stages, .writes, .mixOrder, .queues])
      (fun _ => withGrant_frame (releaseWithout_keeps q) releaseReply_keeps (by decide) (by decide)) run
  | status q g b => exact request_frame (B := []) (fun _ u => keeps_refl [] u) run
  | stageRead q g b => exact request_frame (stageReadReply_keeps []) run
  | lineRead q g b => exact request_frame (lineReadReply_keeps []) run
  | readAlerts q g b => exact request_frame (fun _ => readAlertsReply_keeps q) run
  | alertMask q g b => exact request_frame (alertMaskReply_keeps q) run
  | stageWrite q g b => exact request_frame stageWriteReply_keeps run
  | stageRelease q g b =>
    exact request_frame (fun k u => stageEditOf_keeps k _ u (fun x => stageReleaseOwn_keeps x u)) run
  | stageWithdraw q g b =>
    exact request_frame (fun k u => stageEditOf_keeps k _ u (fun x => stageWithdrawOwn_keeps x u)) run
  | stageDelete q g b =>
    exact request_frame (fun k u => stageEditOf_keeps k _ u (fun x => stageDeleteOwn_keeps x u)) run
  | stageDecideContinue q g b =>
    exact request_frame (fun a u => decideOf_keeps a _ u (fun x => decideContinueOwn_keeps a x u)) run
  | stageDecideClose q g b =>
    exact request_frame (fun a u => decideOf_keeps a _ u (fun x => decideCloseOwn_keeps x u)) run
  | stageDecideAbandon q g b =>
    exact request_frame (fun a u => decideOf_keeps a _ u (fun x => decideAbandonOwn_keeps x u)) run
  | stageDecideResume q g b =>
    exact request_frame (fun a u => decideOf_keeps a _ u (fun x => decideResumeOwn_keeps x u)) run
  | lineConfig q g b => exact request_frame lineConfigReply_keeps run
  | lineWatch q g b => exact request_frame lineWatchReply_keeps run
  | lineUnwatch q g b => exact request_frame (fun n u => lineRequest_keeps n _ u (fun l => lineUnwatchOwn_keeps l u)) run
  | lineIsolate q g b => exact request_frame (fun n u => lineRequest_keeps n _ u (fun l => lineIsolateOwn_keeps l u)) run
  | lineReturn q g b => exact request_frame (fun n u => lineRequest_keeps n _ u (fun l => lineReturnOwn_keeps l u)) run
  | holdAll q g b => exact request_frame (fun _ => holdAllReply_keeps) run
  | releaseAll q g b => exact request_frame (fun _ => releaseAllReply_keeps) run
  | batchReport q g b => exact request_frame batchReportReply_keeps run
  | tankDump q g b => exact request_frame (fun _ => tankDumpReply_keeps) run
  | upliftZero q g b => exact request_frame (fun _ => upliftZeroReply_keeps) run
  | upliftClear q g b => exact request_frame (fun _ => upliftClearReply_keeps) run
  | partConfig q g b => exact request_frame partConfigReply_keeps run
  | readerEnable q g b => exact request_frame readerEnableReply_keeps run
  | readRecords q g b => exact request_frame (fun _ => readRecordsReply_keeps q) run
  | readCompletions q g b => exact request_frame (fun a u => rangeReply_keeps [] _ _ a u) run
  | readFaults q g b => exact request_frame (fun a u => rangeReply_keeps [] _ _ a u) run
  | readConnections q g b => exact request_frame (fun a u => rangeReply_keeps [] _ _ a u) run
  | clearCounters q g b => exact request_frame clearCountersReply_keeps run
  | clearLatches q g b => exact request_frame clearLatchesReply_keeps run
  | setTime q g b => exact request_frame setTimeReply_keeps run
  | exerciseStep q g b => exact request_frame (fun _ => exerciseStepReply_keeps) run
  | reset q g b => exact request_frame resetReply_keeps run
  | unknownKind q n g b => exact absurd rfl (hu q n g b)
  | _ => cases hk

/-! ### The frame of an event -/

section
variable {c : Instr} {s t : State} {A B : List Part}

/-- The frame of a command, from what it is known to change. -/
theorem frame_of_exec (run : exec c s = .next t) (h : ∃ u, exec c s = .next u ∧ keeps B s u)
    (hB : B ⊆ A := by dsimp only [footprint]; decide) : keeps A s t := by
  obtain ⟨u, ran, kept⟩ := h
  obtain rfl : t = u := Host.Outcome.next.inj (run.symm.trans ran)
  exact kept.mono hB

/-- A flow pulse leaves the settings in force: it counts, and meters. -/
theorem flowPulse_frame (l : LineId) (s : State) : ∃ t, exec (.flowPulse l) s = .next t ∧
    keeps [.lines, .meters, .stages, .batches, .account, .aged, .queues] s t := by
  have counted : keeps [.meters] s (s.setLine l { s.line l with pulses := (s.line l).pulses + 1 }) :=
    updLine_keeps_records l (fun x => { x with pulses := x.pulses + 1 }) s (fun _ => rfl) (fun _ => rfl)
  refine ⟨_, rfl, ?_⟩
  dsimp only
  split
  · split
    · exact (meteredPulse_keeps l _ _).after (by decide) (counted.mono (by decide))
    · exact (addProgress_keeps l _ _).after (by decide) (counted.mono (by decide))
  · exact keeps_refl _ _

theorem storeWriteFailed_frame (s : State) : ∃ t, exec .storeWriteFailed s = .next t ∧
    keeps [.writes, .storeFault, .queues, .faults] s t := by
  have latched : keeps [.writes, .storeFault] s { s with store := { s.store with writes := [], fault := true } } := by
    refine ⟨rfl, fun q hq => ?_⟩
    cases q <;> simp_all [Part.same, PortRecord.same] <;> exact fun _ => rfl
  refine ⟨_, rfl, ?_⟩
  split
  · exact (reportStoreFault_keeps _ _ _).after (by decide) (latched.mono (by decide))
  · exact keeps_refl _ _

theorem storeWriteCompleted_frame (s : State) : ∃ t, exec .storeWriteCompleted s = .next t ∧
    keeps [.writes, .nvCopy] s t := by
  refine ⟨_, rfl, ?_⟩
  split
  · refine ⟨rfl, fun q hq => ?_⟩
    cases q <;> simp_all [Part.same, PortRecord.same] <;> exact fun _ => rfl
  · exact keeps_refl _ _

/-- POWER_ON leaves the queue of commands and the free values alone. -/
theorem powerOn_frame (storeOk kept : Bool) (secs : Nat) (s : State) :
    ∃ t, exec (.powerOn storeOk kept secs) s = .next t ∧ keeps (footprint (.powerOn storeOk kept secs)) s t := by
  have fresh (b : Bool) : keeps (footprint (.powerOn storeOk kept secs)) s (freshPart storeOk b secs s) := by
    refine ⟨rfl, fun q hq => ?_⟩
    cases q with
    | free | nvCopy => rfl
    | _ => exact absurd (by dsimp only [footprint]; decide) hq
  have clock (b : Bool) (u : State) : keeps [.faults, .writes] u
      (if b then u else enterFault .rtcInvalid (.value 0) none .record u) := by
    split
    · exact keeps_refl _ _
    · exact enterFault_keeps _ _ _ _ _
  have store (u : State) : keeps [.queues, .faults, .writes] u
      (if storeOk then u else reportStoreFault (.value 0) none u) := by
    split
    · exact keeps_refl _ _
    · exact reportStoreFault_keeps _ _ _
  refine ⟨_, rfl, ?_⟩
  unfold powerUp
  dsimp only
  refine (formWarn_keeps _).after (by dsimp only [footprint]; decide) ?_
  refine (settleStartCheck_keeps _).after (by dsimp only [footprint]; decide) ?_
  refine (foldl_keeps _ _ _ (fun u k => losePower_keeps k u)).after (by dsimp only [footprint]; decide) ?_
  refine (store _).after (by dsimp only [footprint]; decide) ?_
  exact (clock _ _).after (by dsimp only [footprint]; decide) (fresh _)

/-- A frame of a kind that section 10.4 does not list. -/
theorem unknownKind_frame (q : Port) (n g : Byte) (b : List Byte) (s : State) :
    ∃ t, exec (.unknownKind q n g b) s = .next t ∧ keeps requestParts s t := by
  refine ⟨_, rfl, ite_keeps s _ (receive_keeps q _ s (by decide) (fun u => ?_))⟩
  exact (respond_keeps q n g _).mono (by decide)

/-- The frame of every event. -/
theorem event_footprint (hk : c.kind? = none) (hu : ∀ q n g b, c ≠ .unknownKind q n g b)
    (run : exec c s = .next t) : keeps (footprint c) s t := by
  cases c with
  | crcError p => exact frame_of_exec run ⟨_, rfl, brokenFrame_keeps p _ s (countCrc_keeps p s)⟩
  | framingError p _ => exact frame_of_exec run ⟨_, rfl, brokenFrame_keeps p _ s (countFraming_keeps p .discarding s)⟩
  | frameGapAbort p _ => exact frame_of_exec run ⟨_, rfl, brokenFrame_keeps p _ s (countFraming_keeps p _ s)⟩
  | overrun p => exact frame_of_exec run (overrun_keeps s p)
  | answerSent p => exact frame_of_exec run (answerSent_keeps s p)
  | discardSilenceEnd p =>
    exact frame_of_exec run ⟨_, rfl, ite_keeps s _
      (updPort_keeps_link s p _ (fun _ => rfl) (fun _ => rfl) (fun _ => rfl) (fun _ => rfl))⟩
  | lineSampleEvent l n a b d => exact frame_of_exec run ⟨_, rfl, ite_keeps s _ (lineSample_keeps l n a b d s)⟩
  | flowPulse l => exact frame_of_exec run (flowPulse_frame l s)
  | gaugeSampleEvent g n => exact frame_of_exec run ⟨_, rfl, ite_keeps s _ (gaugeSample_keeps g n s)⟩
  | levelSampleEvent n => exact frame_of_exec run ⟨_, rfl, levelSample_keeps n s⟩
  | estopSample b => exact frame_of_exec run (estopSample_keeps s b)
  | clockSecond => exact frame_of_exec run (clockSecond_keeps s)
  | valveTravelTimeElapsed l =>
    exact frame_of_exec run ⟨_, rfl, updLine_keeps l _ s (fun _ => rfl) (fun _ => rfl)⟩
  | holdTimeout l => exact frame_of_exec run ⟨_, rfl, ite_keeps s _ (timeoutHold_keeps l s)⟩
  | acceptWindowExpiry l => exact frame_of_exec run (acceptWindowExpiry_keeps s l)
  | keepaliveExpiry l => exact frame_of_exec run (keepaliveExpiry_keeps s l)
  | recordInterval l =>
    exact frame_of_exec run ⟨_, rfl, ite_keeps s _ (withBound_keeps l _ s (fun k => writeRecord_keeps l k s))⟩
  | levelComparison => exact frame_of_exec run (levelComparison_keeps s)
  | groutAgeLimitReached => exact frame_of_exec run ⟨_, rfl, decideAged_keeps s⟩
  | storeWriteFailed => exact frame_of_exec run (storeWriteFailed_frame s)
  | storeWriteCompleted => exact frame_of_exec run (storeWriteCompleted_frame s)
  | startByteReceived p => exact frame_of_exec run (startByteReceived_keeps s p)
  | powerOn a b n => exact frame_of_exec run (powerOn_frame a b n s) (List.Subset.refl _)
  | unknownKind q n g b => exact absurd rfl (hu q n g b)
  | _ => cases hk

end

/-- Settles O3: a request by `request_footprint`, an event by `event_footprint`, a frame of a kind that section 10.4
does not list by `unknownKind_frame`. -/
theorem everyCommandKeepsItsFrame : Obligations.EveryCommandKeepsItsFrame := by
  intro c s t run
  by_cases hu : ∀ q n g b, c ≠ .unknownKind q n g b
  · cases hk : c.kind? with
    | none => exact event_footprint hk hu run
    | some r => exact request_footprint (by rw [hk]; rfl) hu run
  · push Not at hu
    obtain ⟨q, n, g, b, rfl⟩ := hu
    exact frame_of_exec run (unknownKind_frame q n g b s) (List.Subset.refl _)

end Sys2Proof.Machine
end

section
/-! PROOFS. What keeps the invariants: the relations that every operation's change of the state belongs to. -/

namespace Sys2Proof.Machine

/-! ### One line under the stops -/

/-- What `State.stopsHold` asks of one line, with UPLIFT_STOP, ESTOP and LOCKDOWN as given (R41, R48, R141, R143). -/
def Line.stopsOk (up es lock : Bool) (x : Line) : Prop :=
  (x.state = .injecting → x.causes = []) ∧
  (up = true → x.state ≠ .opening ∧ (x.state.evaluated = true → .uplift ∈ x.causes)) ∧
  (es = true → x.state ≠ .opening ∧ (x.state.evaluated = true → .estop ∈ x.causes)) ∧
  (lock = true → x.state.live = false)

theorem stopsHold_iff (s : State) :
    s.stopsHold ↔ ∀ l, (s.line l).stopsOk s.stop.upliftStop s.stop.estop s.stop.lockdown := by
  unfold State.stopsHold Line.stopsOk
  constructor
  · rintro ⟨inj, up, es, lock⟩ l
    exact ⟨inj l, fun h => up h l, fun h => es h l, fun h => lock h l⟩
  · intro h
    exact ⟨fun l => (h l).1, fun u l => (h l).2.1 u, fun e l => (h l).2.2.1 e, fun k l => (h l).2.2.2 k⟩

/-! ### One line from one state to the next -/

/-- What the valve, the binding and the hold of a line rest on. -/
def Line.vitals (x : Line) : LineState × ValvePos × Option StageKey × List HoldCause × Option ValvePos ×
    Option (Port × Phase) :=
  (x.state, x.command, x.stage, x.causes, x.travel.map Travel.target, x.grant.map (fun g => (g.owner, g.phase)))

/-- A line in order stays in order, and gains no owner. The stops are judged with UPLIFT_STOP and ESTOP as given. -/
structure Line.Lawful (up es : Bool) (x y : Line) : Prop where
  grant : x.grantOk → y.grantOk
  owner : ∀ p, y.owner = some p → x.owner = some p
  lists : x.listsOk → y.listsOk
  stops : ∀ lock, x.stopsOk up es lock → y.stopsOk up es lock

/-- It carries what it carried, besides. -/
structure Line.Calm (up es : Bool) (x y : Line) : Prop extends Line.Lawful up es x y where
  carried : y.carried = x.carried
  live : y.state.live = x.state.live

section
variable {up es : Bool} {x y z : Line}

theorem Line.Calm.refl (x : Line) : Line.Calm up es x x :=
  ⟨⟨id, fun _ => id, id, fun _ => id⟩, rfl, rfl⟩

theorem Line.Lawful.trans (h : Line.Lawful up es x y) (h' : Line.Lawful up es y z) : Line.Lawful up es x z :=
  ⟨fun g => h'.grant (h.grant g), fun p o => h.owner p (h'.owner p o), fun a => h'.lists (h.lists a),
    fun k a => h'.stops k (h.stops k a)⟩

theorem Line.Calm.trans (h : Line.Calm up es x y) (h' : Line.Calm up es y z) : Line.Calm up es x z :=
  ⟨h.toLawful.trans h'.toLawful, h'.carried.trans h.carried, h'.live.trans h.live⟩

/-- Whether a line's valve and grant agree with its state is a matter of its vitals. -/
theorem grantOk_iff (x : Line) : x.grantOk ↔
    (x.vitals.2.1 = .opened ↔ x.vitals.1.live = true) ∧
    (∀ w, x.vitals.2.2.2.2.1 = some w → w = x.vitals.2.1) ∧
    (x.vitals.1.live = true → x.vitals.2.2.1.isSome = true ∧ ∃ p, x.vitals.2.2.2.2.2 = some (p, .live)) ∧
    (x.vitals.1 = .closing → ∀ g, x.vitals.2.2.2.2.2 = some g → g.2 = .ending) ∧
    (x.vitals.1.live = false → x.vitals.1 ≠ .closing → x.vitals.2.2.2.2.2 = none ∧ x.vitals.2.2.1 = none) := by
  simp only [Line.vitals, Line.grantOk]
  cases ht : x.travel <;> cases hg : x.grant <;> simp

theorem grantOk_congr (h : y.vitals = x.vitals) (hx : x.grantOk) : y.grantOk := by
  rw [grantOk_iff] at hx ⊢
  rwa [h]

/-- A further change that leaves the vitals. -/
theorem Line.Calm.then_vitals (h : Line.Calm up es x y) (hv : z.vitals = y.vitals) (hl : x.listsOk → z.listsOk) :
    Line.Calm up es x z := by
  have state : z.state = y.state := congrArg (fun v => v.1) hv
  have stage : z.stage = y.stage := congrArg (fun v => v.2.2.1) hv
  have causes : z.causes = y.causes := congrArg (fun v => v.2.2.2.1) hv
  have owners := congrArg (fun v => v.2.2.2.2.2.map Prod.fst) hv
  have owner : z.owner = y.owner := by
    simp only [Line.vitals, Option.map_map] at owners
    exact owners
  refine ⟨⟨fun g => grantOk_congr hv (h.grant g), fun p o => h.owner p (owner ▸ o), hl, fun lock o => ?_⟩, ?_, ?_⟩
  · simpa only [Line.stopsOk, state, causes] using h.stops lock o
  · simpa only [Line.carried, state, stage] using h.carried
  · rw [state, h.live]

/-- A change that leaves the vitals, and lengthens no list beyond its bound. -/
theorem Line.Calm.of_vitals (h : y.vitals = x.vitals) (hl : x.listsOk → y.listsOk) : Line.Calm up es x y :=
  (Line.Calm.refl x).then_vitals h hl

/-- The vitals of a line held or freed are those of the line, but for its causes, and a hold's state. -/
theorem Line.Calm.held (c : HoldCause) (x : Line) : Line.Calm up es x (x.held c) := by
  by_cases hc : c ∈ x.causes
  · rw [held_of_mem hc]; exact .refl x
  · have grantOk : x.grantOk → (x.held c).grantOk := by
      unfold Line.held Line.grantOk
      cases hs : x.state <;> simp [hc, hs, LineState.live]
    have stops (lock : Bool) : x.stopsOk up es lock → (x.held c).stopsOk up es lock := by
      unfold Line.held Line.stopsOk
      cases hs : x.state <;> simp [hc, hs, LineState.live, LineState.evaluated, mem_withCause] <;> tauto
    have owner : (x.held c).owner = x.owner := by rw [Line.owner, held_grant, Line.owner]
    refine ⟨⟨grantOk, fun p o => owner ▸ o, ?_, stops⟩, ?_, ?_⟩
    all_goals
      unfold Line.held
      cases hs : x.state <;> simp [hc, hs, Line.listsOk, Line.carried, LineState.live]

/-- A cause other than a standing stop's is taken off. -/
theorem Line.Calm.freed {c : HoldCause} (hu : c = .uplift → up = false) (he : c = .estop → es = false) (x : Line) :
    Line.Calm up es x (x.freed c) := by
  have mem {d : HoldCause} (h : c ≠ d) (hd : d ∈ x.causes) : d ∈ withoutCause c x.causes := by
    simpa [withoutCause] using ⟨hd, h.symm⟩
  have hu' : up = true → c ≠ .uplift := fun h e => by simp [hu e] at h
  have he' : es = true → c ≠ .estop := fun h e => by simp [he e] at h
  have stops (lock : Bool) : x.stopsOk up es lock → (x.freed c).stopsOk up es lock := by
    rintro ⟨inj, u, e, k⟩
    have evaluated : (x.freed c).state = x.state := by
      unfold Line.freed
      cases hs : x.state <;> simp [hs]
    have causes (d : HoldCause) (h : c ≠ d) (hd : d ∈ x.causes) : d ∈ (x.freed c).causes := by
      unfold Line.freed
      cases x.state with
      | armed | holding => exact mem h hd
      | _ => exact hd
    rw [Line.stopsOk, evaluated]
    refine ⟨fun h => ?_, fun h => ⟨(u h).1, fun v => causes _ (hu' h) ((u h).2 v)⟩,
      fun h => ⟨(e h).1, fun v => causes _ (he' h) ((e h).2 v)⟩, k⟩
    simpa [Line.freed, h] using inj h
  refine ⟨⟨?_, ?_, ?_, stops⟩, ?_, ?_⟩
  all_goals
    unfold Line.freed
    cases hs : x.state <;> simp [hs, Line.grantOk, Line.owner, Line.listsOk, Line.carried, LineState.live]

/-- A line in OPENING that is armed; where a stop stands no line is in OPENING (R30). -/
theorem Line.Calm.armed (hs : x.state = .opening) (causes : List HoldCause) (timer : Option Nat) :
    Line.Calm up es x { x with state := .armed, causes := causes, recordTimer := timer } := by
  refine ⟨⟨?_, fun _ => id, id, ?_⟩, ?_, ?_⟩
  · simp [Line.grantOk, hs, LineState.live]
  · rintro lock ⟨-, u, e, k⟩
    refine ⟨by simp, fun h => absurd hs (u h).1, fun h => absurd hs (e h).1, fun h => ?_⟩
    simpa [hs, LineState.live] using k h
  · simp [Line.carried, hs, LineState.live]
  · simp [hs, LineState.live]

/-- A START taken in ARMED or HOLDING: the causes of a stop stay (R41). -/
theorem Line.Calm.takeStart (hs : x.state = .armed ∨ x.state = .holding) : Line.Calm up es x x.takeStart := by
  have live : x.state.live = true := by rcases hs with h | h <;> rw [h] <;> rfl
  have evaluated : x.state.evaluated = true := by rcases hs with h | h <;> rw [h] <;> rfl
  have mem {d : HoldCause} (h : d ≠ .pump) (hd : d ∈ x.causes) : d ∈ withoutCause .pump x.causes := by
    simpa [withoutCause] using ⟨hd, h⟩
  have state := takeStart_state (x := x)
  have causes : x.takeStart.causes = withoutCause .pump x.causes := by
    by_cases h : withoutCause .pump x.causes = []
    · rw [takeStart_clear h, h]
    · unfold Line.takeStart Line.enterHolding
      simp only [h, if_false]
      split <;> rfl
  have rest : x.takeStart.command = x.command ∧ x.takeStart.travel = x.travel := by
    unfold Line.takeStart Line.enterInjecting Line.enterHolding
    dsimp only
    split
    · exact ⟨rfl, rfl⟩
    split <;> exact ⟨rfl, rfl⟩
  have lists : x.takeStart.window = x.window ∧ x.takeStart.transit = x.transit ∧
      (x.takeStart.ring = [] ∨ x.takeStart.ring = x.ring) := by
    unfold Line.takeStart Line.enterInjecting Line.enterHolding
    dsimp only
    split
    · exact ⟨rfl, rfl, .inl rfl⟩
    split <;> exact ⟨rfl, rfl, .inr rfl⟩
  have live' : x.takeStart.state.live = true := by rw [state]; split <;> rfl
  have closing : x.takeStart.state ≠ .closing := by rw [state]; split <;> decide
  obtain ⟨stage, grant⟩ := takeStart_binding (x := x)
  refine ⟨⟨?_, ?_, ?_, ?_⟩, ?_, live'.trans live.symm⟩
  · rintro ⟨valve, travel, bound, -, -⟩
    exact ⟨by rw [rest.1, live', valve, live], by rwa [rest.1, rest.2], fun _ => by rw [stage, grant]; exact bound live,
      fun h => absurd h closing, fun h => by rw [live'] at h; cases h⟩
  · intro p h
    rwa [Line.owner, grant] at h
  · rintro ⟨w, r, t⟩
    refine ⟨by rwa [lists.1], ?_, by rwa [lists.2.1]⟩
    rcases lists.2.2 with h | h <;> rw [h]
    · exact Nat.zero_le _
    · exact r
  · rintro lock ⟨-, u, e, k⟩
    have opening : x.takeStart.state ≠ .opening := by rw [state]; split <;> decide
    refine ⟨fun h => ?_, fun h => ⟨opening, fun _ => ?_⟩, fun h => ⟨opening, fun _ => ?_⟩, fun h => ?_⟩
    · rw [causes]
      by_contra hne
      rw [state, if_neg hne] at h
      cases h
    · rw [causes]; exact mem (by decide) ((u h).2 evaluated)
    · rw [causes]; exact mem (by decide) ((e h).2 evaluated)
    · rw [k h] at live; cases live
  · simp [Line.carried, live, live', stage]

/-- A line closed under its grant: nothing is left that a stop could ask for (R31, R62). -/
theorem Line.Lawful.closed (r : EndReason) (n : Nat) (x : Line) : Line.Lawful up es x (x.closed r n) := by
  refine ⟨fun _ => ⟨by simp [Line.closed, LineState.live], fun w h => ?_, by simp [Line.closed, LineState.live],
    fun _ g h => ?_, by simp [Line.closed]⟩, fun p h => ?_, fun ⟨w, _, t⟩ => ⟨w, by simp [Line.closed], t⟩, fun lock _ => ?_⟩
  · cases h; rfl
  · obtain ⟨g', -, rfl⟩ := Option.map_eq_some_iff.1 h
    rfl
  · simpa [Line.owner, Line.closed] using h
  · simp [Line.stopsOk, Line.closed, LineState.live, LineState.evaluated]

/-- A line that holds no grant and carries nothing, in CLOSING or at rest, is in order whatever it was. -/
theorem Line.Lawful.unbound (hs : y.state.live = false) (hc : y.command = .closed)
    (ht : x.grantOk → ∀ w, y.travel = some w → w.target = .closed) (hg : y.grant = none) (hk : y.state ≠ .closing → y.stage = none)
    (hl : x.listsOk → y.listsOk) : Line.Lawful up es x y := by
  have evaluated : y.state.evaluated = false := by
    revert hs; cases y.state <;> simp [LineState.live, LineState.evaluated]
  have opening : y.state ≠ .opening := by intro h; rw [h] at hs; cases hs
  have injecting : y.state ≠ .injecting := by intro h; rw [h] at hs; cases hs
  refine ⟨fun ok => ⟨by simp [hc, hs], fun w h => by rw [hc, ht ok w h], by simp [hs], by simp [hg],
    fun _ h => ⟨hg, hk h⟩⟩, by simp [Line.owner, hg], hl, fun lock _ => ?_⟩
  exact ⟨fun h => absurd h injecting, fun _ => ⟨opening, by simp [evaluated]⟩, fun _ => ⟨opening, by simp [evaluated]⟩,
    fun _ => hs⟩

/-- A grant cut in CLOSING (R48). -/
theorem Line.Lawful.cut (hs : x.state = .closing) : Line.Lawful up es x { x with grant := none } := by
  refine ⟨?_, by simp [Line.owner], id, fun _ => id⟩
  rintro ⟨valve, travel, -, -, -⟩
  exact ⟨valve, travel, by simp [hs, LineState.live], by simp, by simp [hs]⟩

/-- A line that reaches IDLE carries nothing, as in CLOSING (R31). -/
theorem Line.Calm.toIdle (hs : x.state = .closing) : Line.Calm up es x x.toIdle := by
  refine ⟨⟨?_, by simp [Line.toIdle, Line.owner], fun ⟨w, r, _⟩ => ⟨w, r, by simp [Line.toIdle]⟩, fun lock _ => ?_⟩, ?_, ?_⟩
  · rintro ⟨valve, travel, -, -, -⟩
    refine ⟨?_, travel, by simp [Line.toIdle, LineState.live], by simp [Line.toIdle], by simp [Line.toIdle]⟩
    simpa [Line.toIdle, hs, LineState.live] using valve
  · simp [Line.stopsOk, Line.toIdle, LineState.live, LineState.evaluated]
  · simp [Line.carried, Line.toIdle, hs, LineState.live]
  · simp [Line.toIdle, hs, LineState.live]

/-- The readback taken: a travel that has arrived ends (R32, R33). -/
theorem Line.Calm.readValve (rb : Readback) (n : Nat) (x : Line) :
    Line.Calm up es x { x.readValve rb with invalid := n } := by
  refine ⟨⟨?_, fun _ => id, id, fun _ => id⟩, rfl, rfl⟩
  rintro ⟨valve, travel, rest⟩
  refine ⟨valve, fun w h => travel w ?_, rest⟩
  cases ht : x.travel with
  | none => simp [Line.readValve, ht] at h
  | some v =>
    simp only [Line.readValve, ht] at h
    split at h
    · cases h
    · exact h

/-- A line at rest that stays at rest (R44, R45). -/
theorem Line.Calm.atRest (hx : x.state.live = false) (hx' : x.state ≠ .closing) (hy : y.state.live = false)
    (hy' : y.state ≠ .closing) (hc : y.command = x.command ∨ y.command = .closed)
    (ht : y.travel = x.travel) (hg : y.grant = x.grant) (hk : y.stage = x.stage) (hl : x.listsOk → y.listsOk) :
    Line.Calm up es x y := by
  have evaluated : y.state.evaluated = false := by
    revert hy; cases y.state <;> simp [LineState.live, LineState.evaluated]
  have opening : y.state ≠ .opening := by intro h; rw [h] at hy; cases hy
  have injecting : y.state ≠ .injecting := by intro h; rw [h] at hy; cases hy
  refine ⟨⟨?_, ?_, hl, fun lock _ => ?_⟩, by simp [Line.carried, hx, hy], hy.trans hx.symm⟩
  · rintro ⟨valve, travel, -, -, none⟩
    have closed : x.command = .closed := by
      cases h : x.command with
      | closed => rfl
      | opened => rw [h, hx] at valve; simp at valve
    have closed' : y.command = .closed := hc.elim (fun h => h.trans closed) id
    exact ⟨by simp [closed', hy], fun w h => by rw [closed', ← closed]; exact travel w (ht ▸ h), by simp [hy],
      fun h => absurd h hy', fun _ _ => by rw [hg, hk]; exact none hx hx'⟩
  · intro p h; rwa [Line.owner, hg] at h
  · exact ⟨fun h => absurd h injecting, fun _ => ⟨opening, by simp [evaluated]⟩,
      fun _ => ⟨opening, by simp [evaluated]⟩, fun _ => hy⟩

end

end Sys2Proof.Machine
end

section
/-! PROOFS. The shared operations keep the invariants: alerts, faults, writes, stages and the moves of a line. -/

namespace Sys2Proof.Machine

/-! ### The state from one moment to the next -/

/-- What `State.tablesOk` asks of the stage table with its copy, of the alert queues and of the fault history. -/
def State.booksOk (s : State) : Prop :=
  tableOk s.store.stages s.record.completions ∧ s.store.copyOk ∧ (∀ p, (s.port p).queue.length ≤ 16) ∧
  s.record.faults.length ≤ 16 ∧ s.store.nv.faults.length ≤ 16

/-- The table holds the stage as ACTIVE. -/
def State.activeAt (s : State) (k : StageKey) : Prop := ∃ x, s.stage? k = some x ∧ x.status = .active

/-- Every line stays in order, and so do the books. -/
structure lawful (up es : Bool) (s t : State) : Prop where
  lines : ∀ l, Line.Lawful up es (s.line l) (t.line l)
  books : s.booksOk → t.booksOk

/-- Every line carries what it carried, besides, and the same stages of the table are ACTIVE. -/
structure calm (up es : Bool) (s t : State) : Prop where
  lines : ∀ l, Line.Calm up es (s.line l) (t.line l)
  books : s.booksOk → t.booksOk
  keys : t.store.stages.map Stage.key = s.store.stages.map Stage.key
  active : ∀ k, t.activeAt k ↔ s.activeAt k
  nv : t.store.nv = s.store.nv

section
variable {up es : Bool} {s t u : State}

theorem calm_refl (s : State) : calm up es s s := ⟨fun _ => .refl _, id, rfl, fun _ => .rfl, rfl⟩

theorem calm.trans (h : calm up es s t) (h' : calm up es t u) : calm up es s u :=
  ⟨fun l => (h.lines l).trans (h'.lines l), fun b => h'.books (h.books b), h'.keys.trans h.keys,
    fun k => (h'.active k).trans (h.active k), h'.nv.trans h.nv⟩

theorem calm.lawful (h : calm up es s t) : lawful up es s t := ⟨fun l => (h.lines l).toLawful, h.books⟩

theorem lawful.trans (h : lawful up es s t) (h' : Machine.lawful up es t u) : Machine.lawful up es s u :=
  ⟨fun l => (h.lines l).trans (h'.lines l), fun b => h'.books (h.books b)⟩

theorem foldl_calm {α : Type} (f : State → α → State) (xs : List α) (s : State)
    (h : ∀ s x, calm up es s (f s x)) : calm up es s (xs.foldl f s) := by
  induction xs generalizing s with
  | nil => exact calm_refl s
  | cons x xs ih => exact (h s x).trans (ih _)

theorem forLines_calm (f : LineId → State → State) (s : State) (h : ∀ l s, calm up es s (f l s)) :
    calm up es s (forLines f s) := foldl_calm _ _ _ (fun s l => h l s)

theorem foldl_lawful {α : Type} (f : State → α → State) (xs : List α) (s : State)
    (h : ∀ s x, lawful up es s (f s x)) : lawful up es s (xs.foldl f s) := by
  induction xs generalizing s with
  | nil => exact (calm_refl s).lawful
  | cons x xs ih => exact (h s x).trans (ih _)

theorem forLines_lawful (f : LineId → State → State) (s : State) (h : ∀ l s, lawful up es s (f l s)) :
    lawful up es s (forLines f s) := foldl_lawful _ _ _ (fun s l => h l s)

/-- A change done under a condition. -/
theorem ite_calm (b : Prop) [Decidable b] (h : b → calm up es s t) : calm up es s (if b then t else s) := by
  split
  · exact h ‹_›
  · exact calm_refl s

/-- One change or another, by a condition. -/
theorem calm.cases {b : Prop} [Decidable b] (ht : b → calm up es s t) (hu : ¬ b → calm up es s u) :
    calm up es s (if b then t else u) := by
  split
  · exact ht ‹_›
  · exact hu ‹_›

theorem lawful.cases {b : Prop} [Decidable b] (ht : b → Machine.lawful up es s t)
    (hu : ¬ b → Machine.lawful up es s u) : Machine.lawful up es s (if b then t else u) := by
  split
  · exact ht ‹_›
  · exact hu ‹_›

theorem ite_lawful (b : Prop) [Decidable b] (h : b → lawful up es s t) : lawful up es s (if b then t else s) := by
  split
  · exact h ‹_›
  · exact (calm_refl s).lawful

theorem activeAt_congr (h : t.store.stages = s.store.stages) (k : StageKey) : t.activeAt k ↔ s.activeAt k := by
  simp only [State.activeAt, State.stage?, h]

/-- The parts that the books rest on, but for the queues. -/
def bookParts : List Part := [.stages, .writes, .storeFault, .nvCopy, .completions, .faults]

theorem queue_of_keeps {A : List Part} (h : keeps A s t) (hA : .queues ∉ A) (p : Port) :
    (t.port p).queue = (s.port p).queue := by
  have part : (t.port p).queuePart = (s.port p).queuePart := h.2 .queues hA p
  have queue := congrArg PortRecord.queue part
  exact queue

/-- A change that leaves those parts alone, every line calm and no queue too long. -/
theorem calm_of_lines {A : List Part} (h : keeps A s t) (hl : ∀ l, Line.Calm up es (s.line l) (t.line l))
    (hq : (∀ p, (s.port p).queue.length ≤ 16) → ∀ p, (t.port p).queue.length ≤ 16)
    (hA : ∀ q ∈ bookParts, q ∉ A) : calm up es s t := by
  have store : t.store = s.store :=
    h.store (hA _ (by decide)) (hA _ (by decide)) (hA _ (by decide)) (hA _ (by decide))
  have completions : t.record.completions = s.record.completions := h.2 .completions (hA _ (by decide))
  obtain ⟨faults, -, -⟩ : _ ∧ _ := h.2 .faults (hA _ (by decide))
  refine ⟨hl, ?_, by rw [store], activeAt_congr (by rw [store]), by rw [store]⟩
  rintro ⟨table, copy, queues, history, copied⟩
  exact ⟨by rwa [store, completions], by rwa [store], hq queues, by rwa [faults], by rwa [store]⟩

/-- A change that leaves the lines alone too. -/
theorem calm_of_queues {A : List Part} (h : keeps A s t)
    (hq : (∀ p, (s.port p).queue.length ≤ 16) → ∀ p, (t.port p).queue.length ≤ 16)
    (hA : ∀ q ∈ [.lines, .lineSettings, .meters] ++ bookParts, q ∉ A) : calm up es s t := by
  refine calm_of_lines h (fun l => ?_) hq (fun q hq => hA q (List.mem_append_right _ hq))
  rw [h.line (hA _ (by decide)) (hA _ (by decide)) (hA _ (by decide)) l]
  exact .refl _

/-- A change that leaves the queues alone too. -/
theorem calm_of_keeps {A : List Part} (h : keeps A s t)
    (hA : ∀ q ∈ [.queues, .lines, .lineSettings, .meters] ++ bookParts, q ∉ A) : calm up es s t := by
  refine calm_of_queues h (fun queues p => ?_) (fun q hq => hA q (List.mem_cons_of_mem _ hq))
  rw [queue_of_keeps h (hA _ (by decide))]
  exact queues p

/-! ### Alerts (R155) -/

/-- The lowest level of a queue is 8 or that of an entry in it. -/
theorem lowestLevel_reached (q : List AlertEntry) : lowestLevel q = 8 ∨ ∃ e ∈ q, e.kind.level = lowestLevel q := by
  have least (q : List AlertEntry) (n : Nat) : (q.map (fun e => e.kind.level)).foldl min n = n ∨
      ∃ e ∈ q, e.kind.level = (q.map (fun e => e.kind.level)).foldl min n := by
    induction q generalizing n with
    | nil => exact .inl rfl
    | cons e q ih =>
      rcases ih (min n e.kind.level) with h | ⟨d, hd, h⟩
      · simp only [List.map_cons, List.foldl_cons, h]
        rcases Nat.le_total n e.kind.level with hn | hn
        · exact .inl (Nat.min_eq_left hn)
        · exact .inr ⟨e, by simp, (Nat.min_eq_right hn).symm⟩
      · exact .inr ⟨d, by simp [hd], h⟩
  exact least q 8

theorem level_le_seven (k : AlertKind) : k.level ≤ 7 := by cases k <;> decide

theorem length_offer (top time : Nat) (a : Posting) (x : PortRecord) (h : x.queue.length ≤ 16) :
    (x.offer top time a).1.queue.length ≤ 16 := by
  unfold PortRecord.offer
  split
  · exact h
  split
  · simpa using h
  split
  case isTrue room => simp; omega
  split
  case isTrue outranks =>
    obtain ⟨-, lower⟩ := outranks
    have found : ∃ e ∈ x.queue, e.kind.level = lowestLevel x.queue := by
      have := level_le_seven a.kind
      exact (lowestLevel_reached x.queue).resolve_left (by omega)
    simp only [PortRecord.countSlip, List.length_append, List.length_singleton, List.length_eraseP]
    have nonempty : 0 < x.queue.length := by
      obtain ⟨e, he, -⟩ := found
      exact List.length_pos_of_mem he
    rw [if_pos (by simpa [List.any_eq_true] using found)]
    omega
  · exact h

theorem queues_post (a : Posting) (route : List Port) (s : State) (h : ∀ p, (s.port p).queue.length ≤ 16) :
    ∀ p, ((post a route s).port p).queue.length ≤ 16 := by
  have offered (a : Posting) (q : Port) (s : State) (h : ∀ p, (s.port p).queue.length ≤ 16) (p : Port) :
      (((s.offerPort a q).1).port p).queue.length ≤ 16 := by
    simp only [State.offerPort, port_setPort]
    split
    · exact length_offer _ _ _ _ (h q)
    · exact h p
  have all (a : Posting) (ps : List Port) (acc : State × List Port) (h : ∀ p, (acc.1.port p).queue.length ≤ 16) :
      ∀ p, ((ps.foldl (fun acc p =>
        let r := acc.1.offerPort a p
        (r.1, if r.2 then acc.2 ++ [p] else acc.2)) acc).1.port p).queue.length ≤ 16 := by
    induction ps generalizing acc with
    | nil => exact h
    | cons q ps ih => exact ih _ (offered a q acc.1 h)
  unfold post
  generalize 7 = fuel
  induction fuel generalizing a route s with
  | zero => exact h
  | succ n ih =>
    have each (ps : List Port) (s : State) (h : ∀ p, (s.port p).queue.length ≤ 16) :
        ∀ p, ((ps.foldl (fun s p => postFuel n (saturatedPosting (portCounterDetail p .slip))
          (s.partRoute .counterSaturated) s) s).port p).queue.length ≤ 16 := by
      induction ps generalizing s with
      | nil => exact h
      | cons q ps ih' => exact ih' _ (ih _ _ s h)
    exact each _ _ (all a route (s, []) h)

theorem post_calm (a : Posting) (route : List Port) (s : State) : calm up es s (post a route s) :=
  calm_of_queues (post_keeps a route s) (queues_post a route s) (by decide)

theorem postPart_calm (k : AlertKind) (d : Option Int) (s : State) : calm up es s (postPart k d s) := post_calm _ _ _

theorem postLine_calm (l : LineId) (k : AlertKind) (d : Option Int) (s : State) : calm up es s (postLine l k d s) :=
  post_calm _ _ _

theorem postStage_calm (l : Option LineId) (k : StageKey) (a : AlertKind) (d : Int) (s : State) :
    calm up es s (postStage l k a d s) := post_calm _ _ _

theorem postSaturated_calm (b : Bool) (d : Int) (s : State) : calm up es s (postSaturated b d s) :=
  ite_calm _ (fun _ => post_calm _ _ _)

/-! ### Lines -/

theorem updLine_calm {l : LineId} {f : Line → Line} (h : Line.Calm up es (s.line l) (f (s.line l))) :
    calm up es s (s.updLine l f) := by
  refine ⟨fun m => ?_, id, rfl, fun _ => .rfl, rfl⟩
  rw [line_updLine]
  split
  · subst m; exact h
  · exact .refl _

theorem setLine_calm {l : LineId} {x : Line} (h : Line.Calm up es (s.line l) x) : calm up es s (s.setLine l x) :=
  updLine_calm (f := fun _ => x) h

theorem updLine_lawful {l : LineId} {f : Line → Line} (h : Line.Lawful up es (s.line l) (f (s.line l))) :
    lawful up es s (s.updLine l f) := by
  refine ⟨fun m => ?_, id⟩
  rw [line_updLine]
  split
  · subst m; exact h
  · exact ⟨id, fun _ => id, id, fun _ => id⟩

theorem addCause_calm (c : HoldCause) (l : LineId) (s : State) : calm up es s (addCause c l s) := by
  refine calm_of_lines (addCause_keeps c l s) (fun m => ?_) (fun h p => ?_) (by decide)
  · rw [line_addCause]
    split
    · subst m; exact .held c _
    · exact .refl _
  · rw [queue_of_keeps (addCause_keeps c l s) (by decide)]; exact h p

/-- A cause other than a standing stop's is taken off. -/
theorem removeCause_calm {c : HoldCause} (hu : c = .uplift → up = false) (he : c = .estop → es = false) (l : LineId)
    (s : State) : calm up es s (removeCause c l s) := by
  refine calm_of_lines (removeCause_keeps c l s) (fun m => ?_) (fun h => ?_) (by decide)
  · rw [line_removeCause]
    split
    · subst m; exact .freed hu he _
    · exact .refl _
  · unfold removeCause
    dsimp only
    repeat' split
    all_goals first | exact h | exact queues_post _ _ _ h

theorem formMixOrder_calm (s : State) : calm up es s (formMixOrder s) := by
  unfold formMixOrder
  dsimp only
  split
  · exact calm_refl s
  · exact (calm_of_keeps (setMixOrder_keeps _ s) (by decide)).trans (postPart_calm _ _ _)

theorem decideMixLag_calm (l : LineId) (s : State) : calm up es s (decideMixLag l s) := by
  have set : calm up es s (s.setLine l { s.line l with mixLag := (s.line l).lagging }) :=
    setLine_calm (.of_vitals rfl id)
  unfold decideMixLag
  dsimp only
  split
  · exact set.trans (postLine_calm _ _ _ _)
  · exact set

theorem enterArmed_calm {l : LineId} (h : (s.line l).state = .opening) : calm up es s (enterArmed l s) :=
  (updLine_calm (.armed h _ _)).trans (formMixOrder_calm _)

theorem closeLine_lawful (r : EndReason) (l : LineId) (s : State) : lawful up es s (closeLine r l s) :=
  (updLine_lawful (.closed r s.settings.travelTime (s.line l))).trans (formMixOrder_calm _).lawful

/-! ### Writes and faults (R23, R162) -/

/-- A write that is no matter of the stage table (R23). -/
def StoreWrite.apart : StoreWrite → Bool
  | .stage _ | .stageRemoved _ | .summary _ => false
  | .line _ _ | .part _ | .fault _ | .readers _ _ => true

theorem apply_apart {w : StoreWrite} (h : w.apart = true) (n : NvCopy) :
    (n.apply w).stages = n.stages ∧ (n.apply w).completions = n.completions := by
  cases w <;> first | exact ⟨rfl, rfl⟩ | cases h

/-- A write begun that keeps the keys of the copy, and its summaries together with its stages. -/
theorem writeThrough_calm {w : StoreWrite} (h : s.booksOk → s.store.fault = false →
      let n := s.store.copyAfter s.store.writes.length
      tableOk (n.apply w).stages (n.apply w).completions ∧ (n.apply w).stages.map Stage.key = n.stages.map Stage.key) :
    calm up es s (writeThrough w s) := by
  unfold writeThrough
  split
  case isTrue => exact calm_refl s
  case isFalse healthy =>
    refine ⟨fun _ => .refl _, ?_, rfl, fun _ => .rfl, rfl⟩
    intro books
    obtain ⟨ordered, keys⟩ := h books (by simpa using healthy)
    obtain ⟨table, copy, queues, history, copied⟩ := books
    exact ⟨table, Store.copyOk_begun copy w s.store.stages ordered (fun hf => keys.trans (copy.2 hf)), queues, history,
      copied⟩

theorem writeThrough_apart_calm {w : StoreWrite} (hw : w.apart = true) (s : State) :
    calm up es s (writeThrough w s) := by
  refine writeThrough_calm (fun ⟨_, copy, _⟩ _ => ?_)
  obtain ⟨stages, completions⟩ := apply_apart hw (s.store.copyAfter s.store.writes.length)
  dsimp only
  rw [stages, completions]
  exact ⟨copy.1 _, rfl⟩

theorem length_lastN_le {α : Type} (n : Nat) (xs : List α) : (lastN n xs).length ≤ n := by
  rw [lastN, List.length_drop]
  omega

/-- A change of the fault history that keeps its bound, and of nothing else. -/
theorem updFaults_calm {f : Records → Records} (hf : ∀ r, (f r).completions = r.completions)
    (hl : ∀ r, r.faults.length ≤ 16 → (f r).faults.length ≤ 16) (s : State) : calm up es s (s.updRecord f) := by
  refine ⟨fun _ => .refl _, ?_, rfl, fun _ => .rfl, rfl⟩
  rintro ⟨table, copy, queues, history, copied⟩
  exact ⟨by rw [record_updRecord, hf]; exact table, copy, queues, hl _ history, copied⟩

theorem enterFault_calm (code : FaultCode) (d : FaultDetail) (l : Option FaultLocation) (c : Consequence) (s : State) :
    calm up es s (enterFault code d l c s) :=
  (updFaults_calm (by intro; rfl) (by intro _ _; exact length_lastN_le 16 _) s).trans (writeThrough_apart_calm rfl _)

/-! ### Stages -/

theorem keyBefore_trans {a b c : StageKey} (h : keyBefore a b = true) (h' : keyBefore b c = true) :
    keyBefore a c = true := by
  simp only [keyBefore, Bool.or_eq_true, Bool.and_eq_true, decide_eq_true_eq, beq_iff_eq] at *
  omega

theorem keyBefore_irrefl (a : StageKey) : keyBefore a a = false := by
  simp [keyBefore]

theorem keyBefore_total {a b : StageKey} (h : a ≠ b) : keyBefore a b = true ∨ keyBefore b a = true := by
  have : a.hole ≠ b.hole ∨ a.stage ≠ b.stage := by
    by_contra e
    push Not at e
    exact h (by cases a; cases b; simp_all)
  simp only [keyBefore, Bool.or_eq_true, Bool.and_eq_true, decide_eq_true_eq, beq_iff_eq]
  omega

/-- A record put in the place of one with its key leaves the keys. -/
theorem map_key_insertStage_of_mem {x : Stage} {xs : List Stage} (ho : inKeyOrder xs)
    (h : x.key ∈ xs.map Stage.key) : (insertStage x xs).map Stage.key = xs.map Stage.key := by
  induction xs with
  | nil => simp at h
  | cons y ys ih =>
    obtain ⟨first, rest⟩ := List.pairwise_cons.1 ho
    unfold insertStage
    split
    case isTrue same => simp [same]
    case isFalse differs =>
      have later : x.key ∈ ys.map Stage.key := by
        rcases List.mem_cons.1 h with e | e
        · exact absurd e.symm differs
        · exact e
      obtain ⟨z, hz, key⟩ := List.mem_map.1 later
      have after : keyBefore y.key x.key = true := key ▸ first z hz
      have notBefore : keyBefore x.key y.key = false := by
        by_contra before
        have := keyBefore_trans after (by simpa using before)
        rw [keyBefore_irrefl] at this
        cases this
      rw [if_neg (by simp [notBefore])]
      simp [ih rest later]

theorem mem_keys_of_stage {k : StageKey} {x : Stage} (h : s.stage? k = some x) :
    k ∈ s.store.stages.map Stage.key :=
  List.mem_map.2 ⟨x, List.mem_of_find?_eq_some h, key_of_lookupStage h⟩

/-- The keys that stand in the copy once the writes begun have completed (R23). -/
theorem mem_copy_keys {k : StageKey} (books : s.booksOk) (healthy : s.store.fault = false)
    (h : k ∈ s.store.stages.map Stage.key) :
    k ∈ (s.store.copyAfter s.store.writes.length).stages.map Stage.key := by
  obtain ⟨-, copy, -⟩ := books
  rwa [copy.2 healthy]

theorem saveStage_calm (k : StageKey) (s : State) : calm up es s (saveStage k s) := by
  unfold saveStage
  split
  case h_2 => exact calm_refl s
  case h_1 x found =>
    refine writeThrough_calm (fun books healthy => ?_)
    have there := mem_copy_keys books healthy (mem_keys_of_stage found)
    obtain ⟨-, copy, -⟩ := books
    have ordered := copy.1 s.store.writes.length
    have key : x.key = k := key_of_lookupStage found
    have keys := map_key_insertStage_of_mem (x := x.stored) ordered.1 (show x.key ∈ _ by rwa [key])
    exact ⟨tableOk_congr keys.symm rfl ordered, keys⟩

/-- The keys of the table are kept, and with them the books. -/
theorem books_setStages {xs : List Stage} (h : xs.map Stage.key = s.store.stages.map Stage.key) (books : s.booksOk) :
    (s.setStages xs).booksOk := by
  obtain ⟨table, copy, queues, history, copied⟩ := books
  exact ⟨tableOk_congr h.symm rfl table, ⟨copy.1, fun hf => (copy.2 hf).trans h.symm⟩, queues, history, copied⟩

theorem updStage_lawful {k : StageKey} {f : Stage → Stage} (hf : ∀ x, (f x).key = x.key) (s : State) :
    lawful up es s (s.updStage k f) :=
  ⟨fun _ => (Line.Calm.refl _).toLawful, books_setStages (map_key_mapStage k f hf _)⟩

/-- A change of one stage's record that leaves it as ACTIVE as it was. -/
theorem updStage_calm {k : StageKey} {f : Stage → Stage} (hf : ∀ x, (f x).key = x.key)
    (ha : ∀ x, s.stage? k = some x → ((f x).status = .active ↔ x.status = .active)) : calm up es s (s.updStage k f) := by
  refine ⟨fun _ => .refl _, (updStage_lawful (up := up) (es := es) hf s).books, map_key_mapStage k f hf _, fun j => ?_, rfl⟩
  simp only [State.activeAt, stage_updStage s k j f hf]
  split
  case isFalse => rfl
  case isTrue same =>
    subst j
    cases found : s.stage? k with
    | none => simp
    | some x => simpa using ha x found

theorem returnToReady_lawful (k : StageKey) (s : State) : lawful up es s (returnToReady k s) := by
  unfold returnToReady
  split
  · exact ite_lawful _ (fun _ => (updStage_lawful (by intro; rfl) s).trans (saveStage_calm k _).lawful)
  · exact (calm_refl s).lawful

theorem suspendStage_lawful (l : Option LineId) (k : StageKey) (c : EndCause) (s : State) :
    lawful up es s (suspendStage l k c s) := by
  unfold suspendStage
  split
  · exact ite_lawful _ (fun _ => ((updStage_lawful (by intro; rfl) s).trans (saveStage_calm k _).lawful).trans
      (postStage_calm _ _ _ _ _).lawful)
  · exact (calm_refl s).lawful

theorem addProgress_calm (l : LineId) (f : Progress → Progress) (s : State) : calm up es s (addProgress l f s) := by
  have key (x : Stage) : (x.addProgress f).key = x.key := by unfold Stage.addProgress; split <;> rfl
  have status (x : Stage) : (x.addProgress f).status = x.status := by unfold Stage.addProgress; split <;> rfl
  unfold addProgress
  split
  · exact updStage_calm key (fun x _ => by rw [status])
  · exact calm_refl s

theorem addPending_calm (k : StageKey) (f : PendingDecision → PendingDecision) (s : State) :
    calm up es s (addPending k f s) :=
  updStage_calm (fun x => by split <;> rfl) (fun x _ => by split <;> rfl)

/-- A summary of a stage in the table joins the completion list, and its write is begun (R161). -/
theorem addSummary_calm {m : Summary} (hm : m.key ∈ s.store.stages.map Stage.key) : calm up es s (addSummary m s) := by
  have put (xs : List Stage) (ms : List Summary) (h : tableOk xs ms) (hk : m.key ∈ xs.map Stage.key) :
      tableOk xs (putSummary m ms) := by
    obtain ⟨order, bound, once, there⟩ := h
    refine ⟨order, bound, nodup_putSummary m once, fun n hn => ?_⟩
    rcases mem_putSummary.1 hn with ⟨old, -⟩ | rfl
    · exact there n old
    · exact hk
  have listed : calm up es s (s.updRecord (fun r => { r with completions := putSummary m r.completions })) := by
    refine ⟨fun _ => .refl _, ?_, rfl, fun _ => .rfl, rfl⟩
    rintro ⟨table, copy, queues, history, copied⟩
    exact ⟨put _ _ table hm, copy, queues, history, copied⟩
  refine listed.trans (writeThrough_calm (fun books healthy => ⟨?_, rfl⟩))
  have there := mem_copy_keys books healthy hm
  obtain ⟨-, copy, -⟩ := books
  exact put _ _ (copy.1 _) there

theorem examineBlocked_calm (k : StageKey) (s : State) : calm up es s (examineBlocked k s) := by
  unfold examineBlocked
  split
  case h_2 => exact calm_refl s
  case h_1 x found =>
    refine ite_calm _ (fun ⟨blocked, _⟩ => ?_)
    refine ((updStage_calm (by intro; rfl) (fun y hy => ?_)).trans (saveStage_calm k _)).trans (post_calm _ _ _)
    obtain rfl : x = y := Option.some.inj (found.symm.trans hy)
    simp [blocked]

theorem key_summaryOf (x : Stage) (c : EndCause) (n : Nat) (v : Option Computed) : (summaryOf x c n v).key = x.key := by
  unfold summaryOf
  dsimp only
  split <;> rfl

theorem finishStage_lawful (l : Option LineId) (k : StageKey) (st : StageStatus) (c : EndCause) (v : Option Computed)
    (s : State) : lawful up es s (finishStage l k st c v s) := by
  unfold finishStage
  split
  case h_2 => exact (calm_refl s).lawful
  case h_1 x found =>
    have saved (f : Stage → Stage) (hf : ∀ x, (f x).key = x.key) :
        (summaryOf x c s.clock.site v).key ∈ (saveStage k (s.updStage k f)).store.stages.map Stage.key := by
      have keys : (saveStage k (s.updStage k f)).store.stages.map Stage.key = s.store.stages.map Stage.key :=
        (saveStage_calm (up := up) (es := es) k _).keys.trans (map_key_mapStage k f hf _)
      rw [keys, key_summaryOf, show x.key = k from key_of_lookupStage found]
      exact mem_keys_of_stage found
    refine (((updStage_lawful ?_ s).trans (saveStage_calm k _).lawful).trans
      (addSummary_calm (saved _ ?_)).lawful).trans (postStage_calm _ _ _ _ _).lawful
    all_goals exact fun _ => rfl

theorem completeStage_lawful (l : Option LineId) (k : StageKey) (c : EndCause) (v : Option Computed) (s : State) :
    lawful up es s (completeStage l k c v s) :=
  (finishStage_lawful l k .complete c v s).trans (foldl_calm _ _ _ (fun s k => examineBlocked_calm k s)).lawful

theorem withBound_lawful {l : LineId} {f : StageKey → State → State} (h : ∀ k s, lawful up es s (f k s)) (s : State) :
    lawful up es s (withBound l f s) := by
  unfold withBound
  split
  · exact h _ _
  · exact (calm_refl s).lawful

theorem settleStartCheck_calm (s : State) : calm up es s (settleStartCheck s) :=
  calm_of_keeps (settleStartCheck_keeps s) (by decide)

end

end Sys2Proof.Machine
end

section
/-! PROOFS. The units keep the invariants: grout supply, stops and faults, envelope, hazards and measurement. -/

namespace Sys2Proof.Machine

section
variable {up es : Bool} {s t : State}

/-! ### Grout supply (07) -/

theorem setEffective_calm (l : LineId) (c : Nat) (s : State) : calm up es s (setEffective l c s) := by
  unfold setEffective
  split
  · split
    · exact calm_refl s
    · exact ((updLine_calm (.of_vitals rfl id)).trans (addProgress_calm _ _ _)).trans (decideMixLag_calm _ _)
  · exact calm_refl s

/-- Of a line's lists, a change of its effective class leaves each. -/
theorem lists_setEffective (l m : LineId) (c : Nat) (s : State) :
    ((setEffective l c s).line m).window = (s.line m).window ∧ ((setEffective l c s).line m).ring = (s.line m).ring ∧
    ((setEffective l c s).line m).transit = (s.line m).transit := by
  have lag (s : State) : ((decideMixLag l s).line m).window = (s.line m).window ∧
      ((decideMixLag l s).line m).ring = (s.line m).ring ∧ ((decideMixLag l s).line m).transit = (s.line m).transit := by
    unfold decideMixLag
    dsimp only
    split <;> simp only [line_postLine, line_setLine] <;> split <;> simp_all
  have progress (f : Progress → Progress) (s : State) : (addProgress l f s).line m = s.line m :=
    (addProgress_keeps l f s).line (by decide) (by decide) (by decide) m
  unfold setEffective
  split
  · split
    · exact ⟨rfl, rfl, rfl⟩
    · obtain ⟨w, r, t⟩ := lag (addProgress l (Progress.raiseClass c) (s.updLine l _))
      rw [w, r, t, progress, line_updLine]
      split
      · subst m; exact ⟨rfl, rfl, rfl⟩
      · exact ⟨rfl, rfl, rfl⟩
  · exact ⟨rfl, rfl, rfl⟩

theorem updLine_calm_after {l : LineId} {f : Line → Line} (h : calm up es s t)
    (hv : (f (t.line l)).vitals = (t.line l).vitals) (hl : (s.line l).listsOk → (f (t.line l)).listsOk) :
    calm up es s (t.updLine l f) := by
  refine ⟨fun m => ?_, h.books, h.keys, h.active, h.nv⟩
  rw [line_updLine]
  split
  · subst m; exact (h.lines l).then_vitals hv hl
  · exact h.lines m

theorem appendTransit_calm (c : Nat) (l : LineId) (s : State) : calm up es s (appendTransit c l s) := by
  unfold appendTransit
  dsimp only
  split
  case h_1 first rest queue =>
    split
    case isTrue room =>
      refine updLine_calm (.of_vitals rfl (fun ⟨w, r, t⟩ => ⟨w, r, ?_⟩))
      simp only [List.length_append, queue, List.length_cons, List.length_nil]
      omega
    case isFalse full =>
      have taken : calm up es s (s.updLine l (fun x => { x with transit := rest })) := by
        refine updLine_calm (.of_vitals rfl (fun ⟨w, r, t⟩ => ⟨w, r, ?_⟩))
        rw [queue, List.length_cons] at t
        exact Nat.le_of_succ_le t
      refine updLine_calm_after (taken.trans (setEffective_calm _ _ _)) rfl (fun ⟨w, r, t⟩ => ?_)
      obtain ⟨w', r', t'⟩ := lists_setEffective l l first.cls (s.updLine l (fun x => { x with transit := rest }))
      rw [line_updLine_self] at w' r' t'
      rw [queue, List.length_cons] at t
      refine ⟨by simpa only [w'] using w, by simpa only [r'] using r, ?_⟩
      simpa only [t', List.length_append, List.length_singleton] using t
  case h_2 queue =>
    exact updLine_calm (.of_vitals rfl (fun ⟨w, r, _⟩ => ⟨w, r, by simp⟩))

theorem tankClassFrom_calm (c : Nat) (s : State) : calm up es s (tankClassFrom c s) := by
  unfold tankClassFrom
  split
  · exact calm_refl s
  · exact forLines_calm _ _ (fun l s => ite_calm _ (fun _ => appendTransit_calm _ l s))

theorem advanceTransit_calm (w : Nat) (l : LineId) (s : State) : calm up es s (advanceTransit w l s) := by
  unfold advanceTransit
  split
  · exact calm_refl s
  case h_2 first rest queue =>
    split
    · refine updLine_calm (.of_vitals rfl (fun ⟨w, r, t⟩ => ⟨w, r, ?_⟩))
      rw [queue] at t
      exact t
    · refine (updLine_calm (.of_vitals rfl (fun ⟨w, r, t⟩ => ⟨w, r, ?_⟩))).trans (setEffective_calm _ _ _)
      rw [queue, List.length_cons] at t
      dsimp only
      split
      · exact Nat.zero_le _
      · simp only [List.length_cons] at t ⊢
        omega

theorem decideAged_calm (s : State) : calm up es s (decideAged s) := by
  have set (b : Bool) : calm up es s (s.updGrout (fun g => { g with aged := b })) :=
      calm_of_keeps (setAged_keeps b s) (by decide)
  unfold decideAged
  split
  · exact ((set true).trans (postPart_calm _ _ _)).trans (forLines_calm _ _ (fun l s => addCause_calm .aged l s))
  split
  · exact (set false).trans (forLines_calm _ _ (fun l s => removeCause_calm (by simp) (by simp) l s))
  · exact calm_refl s

theorem drawUnaccounted_calm (l : LineId) (w : Nat) (s : State) : calm up es s (drawUnaccounted l w s) := by
  unfold drawUnaccounted
  split
  · exact calm_refl s
  · have counted := calm_of_keeps (up := up) (es := es) (setAccount_keeps
        (min volumeTop (s.grout.unaccounted + w)) true s) (by decide)
    dsimp only
    split
    · exact counted
    · exact counted.trans (postPart_calm _ _ _)

theorem consume_calm (l : LineId) (w : Nat) (s : State) : calm up es s (consume l w s) := by
  have drawn : calm up es s (s.updGrout (fun g => { g with batches := (drawBatches w s.grout.batches).1 })) :=
    calm_of_keeps (setBatches_keeps _ s (by intro; rfl)) (by decide)
  have done := (drawn.trans (drawUnaccounted_calm l (drawBatches w s.grout.batches).2 _)).trans
    (tankClassFrom_calm s.grout.tankClass _)
  unfold consume
  dsimp only
  split
  · exact done.trans (decideAged_calm _)
  · exact done

/-! ### Grants cut, LOCKDOWN and valve faults (08) -/

/-- A change that leaves the books alone, every line lawful. -/
theorem lawful_of_lines {A : List Part} (h : keeps A s t) (hl : ∀ l, Line.Lawful up es (s.line l) (t.line l))
    (hA : ∀ q ∈ .queues :: bookParts, q ∉ A) : lawful up es s t := by
  have store : t.store = s.store :=
    h.store (hA _ (by decide)) (hA _ (by decide)) (hA _ (by decide)) (hA _ (by decide))
  have completions : t.record.completions = s.record.completions := h.2 .completions (hA _ (by decide))
  obtain ⟨faults, -, -⟩ : _ ∧ _ := h.2 .faults (hA _ (by decide))
  refine ⟨hl, ?_⟩
  rintro ⟨table, copy, queues, history, copied⟩
  exact ⟨by rwa [store, completions], by rwa [store],
    fun p => by rw [queue_of_keeps h (hA _ (by decide))]; exact queues p, by rwa [faults], by rwa [store]⟩

/-- A line's grant cut (R64). -/
theorem line_cutGrant (r : EndReason) (l m : LineId) (s : State) :
    (cutGrant r l s).line m = if m = l then { s.line l with grant := none } else s.line m := by
  unfold cutGrant
  split
  case h_1 => simp only [line_updPort, line_updLine]
  case h_2 none =>
    split
    · subst m
      cases hx : s.line l
      simp_all
    · rfl

/-- A grant cut, and what becomes of its line. -/
theorem cutGrant_lawful (r : EndReason) {l : LineId} {f : Line → Line} (hs : ∀ x, (f x).settingsPart = x.settingsPart)
    (hm : ∀ x, (f x).meterPart = x.meterPart)
    (h : Line.Lawful up es (s.line l) (f { s.line l with grant := none })) :
    lawful up es s ((cutGrant r l s).updLine l f) := by
  refine lawful_of_lines (A := [.lines, .cuts]) ?_ (fun m => ?_) (by decide)
  · exact (updLine_keeps l f _ hs hm).after (by decide) (cutGrant_keeps r l s)
  · rw [line_updLine, line_cutGrant, line_cutGrant, if_pos rfl]
    split
    · subst m; exact h
    · exact (Line.Calm.refl _).toLawful

theorem lockLine_lawful (l : LineId) (s : State) : lawful up es s (lockLine l s) := by
  have closing : lawful up es s ((cutGrant .lockdown l s).updLine l (Line.toClosing s.settings.travelTime)) := by
    refine cutGrant_lawful _ (by intro; rfl) (by intro; rfl) (.unbound rfl rfl ?_ rfl (fun h => absurd rfl h) ?_)
    · intro _ w h
      obtain rfl := Option.some.inj h
      rfl
    · rintro ⟨w, -, t⟩
      exact ⟨w, Nat.zero_le _, t⟩
  unfold lockLine
  split
  case h_5 state =>
    refine lawful_of_lines (cutGrant_keeps _ _ _) (fun m => ?_) (by decide)
    rw [line_cutGrant]
    split
    · subst m; exact .cut state
    · exact (Line.Calm.refl _).toLawful
  case h_1 | h_2 | h_3 | h_4 =>
    exact closing.trans (withBound_lawful (fun k s => suspendStage_lawful (some l) k .lockdown s) _)
  all_goals exact (calm_refl s).lawful

theorem enterLockdown_lawful (code : FaultCode) (l : LineId) (s : State) : lawful up es s (enterLockdown code l s) := by
  unfold enterLockdown
  dsimp only
  refine lawful.trans ?_ (formMixOrder_calm _).lawful
  refine lawful.trans ?_ (forLines_lawful _ _ lockLine_lawful)
  refine calm.lawful (calm.trans (calm.trans (calm.trans ?_ (post_calm _ _ _)) (enterFault_calm _ _ _ _ _))
    (calm_of_keeps (setExercise_keeps 0 _) (by decide)))
  exact calm_of_keeps (setLockdown_keeps true s) (by decide)

theorem isolateFor_lawful (f : ValveFault) (n : Nat) (x : Line) :
    Line.Lawful up es x (({ x with grant := none } : Line).isolateFor f n) := by
  by_cases hc : x.command = .closed
  · refine .unbound (by simp [Line.isolateFor, hc, LineState.live]) (by simp [Line.isolateFor, hc]) ?_
      (by simp [Line.isolateFor, hc]) (by simp [Line.isolateFor, hc]) ?_
    · rintro ⟨-, travel, -⟩ w h
      rw [travel w (by simpa [Line.isolateFor, hc] using h), hc]
    · rintro ⟨w, -, -⟩
      simpa [Line.isolateFor, hc, Line.listsOk] using w
  · refine .unbound (by simp [Line.isolateFor, hc, LineState.live]) (by simp [Line.isolateFor, hc, Line.drive]) ?_
      (by simp [Line.isolateFor, hc, Line.drive]) (by simp [Line.isolateFor, hc]) ?_
    · intro _ w h
      simp only [Line.isolateFor, hc, Line.drive, if_false, Option.some.injEq] at h
      rw [← h]
    · rintro ⟨w, -, -⟩
      simpa [Line.isolateFor, hc, Line.drive, Line.listsOk] using w

theorem faultStage_lawful (l : LineId) (st : LineState) (k : Option StageKey) (s : State) :
    lawful up es s (faultStage l st k s) := by
  unfold faultStage
  split
  · exact (calm_refl s).lawful
  · split
    · exact returnToReady_lawful _ _
    all_goals first | exact suspendStage_lawful _ _ _ _ | exact (calm_refl s).lawful

/-- A valve fault up to its entry in the fault history: what comes of it but for LOCKDOWN (R37). -/
def faultLine (f : ValveFault) (rb : Readback) (l : LineId) (s : State) : State :=
  let x := s.line l
  let cut := cutGrant .valveFault l s
  let isolated := formMixOrder (cut.updLine l (Line.isolateFor f cut.settings.travelTime))
  let posted := post { kind := .valveFault, line := some l, key := x.stage, detail := some (f.faultCode.code : Int),
                       exercise := false } (x.owner.toList ++ consolePorts) (faultStage l x.state x.stage isolated)
  enterFault f.faultCode (.readback rb) (some (.line l))
    (if s.triggersLockdown f rb x then .lockdown else x.state.faultClass) posted

theorem valveFault_eq (f : ValveFault) (rb : Readback) (l : LineId) (s : State) :
    valveFault f rb l s = if s.triggersLockdown f rb (s.line l) then enterLockdown f.faultCode l (faultLine f rb l s)
      else faultLine f rb l s := rfl

theorem faultLine_keeps (f : ValveFault) (rb : Readback) (l : LineId) (s : State) :
    keeps [.lines, .cuts, .mixOrder, .queues, .stages, .writes, .faults] s (faultLine f rb l s) := by
  refine (enterFault_keeps _ _ _ _ _).after (by decide) ?_
  refine (post_keeps _ _ _).after (by decide) ?_
  refine (faultStage_keeps _ _ _ _).after (by decide) ?_
  refine (formMixOrder_keeps _).after (by decide) ?_
  refine (updLine_keeps l _ _ (isolateFor_settings f _) (isolateFor_meters f _)).after (by decide) ?_
  exact (cutGrant_keeps _ _ _).mono (by decide)

theorem faultLine_lawful (f : ValveFault) (rb : Readback) (l : LineId) (s : State) :
    lawful up es s (faultLine f rb l s) := by
  have isolated : lawful up es s ((cutGrant .valveFault l s).updLine l
      (Line.isolateFor f (cutGrant .valveFault l s).settings.travelTime)) :=
    cutGrant_lawful _ (isolateFor_settings f _) (isolateFor_meters f _) (isolateFor_lawful f _ _)
  exact (((isolated.trans (formMixOrder_calm _).lawful).trans (faultStage_lawful _ _ _ _)).trans
    (post_calm _ _ _).lawful).trans (enterFault_calm _ _ _ _ _).lawful

theorem valveFault_lawful (f : ValveFault) (rb : Readback) (l : LineId) (s : State) :
    lawful up es s (valveFault f rb l s) := by
  rw [valveFault_eq]
  exact .cases (fun _ => (faultLine_lawful f rb l s).trans (enterLockdown_lawful _ _ _)) (fun _ => faultLine_lawful f rb l s)

/-! ### The two stops and UPLIFT_WARN (08) -/

theorem closeOpening_lawful (r : EndReason) (l : LineId) (s : State) : lawful up es s (closeOpening r l s) :=
  ite_lawful _ (fun _ => (closeLine_lawful r l s).trans (withBound_lawful returnToReady_lawful _))

theorem stopLines_lawful (c : HoldCause) (r : EndReason) (s : State) : lawful up es s (stopLines c r s) :=
  (forLines_calm _ _ (fun l s => addCause_calm c l s)).lawful.trans (forLines_lawful _ _ (closeOpening_lawful r))

theorem latchUpliftStop_lawful (g : GaugeId) (s : State) : lawful up es s (latchUpliftStop g s) := by
  unfold latchUpliftStop
  dsimp only
  refine lawful.trans (calm.lawful ?_) (stopLines_lawful _ _ _)
  refine calm.trans (calm.trans (calm.trans ?_ (calm_of_keeps (setExercise_keeps 0 _) (by decide)))
      (postPart_calm _ _ _))
    (enterFault_calm _ _ _ _ _)
  exact calm_of_keeps (setUpliftStop_keeps true s) (by decide)

theorem beginEstop_lawful (s : State) : lawful up es s (beginEstop s) := by
  unfold beginEstop
  dsimp only
  refine lawful.trans (calm.lawful ?_) (stopLines_lawful _ _ _)
  refine calm.trans (calm.trans (calm.trans ?_ (calm_of_keeps (setExercise_keeps 0 _) (by decide)))
      (postPart_calm _ _ _))
    (enterFault_calm _ _ _ _ _)
  exact calm_of_keeps (setEstop_keeps true s) (by decide)

theorem finishEstop_calm (s : State) : calm up false s (finishEstop s) :=
  (calm_of_keeps (setEstop_keeps false s) (by decide)).trans
    (forLines_calm _ _ (fun l s => removeCause_calm (by simp) (fun _ => rfl) l s))

theorem formWarn_calm (s : State) : calm up es s (formWarn s) := by
  unfold formWarn
  dsimp only
  split
  · exact (calm_of_keeps (setWarn_keeps _ _ s) (by decide)).trans (postPart_calm _ _ _)
  · exact calm_of_keeps (setWarn_keeps _ _ s) (by decide)

/-! ### Evaluation, stage ends and hazards (05, 06) -/

theorem recordEvaluation_calm (l : LineId) (c : Computed) (s : State) : calm up es s (recordEvaluation l c s) := by
  unfold recordEvaluation
  dsimp only
  have taken : calm up es s (s.updLine l (fun x =>
      { x with values := some c, ring := if c.stale then [] else pushRing (c.pe, c.q) x.ring })) := by
    refine updLine_calm (.of_vitals rfl (fun ⟨w, _, t⟩ => ⟨w, ?_, t⟩))
    dsimp only
    split
    · exact Nat.zero_le _
    · exact length_lastN_le 5 _
  exact .cases (fun _ => taken) (fun _ => taken.trans (addProgress_calm _ _ _))

theorem reformCeilings_calm (l : LineId) (s : State) : calm up es s (reformCeilings l s) := by
  unfold reformCeilings
  split
  · exact updLine_calm (.of_vitals rfl id)
  · exact calm_refl s

theorem updDecision_calm (l : LineId) (f : DecisionRecord → DecisionRecord) (s : State) :
    calm up es s (updDecision l f s) := updLine_calm (.of_vitals rfl id)

theorem endStage_lawful (l : LineId) (k : StageKey) (c : EndCause) (r : EndReason) (s : State) :
    lawful up es s (endStage l k c r s) := (completeStage_lawful _ _ _ _ s).trans (closeLine_lawful _ _ _)

theorem overpressureStep_calm (l : LineId) (c : Computed) (s : State) : calm up es s (overpressureStep l c s) := by
  unfold overpressureStep
  dsimp only
  split
  · exact calm_refl s
  refine .cases (fun _ => .cases (fun _ => ?_) (fun _ => updDecision_calm _ _ _))
    (fun _ => .cases (fun _ => ?_) (fun _ => updDecision_calm _ _ _))
  · exact (updDecision_calm _ _ _).trans (removeCause_calm (c := .overpressure) (by simp) (by simp) _ _)
  · exact (((updDecision_calm _ _ _).trans (addCause_calm _ _ _)).trans (addProgress_calm _ _ _)).trans
      (postLine_calm _ _ _ _)

theorem fractureStep_calm (l : LineId) (x : Stage) (c : Computed) (s : State) : calm up es s (fractureStep l x c s) := by
  unfold fractureStep
  split
  · exact ite_calm _ (fun _ => ((addCause_calm _ _ _).trans (addPending_calm _ _ _)).trans (postLine_calm _ _ _ _))
  · exact calm_refl s

theorem stageEndUnit_lawful (l : LineId) (st : LineState) (x : Stage) (c : Computed) (s : State) :
    lawful up es s (stageEndUnit l st x c s) := by
  unfold stageEndUnit
  split
  · exact (updDecision_calm _ _ _).lawful
  split
  · dsimp only
    split
    · exact (updDecision_calm _ _ _).lawful.trans (endStage_lawful _ _ _ _ _)
    · exact (((updDecision_calm _ _ _).trans (overpressureStep_calm _ _ _)).trans (fractureStep_calm _ _ _ _)).lawful
  · exact (overpressureStep_calm _ _ _).lawful
  all_goals exact (calm_refl s).lawful

theorem thickenLine_calm (l : LineId) (x : Stage) (pe : Nat) (s : State) : calm up es s (thickenLine l x pe s) := by
  unfold thickenLine
  split
  · dsimp only
    split
    · exact ((updLine_calm (.of_vitals rfl id)).trans (formMixOrder_calm _)).trans (decideMixLag_calm _ _)
    · exact updLine_calm (.of_vitals rfl id)
  · exact calm_refl s

theorem dropPendingVolume_calm (l : LineId) (s : State) : calm up es s (dropPendingVolume l s) :=
  updLine_calm (.of_vitals rfl id)

theorem evaluate_lawful (l : LineId) (s : State) : lawful up es s (evaluate l s) := by
  unfold evaluate
  split
  · exact (calm_refl s).lawful
  · dsimp only
    have judged := fun x c => (recordEvaluation_calm (up := up) (es := es) l c s).lawful.trans
      (stageEndUnit_lawful l (s.line l).state x c _)
    split
    · exact (judged _ _).trans (dropPendingVolume_calm _ _).lawful
    split
    · exact (judged _ _).trans (thickenLine_calm _ _ _ _).lawful
    · exact judged _ _

theorem connectCandidate_calm (n : Nat) (c : LineId × Stage) (s : State) : calm up es s (connectCandidate n c s) := by
  unfold connectCandidate
  dsimp only
  split
  · exact (((addProgress_calm _ _ _).trans (addCause_calm _ _ _)).trans (addPending_calm _ _ _)).trans
      (postLine_calm _ _ _ _)
  · exact (addProgress_calm _ _ _).trans (postLine_calm _ _ _ _)

theorem connectionEvent_calm (l : LineId) (w : Watch) (b : Nat) (r : Int) (s : State) :
    calm up es s (connectionEvent l w b r s) :=
  (foldl_calm _ _ _ (fun s c => connectCandidate_calm w.hole c s)).trans
      (calm_of_keeps (setConnections_keeps _ _) (by decide))

theorem watchEvaluation_calm (l : LineId) (r : Bool) (s : State) : calm up es s (watchEvaluation l r s) := by
  have set (w : Watch) : calm up es s (s.setLine l { s.line l with watch := some w }) :=
    setLine_calm (.of_vitals rfl id)
  unfold watchEvaluation
  dsimp only
  split
  · exact calm_refl s
  split
  · exact set _
  split
  · exact set _
  · exact .cases (fun _ => (set _).trans (connectionEvent_calm _ _ _ _ _)) (fun _ => set _)

/-! ### Measurement (04) -/

theorem lineChannelEffects_calm (k : LineChannel) (n : Nat) (r : Sampled) (l : LineId) (s : State) :
    calm up es s (lineChannelEffects k n r l s) := by
  have saturated := ite_calm (up := up) (es := es) (s := s) (r.saturated = true)
    (fun _ => postLine_calm l .counterSaturated (some ((k.number l : Nat) : Int)) s)
  have lost (t : State) (c : Consequence) := ite_calm (up := up) (es := es) (s := t) (r.loss = true)
    (fun _ => ((postLine_calm l .sensorLost (some ((k.number l : Nat) : Int)) t).trans
      (enterFault_calm k.code (.value n) (some (.line l)) c _)).trans (addCause_calm .sensor l _))
  have freed := saturated.trans (lost _ (if ((if r.saturated = true then
    postLine l .counterSaturated (some ((k.number l : Nat) : Int)) s else s).line l).state.evaluated = true
      then .hold else .record))
  exact .cases (fun _ => freed.trans (removeCause_calm (c := .sensor) (by simp) (by simp) _ _)) (fun _ => freed)

theorem confirmValve_calm (l : LineId) (s : State) : calm up es s (confirmValve l s) := by
  unfold confirmValve
  dsimp only
  split
  case h_1 state => exact ite_calm _ (fun _ => enterArmed_calm state)
  case h_2 state => exact ite_calm _ (fun _ => updLine_calm (.toIdle state))
  all_goals exact calm_refl s

theorem valveCompare_lawful (l : LineId) (rb : Readback) (s : State) : lawful up es s (valveCompare l rb s) := by
  have read (n : Nat) : calm up es s (s.setLine l { (s.line l).readValve rb with invalid := n }) :=
    setLine_calm (.readValve rb n _)
  unfold valveCompare
  dsimp only
  split
  · exact (read _).lawful
  split
  · exact (read 0).lawful.trans (valveFault_lawful _ _ _ _)
  · exact (read _).lawful.trans (valveFault_lawful _ _ _ _)
  · exact ((read _).trans (confirmValve_calm _ _)).lawful

theorem sampleLine_calm (top n i : Nat) (m : Bool) (x : Line) : Line.Calm up es x (sampleLine top n i m x).1 := by
  refine .of_vitals rfl (fun ⟨_, r, t⟩ => ⟨length_lastN_le 16 _, ?_, t⟩)
  have ring (b : Bool) : (if b then [] else x.ring).length ≤ 5 := by
    split
    · exact Nat.zero_le _
    · exact r
  exact ring _

theorem lineSample_lawful (l : LineId) (i : Nat) (m a b : Bool) (s : State) : lawful up es s (lineSample l i m a b s) := by
  unfold lineSample
  dsimp only
  refine lawful.trans ?_ (settleStartCheck_calm _).lawful
  have sampled := ((setLine_calm (s := s) (l := l) (sampleLine_calm (up := up) (es := es) s.counterTop s.settings.lossCount i m
    (s.line l))).trans (lineChannelEffects_calm .pressure i (sampleLine s.counterTop s.settings.lossCount i m
      (s.line l)).2.1 l _)).trans (lineChannelEffects_calm .flow 0 (sampleLine s.counterTop s.settings.lossCount i m
      (s.line l)).2.2 l _)
  have compared := sampled.lawful.trans (valveCompare_lawful l (readbackOf a b) _)
  split
  case h_4 => exact compared.trans (watchEvaluation_calm _ _ _).lawful
  case h_1 | h_2 | h_3 =>
    split
    · exact compared
    · exact compared.trans (evaluate_lawful _ _)
  all_goals exact compared

theorem partChannelEffects_calm (n : Nat) (c : FaultCode) (loc : Option FaultLocation) (q : Consequence) (i : Nat)
    (r : Sampled) (s : State) : calm up es s (partChannelEffects n c loc q i r s) := by
  have saturated := ite_calm (up := up) (es := es) (s := s) (r.saturated = true)
    (fun _ => postPart_calm .counterSaturated (some (n : Int)) s)
  unfold partChannelEffects
  dsimp only
  split
  · exact (saturated.trans (postPart_calm _ _ _)).trans (enterFault_calm _ _ _ _ _)
  · exact saturated

theorem updGauge_calm (g : GaugeId) (f : Gauge → Gauge) (s : State) : calm up es s (s.updGauge g f) :=
  calm_of_keeps (updGauge_keeps g f s) (by decide)

theorem judgeGauge_lawful (g : GaugeId) (s : State) : lawful up es s (judgeGauge g s) := by
  unfold judgeGauge
  dsimp only
  split
  · refine lawful.trans ?_ (updGauge_calm _ _ _).lawful
    split
    · exact (calm_of_keeps (setGauge_keeps _ _ s) (by decide)).lawful.trans (latchUpliftStop_lawful _ _)
    · exact (calm_of_keeps (setGauge_keeps _ _ s) (by decide)).lawful
  · exact (calm_of_keeps (setGauge_keeps _ _ s) (by decide)).lawful

theorem gaugeSample_lawful (g : GaugeId) (i : Nat) (s : State) : lawful up es s (gaugeSample g i s) := by
  unfold gaugeSample
  dsimp only
  refine lawful.trans ?_ (formWarn_calm _).lawful
  exact ((updGauge_calm _ _ s).trans (partChannelEffects_calm _ _ _ _ _ _ _)).lawful.trans (judgeGauge_lawful _ _)

theorem levelSample_calm (i : Nat) (s : State) : calm up es s (levelSample i s) :=
  (calm_of_keeps (setLevel_keeps _ s) (by decide)).trans (partChannelEffects_calm _ _ _ _ _ _ _)

end

end Sys2Proof.Machine
end

section
/-! PROOFS. The requests that keep every line's carrying and the ACTIVE stages: the relation `calm`. -/

namespace Sys2Proof.Machine

section
variable {up es : Bool} {s t u : State}

/-! ### Taking and answering a request -/

theorem updPort_calm {p : Port} {f : PortRecord → PortRecord}
    (h : (s.port p).queue.length ≤ 16 → (f (s.port p)).queue.length ≤ 16) : calm up es s (s.updPort p f) := by
  refine ⟨fun _ => .refl _, ?_, rfl, fun _ => .rfl, rfl⟩
  rintro ⟨table, copy, queues, history, copied⟩
  refine ⟨table, copy, fun q => ?_, history, copied⟩
  rw [port_updPort]
  split
  · exact h (queues p)
  · exact queues q

theorem heard_calm (p : Port) (s : State) : calm up es s (heard p s) := by
  have restarted (x : Line) : Line.vitals { x with grant := x.grant.map (fun g =>
      if g.phase = .live then { g with keepalive := g.keepalive.map Timer.restart } else g) } = x.vitals := by
    simp only [Line.vitals, Option.map_map]
    congr 6
    funext g
    simp only [Function.comp_apply]
    split <;> rfl
  have answering : calm up es s (s.updPort p (fun x => { x with receiver := .answering })) := updPort_calm id
  unfold heard restartKeepalive
  split
  · exact answering.trans (updLine_calm (.of_vitals (restarted _) id))
  · exact answering

theorem respond_calm (p : Port) (k t : Byte) (r : Reply) : calm up es r.state (respond p k t r) := updPort_calm id

theorem countOverrun_calm (p : Port) (s : State) : calm up es s (countOverrun p s) :=
  (updPort_calm id).trans (postSaturated_calm _ _ _)

/-- What becomes of a request (R168 to R170). -/
theorem request_cases {α : Type} {k : RequestKind} {p : Port} {tag : Byte} {b : Body α} {own : α → State → Reply}
    (run : request k p tag b own s = .next t) :
    t = s ∨ t = countOverrun p s ∨ ∃ r, t = respond p k.code tag r ∧
      ((∃ st, r = refuse st (heard p s)) ∨ ∃ a, b = .args a ∧ k.permits p = true ∧ r = own a (heard p s)) := by
  obtain rfl := Host.Outcome.next.inj run
  unfold receive
  cases hr : (s.port p).receiver with
  | discarding => exact .inl rfl
  | answering => exact .inr (.inl rfl)
  | awaitStart | receiving =>
    refine .inr (.inr ⟨_, rfl, ?_⟩)
    by_cases hk : k.permits p = true
    · cases b with
      | args a => exact .inr ⟨a, rfl, hk, if_pos hk⟩
      | wrongLength n => exact .inl ⟨_, if_pos hk⟩
    · exact .inl ⟨_, if_neg hk⟩

/-- A relation that taking and answering a request keeps, and its own effect keeps, holds of the request. -/
theorem request_induct {P : State → Prop} {α : Type} {k : RequestKind} {p : Port} {tag : Byte} {b : Body α}
    {own : α → State → Reply} (same : P s) (quiet : ∀ r, calm true true s r → P r)
    (own' : ∀ a, b = .args a → k.permits p = true → P (respond p k.code tag (own a (heard p s))))
    (run : request k p tag b own s = .next t) : P t := by
  rcases request_cases run with rfl | rfl | ⟨r, rfl, ⟨st, rfl⟩ | ⟨a, hb, hk, rfl⟩⟩
  · exact same
  · exact quiet _ (countOverrun_calm _ _)
  · exact quiet _ ((heard_calm p s).trans (respond_calm p _ _ (refuse st _)))
  · exact own' a hb hk

theorem request_calm {α : Type} {k : RequestKind} {p : Port} {tag : Byte} {b : Body α} {own : α → State → Reply}
    (h : ∀ a u, calm up es u (own a u).state) (run : request k p tag b own s = .next t) : calm up es s t := by
  rcases request_cases run with rfl | rfl | ⟨r, rfl, ⟨st, rfl⟩ | ⟨a, -, -, rfl⟩⟩
  · exact calm_refl _
  · exact countOverrun_calm _ _
  · exact (heard_calm p s).trans (respond_calm p _ _ (refuse st _))
  · exact ((heard_calm p s).trans (h a _)).trans (respond_calm p _ _ _)

theorem request_lawful {α : Type} {k : RequestKind} {p : Port} {tag : Byte} {b : Body α} {own : α → State → Reply}
    (h : ∀ a u, lawful up es u (own a u).state) (run : request k p tag b own s = .next t) : lawful up es s t := by
  rcases request_cases run with rfl | rfl | ⟨r, rfl, ⟨st, rfl⟩ | ⟨a, -, -, rfl⟩⟩
  · exact (calm_refl _).lawful
  · exact (countOverrun_calm _ _).lawful
  · exact ((heard_calm p s).trans (respond_calm p _ _ (refuse st _))).lawful
  · exact ((heard_calm p s).lawful.trans (h a _)).trans (respond_calm p _ _ _).lawful

/-- The checks that come before a request's own refuse it, or let it through. -/
theorem unlessLocked_calm {r : Reply} (h : calm up es s r.state) : calm up es s (unlessLocked s r).state := by
  unfold unlessLocked
  split
  · exact calm_refl s
  · exact h

theorem unlessLocked_lawful {r : Reply} (h : lawful up es s r.state) : lawful up es s (unlessLocked s r).state := by
  unfold unlessLocked
  split
  · exact (calm_refl s).lawful
  · exact h

theorem stageEditOf_calm {k : StageKey} {own : Stage → State → Reply}
    (h : ∀ x, s.stage? k = some x → calm up es s (own x s).state) : calm up es s (stageEditOf k own s).state := by
  refine unlessLocked_calm ?_
  split
  · exact calm_refl s
  · split
    · exact h _ ‹_›
    · exact calm_refl s

theorem stageEditOf_lawful {k : StageKey} {own : Stage → State → Reply}
    (h : ∀ x, s.stage? k = some x → lawful up es s (own x s).state) : lawful up es s (stageEditOf k own s).state := by
  refine unlessLocked_lawful ?_
  split
  · exact (calm_refl s).lawful
  · split
    · exact h _ ‹_›
    · exact (calm_refl s).lawful

theorem decideOf_calm {a : DecideArgs} {own : Stage → State → Reply}
    (h : ∀ x, s.stage? a.key = some x → calm up es s (own x s).state) : calm up es s (decideOf a own s).state := by
  refine unlessLocked_calm ?_
  split
  · exact calm_refl s
  · split
    · split
      · exact h _ ‹_›
      · exact calm_refl s
    · exact calm_refl s

theorem decideOf_lawful {a : DecideArgs} {own : Stage → State → Reply}
    (h : ∀ x, s.stage? a.key = some x → lawful up es s (own x s).state) : lawful up es s (decideOf a own s).state := by
  refine unlessLocked_lawful ?_
  split
  · exact (calm_refl s).lawful
  · split
    · split
      · exact h _ ‹_›
      · exact (calm_refl s).lawful
    · exact (calm_refl s).lawful

theorem lineRequest_calm {n : Nat} {own : LineId → State → Reply} (h : ∀ l, calm up es s (own l s).state) :
    calm up es s (lineRequest n own s).state := by
  refine unlessLocked_calm ?_
  split
  · exact h _
  · exact calm_refl s

/-- A request that needs a grant has the grant's line and its record. -/
theorem withGrant_calm {p : Port} {without : State → Reply} {own : LineId → Grant → State → Reply}
    (hw : calm up es s (without s).state) (ho : ∀ l g, (s.line l).grant = some g → calm up es s (own l g s).state) :
    calm up es s (withGrant p without own s).state := by
  refine unlessLocked_calm ?_
  split
  · split
    · exact ho _ _ ‹_›
    · exact hw
  · exact hw

theorem withGrant_lawful {p : Port} {without : State → Reply} {own : LineId → Grant → State → Reply}
    (hw : lawful up es s (without s).state) (ho : ∀ l g, (s.line l).grant = some g → lawful up es s (own l g s).state) :
    lawful up es s (withGrant p without own s).state := by
  refine unlessLocked_lawful ?_
  split
  · split
    · exact ho _ _ ‹_›
    · exact hw
  · exact hw

/-! ### Pump requests (03) -/

theorem withBound_calm {l : LineId} {f : StageKey → State → State} (h : ∀ k s, calm up es s (f k s)) (s : State) :
    calm up es s (withBound l f s) := by
  unfold withBound
  split
  · exact h _ _
  · exact calm_refl s

theorem startReply_calm (l : LineId) (g : Grant) (s : State) : calm up es s (startReply l g s).state := by
  have stage (t : State) (x : StageKey) (c n : Nat) : calm up es t (t.updStage x (Stage.started l c n)) :=
    updStage_calm (fun y => by unfold Stage.started; split <;> rfl)
      (fun y _ => by unfold Stage.started; split <;> exact Iff.rfl)
  have granted (x : Line) : Line.Calm up es x { x with grant := x.grant.map Grant.started } := by
    refine .of_vitals ?_ id
    simp only [Line.vitals, Option.map_map]
    rfl
  unfold startReply
  split
  case h_1 armed =>
    refine calm.trans (setLine_calm ((granted _).trans (.takeStart (.inl armed)))) ?_
    exact withBound_calm (fun k t => stage t k _ _) _
  case h_3 holding => exact updLine_calm (.takeStart (.inr holding))
  all_goals exact calm_refl s

theorem pauseReply_calm (l : LineId) (g : Grant) (s : State) : calm up es s (pauseReply l g s).state := by
  unfold pauseReply
  split
  case h_1 | h_2 | h_3 => exact addCause_calm _ _ _
  all_goals exact calm_refl s

theorem pumpReport_calm (a : PumpStatusArgs) (l : LineId) (g : Grant) (s : State) :
    calm up es s (pumpReport a l g s).state := by
  unfold pumpReport
  split
  all_goals dsimp only [accept, refuse]
  · refine updLine_calm (.of_vitals ?_ id)
    simp only [Line.vitals, Option.map_map]
    rfl
  · exact calm_refl s

theorem pumpStatusWithout_calm (p : Port) (a : PumpStatusArgs) (s : State) :
    calm up es s (pumpStatusWithout p a s).state := by
  unfold pumpStatusWithout
  split
  · split
    · dsimp only [accept]; exact updPort_calm id
    · exact calm_refl s
  · exact calm_refl s

/-! ### Readings (10) -/

theorem readAlertsReply_calm (p : Port) (s : State) : calm up es s (readAlertsReply p s).state := by
  refine updPort_calm (f := fun _ => { s.port p with queue := (s.port p).queue.drop 8, slipFlag := false }) (fun h => ?_)
  rw [List.length_drop]
  omega

/-! ### Stage edits (01) -/

theorem stageReleaseOwn_calm {k : StageKey} {x : Stage} (found : s.stage? k = some x) :
    calm up es s (stageReleaseOwn x s).state := by
  obtain rfl : x.key = k := key_of_lookupStage found
  unfold stageReleaseOwn
  split
  case isTrue => exact calm_refl s
  case isFalse draft =>
    push Not at draft
    split
    · refine (updStage_calm (by intro; rfl) (fun y hy => ?_)).trans (saveStage_calm _ _)
      obtain rfl : x = y := Option.some.inj (found.symm.trans hy)
      unfold State.releasedStatus
      split <;> simp [draft]
    · exact calm_refl s

theorem stageWithdrawOwn_calm {k : StageKey} {x : Stage} (found : s.stage? k = some x) :
    calm up es s (stageWithdrawOwn x s).state := by
  obtain rfl : x.key = k := key_of_lookupStage found
  have withdrawn (h : x.status ≠ .active) : calm up es s (formMixOrder (saveStage x.key
      (s.updStage x.key (fun x => { x with status := .draft, waiting := false })))) := by
    refine ((updStage_calm (by intro; rfl) (fun y hy => ?_)).trans (saveStage_calm _ _)).trans (formMixOrder_calm _)
    obtain rfl : x = y := Option.some.inj (found.symm.trans hy)
    simp [h]
  unfold stageWithdrawOwn
  split
  case h_1 status | h_2 status => exact withdrawn (by rw [status]; decide)
  all_goals exact calm_refl s

theorem decideResumeOwn_calm {k : StageKey} {x : Stage} (found : s.stage? k = some x) :
    calm up es s (decideResumeOwn x s).state := by
  obtain rfl : x.key = k := key_of_lookupStage found
  unfold decideResumeOwn
  split
  case isTrue suspended =>
    refine ((updStage_calm (by intro; rfl) (fun y hy => ?_)).trans (saveStage_calm _ _)).trans (formMixOrder_calm _)
    obtain rfl : x = y := Option.some.inj (found.symm.trans hy)
    simp [suspended]
  case isFalse => exact calm_refl s

theorem removeDecided_calm (d : PendingDecision) (l : LineId) (s : State) : calm up es s (removeDecided d l s) :=
  (ite_calm _ (fun _ => removeCause_calm (c := .fracture) (by simp) (by simp) l _)).trans
    (ite_calm _ (fun _ => removeCause_calm (c := .connection) (by simp) (by simp) l _))

theorem lowerPMax_calm (k : StageKey) (n : Option Nat) (s : State) : calm up es s (lowerPMax k n s) := by
  unfold lowerPMax
  split
  case h_2 => exact calm_refl s
  case h_1 v =>
    have lowered : calm up es s (s.updStage k (fun x => { x with fields := { x.fields with pMax := v } })) :=
      updStage_calm (by intro; rfl) (by intro _ _; exact Iff.rfl)
    dsimp only
    split
    · exact lowered.trans (reformCeilings_calm _ _)
    · exact lowered

theorem continueStage_calm (x : Stage) (n : Option Nat) (s : State) : calm up es s (continueStage x n s) := by
  have decided (t : State) : calm up es t (t.updStage x.key (fun x => { x with decision := noDecision })) :=
    updStage_calm (by intro; rfl) (by intro _ _; exact Iff.rfl)
  unfold continueStage
  dsimp only
  refine calm.trans ?_ (saveStage_calm _ _)
  refine calm.trans ?_ (decided _)
  split
  · exact (lowerPMax_calm _ _ _).trans (removeDecided_calm _ _ _)
  · exact lowerPMax_calm _ _ _

theorem decideContinueOwn_calm (a : DecideArgs) (x : Stage) (s : State) :
    calm up es s (decideContinueOwn a x s).state := by
  unfold decideContinueOwn
  split
  · split
    · exact continueStage_calm _ _ _
    · exact calm_refl s
  · exact calm_refl s

/-! ### Line requests (02) -/

theorem configure_calm (c : LineSettings) {x : Line} (h : x.state = .idle ∨ x.state = .isolated) :
    Line.Calm up es x (x.configure c) := by
  have rest : x.state.live = false ∧ x.state ≠ .closing := by rcases h with h | h <;> rw [h] <;> exact ⟨rfl, by decide⟩
  obtain ⟨live, closing⟩ := rest
  by_cases present : c.present = true
  · by_cases before : x.settings.present = true
    · refine .atRest live closing ?_ ?_ (.inl ?_) ?_ ?_ ?_ ?_ <;>
        simp [Line.configure, present, before, live, closing, Line.listsOk]
    · refine .atRest live closing ?_ ?_ (.inl ?_) ?_ ?_ ?_ ?_ <;>
        simp [Line.configure, Line.returned, present, before, live, closing, Line.listsOk]
  · refine .atRest live closing ?_ ?_ (.inl ?_) ?_ ?_ ?_ ?_ <;>
      simp [Line.configure, Line.withdrawn, present, LineState.live, Line.listsOk]

theorem lineConfigReply_calm (a : LineConfigArgs) (s : State) : calm up es s (lineConfigReply a s).state := by
  refine unlessLocked_calm ?_
  split
  · exact calm_refl s
  · split
    case h_1 state => exact (updLine_calm (configure_calm _ (.inl state))).trans (writeThrough_apart_calm rfl _)
    case h_2 state => exact (updLine_calm (configure_calm _ (.inr state))).trans (writeThrough_apart_calm rfl _)
    all_goals exact calm_refl s

theorem lineWatchReply_calm (a : LineWatchArgs) (s : State) : calm up es s (lineWatchReply a s).state := by
  refine unlessLocked_calm ?_
  split
  · exact calm_refl s
  · split
    case isTrue idle =>
      dsimp only [accept]
      exact updLine_calm (.atRest (by rw [idle]; rfl) (by rw [idle]; decide) rfl (by simp) (.inl rfl) rfl rfl rfl id)
    case isFalse => exact calm_refl s

theorem lineUnwatchOwn_calm (l : LineId) (s : State) : calm up es s (lineUnwatchOwn l s).state := by
  unfold lineUnwatchOwn
  split
  case isTrue watch =>
    dsimp only [accept]
    exact updLine_calm (.atRest (by rw [watch]; rfl) (by rw [watch]; decide) rfl (by simp) (.inl rfl) rfl rfl rfl id)
  case isFalse => exact calm_refl s

theorem lineIsolateOwn_calm (l : LineId) (s : State) : calm up es s (lineIsolateOwn l s).state := by
  unfold lineIsolateOwn
  split
  case h_1 state | h_2 state =>
    dsimp only [accept]
    exact updLine_calm (.atRest (by rw [state]; rfl) (by rw [state]; decide) rfl (by simp) (.inl rfl) rfl rfl rfl id)
  all_goals exact calm_refl s

theorem lineReturnOwn_calm (l : LineId) (s : State) : calm up es s (lineReturnOwn l s).state := by
  unfold lineReturnOwn
  dsimp only
  split
  case isTrue h =>
    obtain ⟨state, -⟩ := h
    dsimp only [accept]
    exact setLine_calm (.atRest (by rw [state]; rfl) (by rw [state]; decide) rfl (by simp) (.inr rfl) rfl rfl rfl id)
  case isFalse => exact calm_refl s

theorem holdAllReply_calm (s : State) : calm up es s (holdAllReply s).state := by
  refine unlessLocked_calm ?_
  split
  · exact calm_refl s
  · dsimp only [accept]
    exact (calm_of_keeps (setHoldAll_keeps true s) (by decide)).trans
        (forLines_calm _ _ (fun l s => addCause_calm _ l s))

theorem releaseAllReply_calm (s : State) : calm up es s (releaseAllReply s).state := by
  refine unlessLocked_calm ?_
  split
  · dsimp only [accept]
    exact (calm_of_keeps (setHoldAll_keeps false s) (by decide)).trans
      (forLines_calm _ _ (fun l s => removeCause_calm (c := .console) (by simp) (by simp) l s))
  · exact calm_refl s

/-! ### Grout and uplift requests (07, 08) -/

theorem batchAlerts_calm (c n : Nat) (s : State) : calm up es s (batchAlerts c n s) := by
  have off : calm up es s (if s.grout.mixOrder ≠ 0 ∧ c ≠ s.grout.mixOrder then postPart .offOrder (some (n : Int)) s
      else s) := ite_calm _ (fun _ => postPart_calm _ _ _)
  unfold batchAlerts
  exact off.trans (ite_calm _ (fun _ => postPart_calm _ _ _))

theorem takeBatch_calm (a : BatchArgs) (s : State) : calm up es s (takeBatch a s) := by
  unfold takeBatch
  dsimp only
  have taken (b : Batch) (t : State) := (calm_of_keeps (up := up) (es := es) (addBatch_keeps b t) (by decide)).trans
    (tankClassFrom_calm s.grout.tankClass _)
  refine (batchAlerts_calm a.cls s.grout.nextBatch s).trans (.cases (fun _ => ?_) (fun _ => ?_))
  · exact (taken _ _).trans (decideAged_calm _)
  · exact taken _ _

theorem batchReportReply_calm (a : BatchArgs) (s : State) : calm up es s (batchReportReply a s).state := by
  refine unlessLocked_calm ?_
  split
  · exact calm_refl s
  · split
    · exact calm_refl s
    · exact takeBatch_calm a s

theorem tankDumpReply_calm (s : State) : calm up es s (tankDumpReply s).state := by
  refine unlessLocked_calm ?_
  dsimp only [accept]
  have emptied : calm up es s (s.updGrout (fun g => { g with batches := [] })) :=
    calm_of_keeps (setBatches_keeps _ s (by intro; rfl)) (by decide)
  exact emptied.trans (decideAged_calm _)

theorem upliftZeroReply_calm (s : State) : calm up es s (upliftZeroReply s).state := by
  refine unlessLocked_calm ?_
  split
  · exact calm_refl s
  · dsimp only [accept]
    exact (calm_of_keeps (zeroGauges_keeps s) (by decide)).trans (formWarn_calm _)

theorem upliftClearReply_calm (s : State) : calm false es s (upliftClearReply s).state := by
  refine unlessLocked_calm ?_
  split
  · exact calm_refl s
  · split
    · dsimp only [accept]
      exact (calm_of_keeps (setUpliftStop_keeps false s) (by decide)).trans
        (forLines_calm _ _ (fun l s => removeCause_calm (c := .uplift) (fun _ => rfl) (by simp) l s))
    · exact calm_refl s

/-! ### Part requests (08, 09) -/

theorem updReaders_calm {f : Records → Records} (s : State)
    (h : ∀ r, (f r).completions = r.completions ∧ (f r).faults = r.faults) : calm up es s (s.updRecord f) := by
  refine ⟨fun _ => .refl _, ?_, rfl, fun _ => .rfl, rfl⟩
  rintro ⟨table, copy, queues, history, copied⟩
  exact ⟨by rw [record_updRecord, (h _).1]; exact table, copy, queues, by rw [record_updRecord, (h _).2]; exact history,
    copied⟩

/-- The progress of every stage changed, and nothing else of it. -/
theorem mapProgress_calm (f : Progress → Progress) (s : State) :
    calm up es s (s.setStages (s.store.stages.map (fun x => { x with progress := x.progress.map f }))) := by
  have keys : (s.store.stages.map (fun x => { x with progress := x.progress.map f })).map Stage.key =
      s.store.stages.map Stage.key := by
    rw [List.map_map]
    rfl
  refine ⟨fun _ => .refl _, books_setStages keys, keys, fun k => ?_, rfl⟩
  have found : (s.setStages (s.store.stages.map (fun x => { x with progress := x.progress.map f }))).stage? k =
      (s.stage? k).map (fun x => { x with progress := x.progress.map f }) := by
    rw [stage_setStages]
    unfold State.stage? lookupStage
    rw [List.find?_map]
    rfl
  simp only [State.activeAt, found, Option.map_eq_some_iff]
  constructor
  · rintro ⟨x, ⟨y, hy, rfl⟩, h⟩
    exact ⟨y, hy, h⟩
  · rintro ⟨y, hy, h⟩
    exact ⟨_, ⟨y, hy, rfl⟩, h⟩

theorem narrowCounters_calm (s : State) : calm up es s (narrowCounters s) := by
  unfold narrowCounters
  dsimp only
  refine calm.trans ?_ (mapProgress_calm _ _)
  refine calm.trans ?_ (updReaders_calm _ (fun _ => ⟨rfl, rfl⟩))
  refine calm.trans ?_ (calm_of_keeps (setLevel_keeps _ _) (by decide))
  refine calm.trans ?_ (foldl_calm _ _ _ (fun s p => updPort_calm id))
  refine calm.trans ?_ (foldl_calm _ _ _ (fun s g => updGauge_calm g _ s))
  exact forLines_calm _ _ (fun l s => updLine_calm (.of_vitals rfl id))

theorem turnWideOff_calm (s : State) : calm up es s (turnWideOff s) := by
  have line (k : LineChannel) (c : Channel) (l : LineId) (s : State) : calm up es s (postLineSaturated k c l s) :=
    ite_calm _ (fun _ => postLine_calm _ _ _ _)
  unfold turnWideOff
  dsimp only
  refine calm.trans ?_ (foldl_calm _ _ _ (fun s d => postSaturated_calm true d s))
  exact (narrowCounters_calm s).trans (forLines_calm _ _ (fun l s => (line _ _ l s).trans (line _ _ l _)))

theorem changeGauges_calm (b : Vector Bool 4) (s : State) : calm up es s (changeGauges b s) := by
  have changed : calm up es s (gaugeIds.foldl (changeGauge b) s) := by
    refine foldl_calm _ _ _ (fun s g => ?_)
    unfold changeGauge
    split
    · exact updGauge_calm _ _ _
    · exact updGauge_calm _ _ _
    all_goals exact calm_refl s
  exact .cases (fun _ => changed) (fun _ => changed.trans (formWarn_calm _))

theorem partConfigReply_calm (a : PartConfigArgs) (s : State) : calm up es s (partConfigReply a s).state := by
  refine unlessLocked_calm ?_
  split
  case h_1 => exact calm_refl s
  case h_2 c _ =>
    split
    · exact calm_refl s
    · refine calm.trans ?_ (changeGauges_calm _ _)
      refine calm.trans ?_ (ite_calm _ (fun _ => turnWideOff_calm _))
      exact (calm_of_keeps (setSettings_keeps c s) (by decide)).trans (writeThrough_apart_calm rfl _)

theorem readerEnableReply_calm (a : ReaderArgs) (s : State) : calm up es s (readerEnableReply a s).state := by
  refine unlessLocked_calm ?_
  split
  · refine calm.trans (updReaders_calm _ (fun r => ?_)) (writeThrough_apart_calm rfl _)
    exact ⟨(switchReader_rest _ _ r).1, (switchReader_rest _ _ r).2.1⟩
  · exact calm_refl s

theorem clearChannel_calm (n : Nat) (s : State) : calm up es s (clearChannel n s) := by
  unfold clearChannel
  split
  · exact updLine_calm (.of_vitals rfl id)
  split
  · exact updLine_calm (.of_vitals rfl id)
  split
  · exact updGauge_calm _ _ _
  · exact calm_of_keeps (setLevel_keeps _ _) (by decide)

theorem clearCountersReply_calm (n : Nat) (s : State) : calm up es s (clearCountersReply n s).state := by
  have all : calm up es s (clearAllCounters s) := by
    unfold clearAllCounters
    dsimp only
    refine calm.trans ?_ (calm_of_keeps (setUnaccounted_keeps 0 _) (by decide))
    refine calm.trans ?_ (updReaders_calm _ (fun _ => ⟨rfl, rfl⟩))
    refine calm.trans ?_ (foldl_calm _ _ _ (fun s p => updPort_calm id))
    exact foldl_calm _ _ _ (fun s n => clearChannel_calm n s)
  refine unlessLocked_calm ?_
  split
  · exact all
  split
  · exact clearChannel_calm n s
  · exact calm_refl s

theorem clearLatchesReply_calm (n : Nat) (s : State) : calm up es s (clearLatchesReply n s).state := by
  have set (f : Records → Records) (hc : ∀ r, (f r).completions = r.completions) (hf : ∀ r, (f r).faults = r.faults) :
      calm up es s (s.updRecord f) := updReaders_calm s (fun r => ⟨hc r, hf r⟩)
  refine unlessLocked_calm ?_
  split
  · dsimp only [accept]; exact set _ (by intro; rfl) (by intro; rfl)
  split
  · dsimp only [accept]; exact set _ (by intro; rfl) (by intro; rfl)
  · exact calm_refl s

theorem exerciseStepReply_calm (s : State) : calm up es s (exerciseStepReply s).state := by
  have advanced : calm up es s (advanceExercise s) := by
    unfold advanceExercise
    dsimp only
    split
    · exact (calm_of_keeps (setExercise_keeps _ s) (by decide)).trans (post_calm _ _ _)
    · exact calm_of_keeps (setExercise_keeps _ s) (by decide)
  refine unlessLocked_calm ?_
  split
  · exact calm_refl s
  · exact advanced

end

end Sys2Proof.Machine
end

section
/-! PROOFS. Every other command keeps the lines and the books in order: the relation `lawful`, and the grants (R49). -/

namespace Sys2Proof.Machine

section
variable {up es : Bool} {s t u : State}

/-! ### The stage table (R1) -/

theorem mem_insertStage {x y : Stage} {xs : List Stage} (h : y ∈ insertStage x xs) : y = x ∨ y ∈ xs := by
  induction xs with
  | nil => simpa [insertStage] using h
  | cons z zs ih =>
    unfold insertStage at h
    split at h
    · simp only [List.mem_cons] at h ⊢
      tauto
    · split at h
      · simp only [List.mem_cons] at h ⊢
        tauto
      · rcases List.mem_cons.1 h with rfl | h
        · exact .inr (by simp)
        · rcases ih h with h | h
          · exact .inl h
          · exact .inr (by simp [h])

theorem inKeyOrder_insertStage (x : Stage) {xs : List Stage} (h : inKeyOrder xs) : inKeyOrder (insertStage x xs) := by
  induction xs with
  | nil => simp [insertStage, inKeyOrder]
  | cons y ys ih =>
    obtain ⟨first, rest⟩ := List.pairwise_cons.1 h
    unfold insertStage
    split
    case isTrue same => exact List.pairwise_cons.2 ⟨fun z hz => same ▸ first z hz, rest⟩
    case isFalse differs =>
      split
      case isTrue before =>
        refine List.pairwise_cons.2 ⟨fun z hz => ?_, h⟩
        rcases List.mem_cons.1 hz with rfl | hz
        · exact before
        · exact keyBefore_trans before (first z hz)
      case isFalse notBefore =>
        refine List.pairwise_cons.2 ⟨fun z hz => ?_, ih rest⟩
        rcases mem_insertStage hz with rfl | hz
        · exact (keyBefore_total differs).resolve_right notBefore
        · exact first z hz

theorem inKeyOrder_removeStage (k : StageKey) {xs : List Stage} (h : inKeyOrder xs) : inKeyOrder (removeStage k xs) :=
  List.Pairwise.filter _ h

theorem mem_keys_insertStage (x : Stage) (k : StageKey) (xs : List Stage) :
    k ∈ (insertStage x xs).map Stage.key ↔ k = x.key ∨ k ∈ xs.map Stage.key := by
  induction xs with
  | nil => simp [insertStage]
  | cons y ys ih =>
    unfold insertStage
    split
    case isTrue same => simp [same]
    · split
      · simp
      · simp only [List.map_cons, List.mem_cons, ih]
        tauto

theorem length_insertStage_le (x : Stage) (xs : List Stage) : (insertStage x xs).length ≤ xs.length + 1 := by
  induction xs with
  | nil => simp [insertStage]
  | cons y ys ih =>
    unfold insertStage
    split
    · simp
    · split
      · simp
      · simpa using ih

/-- A record put into the table, for which there is room. -/
theorem tableOk_insertStage {x : Stage} {xs : List Stage} {ms : List Summary} (h : tableOk xs ms)
    (room : (insertStage x xs).length ≤ 64) : tableOk (insertStage x xs) ms := by
  obtain ⟨order, -, once, there⟩ := h
  exact ⟨inKeyOrder_insertStage x order, room, once, fun m hm => (mem_keys_insertStage x _ xs).2 (.inr (there m hm))⟩

/-- A record removed with its summary. -/
theorem tableOk_removeStage (k : StageKey) {xs : List Stage} {ms : List Summary} (h : tableOk xs ms) :
    tableOk (removeStage k xs) (dropSummary k ms) := by
  obtain ⟨order, bound, once, there⟩ := h
  refine ⟨inKeyOrder_removeStage k order, (List.length_filter_le _ _).trans bound, nodup_dropSummary k once,
    fun m hm => ?_⟩
  obtain ⟨old, ne⟩ := mem_dropSummary.1 hm
  rw [map_key_removeStage]
  exact List.mem_filter.2 ⟨there m old, by simpa using ne⟩

/-- The table changed, with its write begun. -/
theorem books_written {w : StoreWrite} {xs : List Stage} (books : s.booksOk)
    (store : t.store = { s.store with stages := xs }) (ports : ∀ p, (t.port p).queue = (s.port p).queue)
    (faults : t.record.faults = s.record.faults) (table : tableOk xs t.record.completions)
    (copied : let n := s.store.copyAfter s.store.writes.length
      n.stages.map Stage.key = s.store.stages.map Stage.key →
      tableOk (n.apply w).stages (n.apply w).completions ∧ (n.apply w).stages.map Stage.key = xs.map Stage.key) :
    (writeThrough w t).booksOk := by
  obtain ⟨-, copy, queues, history, saved⟩ := books
  have fault : t.store.fault = s.store.fault := by rw [store]
  unfold writeThrough
  split
  case isTrue faulted =>
    rw [fault] at faulted
    refine ⟨by rwa [store], ?_, fun p => by rw [ports]; exact queues p, by rwa [faults], by rwa [store]⟩
    rw [store]
    exact ⟨copy.1, fun h => absurd (h.symm.trans faulted) (by simp)⟩
  case isFalse healthy =>
    rw [fault, Bool.not_eq_true] at healthy
    obtain ⟨ok, keys⟩ := copied (copy.2 healthy)
    refine ⟨by rw [store]; exact table, ?_, fun p => (ports p ▸ queues p), by rwa [faults], by rw [store]; exact saved⟩
    rw [store]
    exact Store.copyOk_begun copy w xs ok (fun _ => keys)

/-! ### Stage edits (R4, R5, R8, R17, R18) -/

theorem stage_storeStage (x : Stage) (k : StageKey) (s : State) :
    (storeStage x s).stage? k = if k = x.key then some x else s.stage? k := by
  rw [storeStage, stage_saveStage, stage_setStages, lookupStage_insertStage]
  rfl

/-- A record put into the table, for which there is room. -/
theorem storeStage_lawful {x : Stage} (room : (insertStage x s.store.stages).length ≤ 64) :
    lawful up es s (storeStage x s) := by
  have found : (s.setStages (insertStage x s.store.stages)).stage? x.key = some x := by
    rw [stage_setStages, lookupStage_insertStage, if_pos rfl]
  refine ⟨fun l => ?_, fun books => ?_⟩
  · rw [(storeStage_keeps x s).line (by decide) (by decide) (by decide)]
    exact (Line.Calm.refl _).toLawful
  · unfold storeStage saveStage
    rw [found]
    refine books_written books rfl (fun _ => rfl) rfl (tableOk_insertStage books.1 room) (fun keys => ?_)
    have put : (insertStage x.stored (s.store.copyAfter s.store.writes.length).stages).map Stage.key =
        (insertStage x s.store.stages).map Stage.key := map_key_insertStage rfl keys
    refine ⟨tableOk_insertStage (books.2.1.1 _) ?_, put⟩
    have length := congrArg List.length put
    simp only [List.length_map] at length
    rwa [length]

theorem stageWriteReply_lawful (a : StageWriteArgs) (s : State) : lawful up es s (stageWriteReply a s).state := by
  refine unlessLocked_lawful ?_
  split
  · exact (calm_refl s).lawful
  split
  · exact (calm_refl s).lawful
  case h_2 f _ =>
    split
    case h_1 x found =>
      split
      case isFalse => exact (calm_refl s).lawful
      case isTrue =>
        have key : (x.rewrite f (a.clear == 1)).key = f.key := by unfold Stage.rewrite; split <;> rfl
        have there : f.key ∈ s.store.stages.map Stage.key := mem_keys_of_stage found
        refine ⟨?_, fun books => ?_⟩
        · intro l
          exact (storeStage_keeps _ s).line (by decide) (by decide) (by decide) l ▸ (Line.Calm.refl _).toLawful
        · refine (storeStage_lawful (up := true) (es := true) ?_).books books
          have keys := congrArg List.length (map_key_insertStage_of_mem books.1.1 (key ▸ there))
          simp only [List.length_map] at keys
          rw [keys]
          exact books.1.2.1
    case h_2 =>
      split
      · exact (calm_refl s).lawful
      · refine storeStage_lawful ((length_insertStage_le _ _).trans ?_)
        omega

theorem deleteStage_lawful (k : StageKey) (s : State) : lawful up es s (deleteStage k s) := by
  refine lawful.trans ⟨fun l => ?_, fun books => ?_⟩ (formMixOrder_calm _).lawful
  · have kept : keeps [.stages, .completions, .writes] s
        (writeThrough (.stageRemoved k) (removeSummary k (s.setStages (removeStage k s.store.stages)))) :=
      (writeThrough_keeps _ _).after (by decide) ((removeSummary_keeps k _).after (by decide)
        ((setStages_keeps _ s).mono (by decide)))
    rw [kept.line (by decide) (by decide) (by decide)]
    exact (Line.Calm.refl _).toLawful
  · refine books_written books rfl (fun _ => rfl) rfl (tableOk_removeStage k books.1) (fun keys => ?_)
    refine ⟨tableOk_removeStage k (books.2.1.1 _), ?_⟩
    rw [map_key_removeStage, ← keys, ← map_key_removeStage]
    rfl

theorem stageDeleteOwn_lawful (x : Stage) (s : State) : lawful up es s (stageDeleteOwn x s).state := by
  unfold stageDeleteOwn
  split
  case h_1 | h_2 | h_3 =>
    split
    · exact (calm_refl s).lawful
    · exact deleteStage_lawful _ _
  all_goals exact (calm_refl s).lawful

theorem endByConsole_lawful (x : Stage) (st : StageStatus) (c : EndCause) (r : EndReason) (s : State) :
    lawful up es s (endByConsole x st c r s) := by
  have finish (l : Option LineId) (v : Option Computed) (s : State) :
      lawful up es s (if st = .complete then completeStage l x.key c v s else finishStage l x.key st c v s) :=
    .cases (fun _ => completeStage_lawful _ _ _ _ _) (fun _ => finishStage_lawful _ _ _ _ _ _)
  unfold endByConsole
  dsimp only
  split
  · exact (finish _ _ _).trans (closeLine_lawful _ _ _)
  · exact (finish _ _ _).trans (formMixOrder_calm _).lawful

/-! ### RELEASE and RESET (R61, R150) -/

theorem releaseLive_lawful (l : LineId) (g : Grant) (s : State) : lawful up es s (releaseLive l g s) :=
  (closeLine_lawful _ _ _).trans (withBound_lawful
    (fun k s => by split <;> first | exact suspendStage_lawful _ _ _ _ | exact returnToReady_lawful _ _) _)

theorem releaseReply_lawful (l : LineId) (g : Grant) (s : State) : lawful up es s (releaseReply l g s).state := by
  unfold releaseReply
  split
  · exact releaseLive_lawful l g s
  · split <;> exact (calm_refl s).lawful

theorem resetLine_lawful (l : LineId) (s : State) : lawful up es s (resetLine l s) := by
  have checked (n : Nat) : lawful up es s ((cutGrant .reset l s).updLine l (Line.toStartCheck n)) := by
    refine cutGrant_lawful _ (by intro; rfl) (by intro; rfl) (.unbound rfl rfl ?_ rfl (fun h => absurd rfl h) ?_)
    · intro _ w h
      obtain rfl := Option.some.inj h
      rfl
    · rintro ⟨w, -, -⟩
      exact ⟨w, Nat.zero_le _, Nat.zero_le _⟩
  unfold resetLine
  split
  · exact (calm_refl s).lawful
  · dsimp only
    split
    · exact (checked _).trans (suspendStage_lawful _ _ _ _)
    · exact checked _

theorem emptyQueues_calm (s : State) : calm up es s (emptyQueues s) :=
  foldl_calm _ _ _ (fun _ _ => updPort_calm (fun _ => Nat.zero_le _))

theorem warmReset_lawful (s : State) : lawful up es s (warmReset s) := by
  unfold warmReset
  dsimp only
  refine lawful.trans ?_ (formMixOrder_calm _).lawful
  refine lawful.trans ?_ (settleStartCheck_calm _).lawful
  refine lawful.trans ?_ (calm_of_keeps (setStartCheck_keeps true _) (by decide)).lawful
  refine lawful.trans ?_ (forLines_lawful _ _ resetLine_lawful)
  refine lawful.trans ?_ (calm_of_keeps (quietExercise_keeps _) (by decide)).lawful
  refine lawful.trans ?_ (emptyQueues_calm _).lawful
  exact (calm_of_keeps (setLockdown_keeps false s) (by decide)).lawful

theorem resetReply_lawful (n : Nat) (s : State) : lawful up es s (resetReply n s).state := by
  unfold resetReply
  split
  · exact (calm_refl s).lawful
  split
  · exact (calm_refl s).lawful
  · dsimp only [accept]; exact warmReset_lawful s

/-! ### Events (04, 10, 11) -/

theorem brokenFrame_calm {p : Port} {act : State → State} (h : calm up es s (act s)) :
    calm up es s (brokenFrame p act s) := by
  unfold brokenFrame
  split
  · exact h
  · exact h
  · exact countOverrun_calm p s
  · exact calm_refl s

theorem countFraming_calm (p : Port) (n : Receiver) (s : State) : calm up es s (countFraming p n s) :=
  (updPort_calm id).trans (postSaturated_calm _ _ _)

theorem countCrc_calm (p : Port) (s : State) : calm up es s (countCrc p s) :=
  (updPort_calm id).trans (postSaturated_calm _ _ _)

theorem updGrout_calm (f : Grout → Grout) (s : State) : calm up es s (s.updGrout f) :=
  ⟨fun _ => .refl _, id, rfl, fun _ => .rfl, rfl⟩

theorem updStop_calm (f : StopUnit → StopUnit) (s : State) : calm up es s (s.updStop f) :=
  ⟨fun _ => .refl _, id, rfl, fun _ => .rfl, rfl⟩

theorem meteredPulse_calm (l : LineId) (w : Nat) (s : State) : calm up es s (meteredPulse l w s) := by
  have counted (t : State) : calm up es t (t.updLine l (Line.addPending w)) := by
    refine updLine_calm ?_
    unfold Line.addPending
    split
    · exact .of_vitals rfl id
    · exact .refl _
  unfold meteredPulse
  dsimp only
  exact .cases (fun _ => (((addProgress_calm _ _ _).trans (counted _)).trans (advanceTransit_calm _ _ _)).trans
    (consume_calm _ _ _)) (fun _ => (addProgress_calm _ _ _).trans (counted _))

theorem pulse_calm (l : LineId) (s : State) : ∃ t, exec (.flowPulse l) s = .next t ∧ calm up es s t := by
  have counted : calm up es s (s.setLine l { s.line l with pulses := (s.line l).pulses + 1 }) :=
    setLine_calm (.of_vitals rfl id)
  refine ⟨_, rfl, ite_calm _ (fun _ => ?_)⟩
  exact .cases (fun _ => counted.trans (meteredPulse_calm _ _ _)) (fun _ => counted.trans (addProgress_calm _ _ _))

theorem estopSample_lawful (contact : Bool) (s : State) :
    ∃ t, exec (.estopSample contact) s = .next t ∧ lawful up false s t := by
  refine ⟨_, rfl, (updStop_calm (StopUnit.countContact contact) s).lawful.trans ?_⟩
  refine .cases (fun _ => beginEstop_lawful _) (fun _ => ?_)
  exact .cases (fun _ => (finishEstop_calm _).lawful) (fun _ => (calm_refl _).lawful)

theorem tickLine_calm (l : LineId) (s : State) : calm up es s (tickLine l s) := by
  have ticked (n : Nat) (x : Line) : (x.tick n).vitals = x.vitals := by
    simp only [Line.vitals, Line.tick, Option.map_map]
    rfl
  have freed (n : Nat) (t : State) : calm up es t { t with free := n } :=
    ⟨fun _ => .refl _, id, rfl, fun _ => .rfl, rfl⟩
  refine (updLine_calm (l := l) (f := Line.tick s.settings.holdLimit) (.of_vitals (ticked _ _) id)).trans ?_
  dsimp only [tickLine, tickStage]
  split
  · exact .cases (fun _ => (addProgress_calm _ _ _).trans (freed _ _)) (fun _ => addProgress_calm _ _ _)
  · exact addProgress_calm _ _ _

theorem clockSecond_calm (s : State) : ∃ t, exec .clockSecond s = .next t ∧ calm up es s t := by
  refine ⟨_, rfl, calm.trans ?_ (decideAged_calm _)⟩
  refine calm.trans ?_ (forLines_calm _ _ tickLine_calm)
  exact (calm_of_keeps (setClock_keeps _ s) (by decide)).trans (updGrout_calm _ _)

theorem timeoutHold_lawful (l : LineId) (s : State) : lawful up es s (timeoutHold l s) := by
  unfold timeoutHold
  dsimp only
  refine lawful.trans ?_ (enterFault_calm _ _ _ _ _).lawful
  exact (closeLine_lawful _ _ _).trans (withBound_lawful (fun k s => suspendStage_lawful _ _ _ _) _)

theorem expireKeepalive_lawful (l : LineId) (g : Grant) (s : State) : lawful up es s (expireKeepalive l g s) := by
  unfold expireKeepalive
  dsimp only
  refine lawful.trans ?_ (enterFault_calm _ _ _ _ _).lawful
  refine lawful.trans ?_ (postLine_calm _ _ _ _).lawful
  exact (closeLine_lawful _ _ _).trans (withBound_lawful
    (fun k s => by split <;> first | exact suspendStage_lawful _ _ _ _ | exact returnToReady_lawful _ _) _)

theorem appendRecord_calm (e : InjectionRecord) (s : State) : calm up es s (appendRecord e s) := by
  have numbered : calm up es s (s.updRecord (fun r => { r with nextRecord := nextNumber r.nextRecord })) :=
    updReaders_calm s (fun _ => ⟨rfl, rfl⟩)
  have slip (p : Port) (n : Nat) (d : Int) (r : Reader × Bool × Bool) (s : State) :
      calm up es s (postSlip p n d r s) :=
    ite_calm _ (fun _ => (post_calm _ _ _).trans (postSaturated_calm _ _ _))
  unfold appendRecord
  dsimp only
  refine .cases (fun _ => ?_) (fun _ => numbered)
  refine calm.trans (calm.trans (numbered.trans ?_) (slip _ _ _ _ _)) (slip _ _ _ _ _)
  exact updReaders_calm _ (fun _ => ⟨rfl, rfl⟩)

theorem writeRecord_calm (l : LineId) (k : StageKey) (s : State) : calm up es s (writeRecord l k s) := by
  have written := (updLine_calm (up := up) (es := es) (s := s) (l := l)
    (f := fun x => { x with recordTimer := some 0 }) (.of_vitals rfl id)).trans
    (appendRecord_calm (s.injectionRecord l k) _)
  unfold writeRecord
  dsimp only
  split
  · exact .cases (fun _ => written.trans (saveStage_calm _ _)) (fun _ => written)
  · exact written

theorem compareLevels_calm (s : State) : calm up es s (compareLevels s) := by
  unfold compareLevels
  dsimp only
  split
  · exact .cases (fun _ => (updGrout_calm _ s).trans (postPart_calm _ _ _)) (fun _ => updGrout_calm _ s)
  · exact updGrout_calm _ s

theorem reportStoreFault_calm (d : FaultDetail) (l : Option FaultLocation) (s : State) :
    calm up es s (reportStoreFault d l s) := (postPart_calm _ _ _).trans (enterFault_calm _ _ _ _ _)

theorem writeFailed_calm (s : State) : ∃ t, exec .storeWriteFailed s = .next t ∧ calm up es s t := by
  have latched : calm up es s { s with store := { s.store with writes := [], fault := true } } := by
    refine ⟨fun _ => .refl _, ?_, rfl, fun _ => .rfl, rfl⟩
    rintro ⟨table, copy, queues, history, copied⟩
    refine ⟨table, ⟨fun n => ?_, fun h => by cases h⟩, queues, history, copied⟩
    simpa [Store.copyAfter] using copy.1 0
  refine ⟨_, rfl, ?_⟩
  split
  · exact latched.trans (reportStoreFault_calm _ _ _)
  · exact calm_refl s

theorem length_faults_apply (n : NvCopy) (w : StoreWrite) (h : n.faults.length ≤ 16) : (n.apply w).faults.length ≤ 16 := by
  cases w with
  | fault e => exact length_lastN_le 16 _
  | _ => exact h

theorem writeCompleted_lawful (s : State) : ∃ t, exec .storeWriteCompleted s = .next t ∧ lawful up es s t := by
  refine ⟨_, rfl, ?_⟩
  split
  case h_1 w rest front =>
    refine ⟨fun _ => (Line.Calm.refl _).toLawful, ?_⟩
    rintro ⟨table, copy, queues, history, copied⟩
    exact ⟨table, Store.copyOk_completed copy front, queues, history, length_faults_apply _ w copied⟩
  case h_2 => exact (calm_refl s).lawful

/-! ### POWER_ON (R24, R25, R27, R151) -/

/-- A line built afresh: closed, at rest or in CLOSING, and bound to nothing. -/
theorem atPowerOn_rest (c : Option LineSettings) (n : Nat) :
    let x := Line.atPowerOn c n
    x.state.live = false ∧ x.command = .closed ∧ (∀ w, x.travel = some w → w.target = .closed) ∧ x.grant = none ∧
    x.stage = none ∧ x.listsOk := by
  unfold Line.atPowerOn
  dsimp only
  split
  · refine ⟨rfl, rfl, fun w h => ?_, rfl, rfl, Nat.zero_le _, Nat.zero_le _, Nat.zero_le _⟩
    obtain rfl := Option.some.inj h
    rfl
  · refine ⟨rfl, rfl, ?_, rfl, rfl, Nat.zero_le _, Nat.zero_le _, Nat.zero_le _⟩
    rintro w ⟨⟩

theorem line_freshPart (a b : Bool) (n : Nat) (s : State) (l : LineId) :
    (freshPart a b n s).line l =
      Line.atPowerOn (s.store.nv.lines.get l) (s.store.nv.part.getD PartSettings.default).travelTime := by
  fin_cases l <;> rfl

theorem freshPart_lawful (a b : Bool) (n : Nat) (s : State) : lawful up es s (freshPart a b n s) := by
  refine ⟨fun l => ?_, ?_⟩
  · obtain ⟨live, command, travel, grant, stage, lists⟩ := atPowerOn_rest (s.store.nv.lines.get l)
      (s.store.nv.part.getD PartSettings.default).travelTime
    rw [line_freshPart]
    exact .unbound live command (fun _ => travel) grant (fun _ => stage) (fun _ => lists)
  · rintro ⟨-, copy, -, -, copied⟩
    refine ⟨copy.1 0, ⟨fun m => ?_, fun _ => rfl⟩, fun p => ?_, copied, copied⟩
    · have none : (freshPart a b n s).store.copyAfter m = s.store.nv := by simp [Store.copyAfter, freshPart]
      rw [none]
      exact copy.1 0
    · rw [show (freshPart a b n s).port p = PortRecord.fresh by cases p <;> rfl]
      exact Nat.zero_le _

theorem losePower_lawful (k : StageKey) (s : State) : lawful up es s (losePower k s) :=
  (enterFault_calm _ _ _ _ _).lawful.trans (suspendStage_lawful _ _ _ _)

theorem powerUp_lawful (a b : Bool) (n : Nat) (s : State) : lawful up es s (powerUp a b n s) := by
  unfold powerUp
  dsimp only
  refine lawful.trans ?_ (formWarn_calm _).lawful
  refine lawful.trans ?_ (settleStartCheck_calm _).lawful
  refine lawful.trans ?_ (foldl_lawful _ _ _ (fun s k => losePower_lawful k s))
  refine lawful.trans ?_ (calm.cases (fun _ => calm_refl _) (fun _ => reportStoreFault_calm _ _ _)).lawful
  exact (freshPart_lawful _ _ _ s).trans (calm.cases (fun _ => calm_refl _) (fun _ => enterFault_calm _ _ _ _ _)).lawful

end

end Sys2Proof.Machine
end

section
/-! PROOFS. Every step keeps the stops in force and the grants in order (R41, R48, R49, R141, R143, R145). -/

namespace Sys2Proof.Machine

section
variable {up es : Bool} {s t u : State} {c : Instr}

/-! ### What a command does to the lines and the books -/

/-- The commands that change neither what a line carries, nor which stages are ACTIVE, nor the non-volatile copy. -/
def quiet : Instr → Bool
  | .claim _ _ _ | .release _ _ _ | .stageWrite _ _ _ | .stageDelete _ _ _ | .stageDecideClose _ _ _
  | .stageDecideAbandon _ _ _ | .reset _ _ _ | .lineSampleEvent _ _ _ _ _ | .gaugeSampleEvent _ _ | .estopSample _
  | .holdTimeout _ | .acceptWindowExpiry _ | .keepaliveExpiry _ | .storeWriteCompleted | .powerOn _ _ _ => false
  | _ => true

/-- What is known of the state after a command, of the one it answers. -/
theorem calm_of_exec (run : exec c s = .next t) (h : ∃ u, exec c s = .next u ∧ calm up es s u) : calm up es s t := by
  obtain ⟨u, ran, kept⟩ := h
  rwa [Host.Outcome.next.inj (run.symm.trans ran)]

theorem lawful_of_exec (run : exec c s = .next t) (h : ∃ u, exec c s = .next u ∧ lawful up es s u) :
    lawful up es s t := by
  obtain ⟨u, ran, kept⟩ := h
  rwa [Host.Outcome.next.inj (run.symm.trans ran)]

/-- A quiet request. -/
theorem calm_of_request (hk : c.kind?.isSome) (hx : ∀ q n g b, c ≠ .unknownKind q n g b) (hc : quiet c = true)
    (hu : up = true → ∀ p g b, c ≠ .upliftClear p g b) (run : exec c s = .next t) : calm up es s t := by
  cases c with
  | start p g b => exact request_calm (fun _ u => withGrant_calm (calm_refl u) (fun l g _ => startReply_calm l g u)) run
  | pause p g b => exact request_calm (fun _ u => withGrant_calm (calm_refl u) (fun l g _ => pauseReply_calm l g u)) run
  | pumpStatus p g b =>
    exact request_calm (fun a u => withGrant_calm (pumpStatusWithout_calm p a u) (fun l g _ => pumpReport_calm a l g u)) run
  | status p g b => exact request_calm (fun _ u => calm_refl u) run
  | stageRead p g b => exact request_calm (fun a u => calm_of_keeps (stageReadReply_keeps [] a u) (by decide)) run
  | lineRead p g b => exact request_calm (fun a u => calm_of_keeps (lineReadReply_keeps [] a u) (by decide)) run
  | readAlerts p g b => exact request_calm (fun _ u => readAlertsReply_calm p u) run
  | alertMask p g b => exact request_calm (fun a u => calm_of_keeps (alertMaskReply_keeps p a u) (by decide)) run
  | stageRelease p g b => exact request_calm (fun k u => stageEditOf_calm (fun x h => stageReleaseOwn_calm h)) run
  | stageWithdraw p g b => exact request_calm (fun k u => stageEditOf_calm (fun x h => stageWithdrawOwn_calm h)) run
  | stageDecideContinue p g b =>
    exact request_calm (fun a u => decideOf_calm (fun x _ => decideContinueOwn_calm a x u)) run
  | stageDecideResume p g b => exact request_calm (fun a u => decideOf_calm (fun x h => decideResumeOwn_calm h)) run
  | lineConfig p g b => exact request_calm lineConfigReply_calm run
  | lineWatch p g b => exact request_calm lineWatchReply_calm run
  | lineUnwatch p g b => exact request_calm (fun n u => lineRequest_calm (fun l => lineUnwatchOwn_calm l u)) run
  | lineIsolate p g b => exact request_calm (fun n u => lineRequest_calm (fun l => lineIsolateOwn_calm l u)) run
  | lineReturn p g b => exact request_calm (fun n u => lineRequest_calm (fun l => lineReturnOwn_calm l u)) run
  | holdAll p g b => exact request_calm (fun _ => holdAllReply_calm) run
  | releaseAll p g b => exact request_calm (fun _ => releaseAllReply_calm) run
  | batchReport p g b => exact request_calm batchReportReply_calm run
  | tankDump p g b => exact request_calm (fun _ => tankDumpReply_calm) run
  | upliftZero p g b => exact request_calm (fun _ => upliftZeroReply_calm) run
  | upliftClear p g b =>
    cases up with
    | false => exact request_calm (fun _ => upliftClearReply_calm) run
    | true => exact absurd rfl (hu rfl p g b)
  | partConfig p g b => exact request_calm partConfigReply_calm run
  | readerEnable p g b => exact request_calm readerEnableReply_calm run
  | readRecords p g b => exact request_calm (fun _ u => calm_of_keeps (readRecordsReply_keeps p u) (by decide)) run
  | readCompletions p g b => exact request_calm (fun a u => calm_of_keeps (rangeReply_keeps [] _ _ a u) (by decide)) run
  | readFaults p g b => exact request_calm (fun a u => calm_of_keeps (rangeReply_keeps [] _ _ a u) (by decide)) run
  | readConnections p g b => exact request_calm (fun a u => calm_of_keeps (rangeReply_keeps [] _ _ a u) (by decide)) run
  | clearCounters p g b => exact request_calm clearCountersReply_calm run
  | clearLatches p g b => exact request_calm clearLatchesReply_calm run
  | setTime p g b => exact request_calm (fun n u => calm_of_keeps (setTimeReply_keeps n u) (by decide)) run
  | exerciseStep p g b => exact request_calm (fun _ => exerciseStepReply_calm) run
  | unknownKind q n g b => exact absurd rfl (hx q n g b)
  | claim | release | stageWrite | stageDelete | stageDecideClose | stageDecideAbandon | reset => cases hc
  | _ => cases hk

/-- A quiet event. -/
theorem calm_of_event (hk : c.kind? = none) (hx : ∀ q n g b, c ≠ .unknownKind q n g b) (hc : quiet c = true)
    (run : exec c s = .next t) : calm up es s t := by
  cases c with
  | crcError p => exact calm_of_exec run ⟨_, rfl, brokenFrame_calm (countCrc_calm p s)⟩
  | framingError p _ => exact calm_of_exec run ⟨_, rfl, brokenFrame_calm (countFraming_calm p .discarding s)⟩
  | frameGapAbort p _ => exact calm_of_exec run ⟨_, rfl, brokenFrame_calm (countFraming_calm p _ s)⟩
  | overrun p =>
    refine calm_of_exec run ⟨_, rfl, ?_⟩
    split
    · exact countOverrun_calm p s
    all_goals exact calm_refl s
  | answerSent p =>
    refine calm_of_exec run ⟨_, rfl, ?_⟩
    split
    · exact updPort_calm id
    · exact updPort_calm id
    all_goals exact calm_refl s
  | discardSilenceEnd p => exact calm_of_exec run ⟨_, rfl, ite_calm _ (fun _ => updPort_calm id)⟩
  | flowPulse l => exact calm_of_exec run (pulse_calm l s)
  | levelSampleEvent n => exact calm_of_exec run ⟨_, rfl, levelSample_calm n s⟩
  | clockSecond => exact calm_of_exec run (clockSecond_calm s)
  | valveTravelTimeElapsed l =>
    refine calm_of_exec run ⟨_, rfl, updLine_calm (.of_vitals ?_ id)⟩
    simp only [Line.vitals, Option.map_map]
    rfl
  | recordInterval l =>
    exact calm_of_exec run ⟨_, rfl, ite_calm _ (fun _ => withBound_calm (fun k s => writeRecord_calm l k s) s)⟩
  | levelComparison =>
    exact calm_of_exec run ⟨_, rfl, ite_calm _ (fun _ => (updGrout_calm _ s).trans (compareLevels_calm _))⟩
  | groutAgeLimitReached => exact calm_of_exec run ⟨_, rfl, decideAged_calm s⟩
  | storeWriteFailed => exact calm_of_exec run (writeFailed_calm s)
  | startByteReceived p =>
    refine calm_of_exec run ⟨_, rfl, ?_⟩
    split
    · exact updPort_calm id
    · exact countOverrun_calm p s
    all_goals exact calm_refl s
  | unknownKind q n g b => exact absurd rfl (hx q n g b)
  | lineSampleEvent | gaugeSampleEvent | estopSample | holdTimeout | acceptWindowExpiry | keepaliveExpiry
  | storeWriteCompleted | powerOn => cases hc
  | _ => cases hk

/-- A quiet command. An UPLIFT_CLEAR is one for the stops that it leaves standing. -/
theorem exec_calm (hc : quiet c = true) (hu : up = true → ∀ p g b, c ≠ .upliftClear p g b) (run : exec c s = .next t) :
    calm up es s t := by
  by_cases hx : ∀ q n g b, c ≠ .unknownKind q n g b
  · cases hk : c.kind? with
    | none => exact calm_of_event hk hx hc run
    | some r => exact calm_of_request (by rw [hk]; rfl) hx hc hu run
  · push Not at hx
    obtain ⟨q, n, g, b, rfl⟩ := hx
    refine calm_of_exec run ⟨_, rfl, ite_calm _ (fun _ => ?_)⟩
    unfold receive
    split
    case h_1 | h_2 => exact (heard_calm q s).trans (respond_calm q _ _ (refuse .unknownKind _))
    · exact countOverrun_calm q s
    · exact calm_refl s

/-- Every command but a CLAIM keeps the lines and the books in order. -/
theorem exec_lawful (hc : ∀ p g b, c ≠ .claim p g b) (hu : up = true → ∀ p g b, c ≠ .upliftClear p g b)
    (he : es = true → ∀ b, c ≠ .estopSample b) (run : exec c s = .next t) : lawful up es s t := by
  cases hq : quiet c with
  | true => exact (exec_calm hq hu run).lawful
  | false =>
    cases c with
    | claim p g b => exact absurd rfl (hc p g b)
    | release p g b =>
      have without (u : State) : calm up es u (releaseWithout p u).state := updPort_calm (s := u) (f := fun x => { x with cut := none }) id
      exact request_lawful (fun _ u => withGrant_lawful (without u).lawful (fun l g _ => releaseReply_lawful l g u)) run
    | stageWrite p g b => exact request_lawful stageWriteReply_lawful run
    | stageDelete p g b =>
      exact request_lawful (fun k u => stageEditOf_lawful (fun x _ => stageDeleteOwn_lawful x u)) run
    | stageDecideClose p g b =>
      refine request_lawful (fun a u => decideOf_lawful (fun x _ => ?_)) run
      unfold decideCloseOwn
      split
      · exact endByConsole_lawful _ _ _ _ u
      · exact (calm_refl u).lawful
    | stageDecideAbandon p g b =>
      refine request_lawful (fun a u => decideOf_lawful (fun x _ => ?_)) run
      unfold decideAbandonOwn
      split
      · exact endByConsole_lawful _ _ _ _ u
      · exact (calm_refl u).lawful
    | reset p g b => exact request_lawful resetReply_lawful run
    | lineSampleEvent l n a b d =>
      exact lawful_of_exec run ⟨_, rfl, ite_lawful _ (fun _ => lineSample_lawful l n a b d s)⟩
    | gaugeSampleEvent g n => exact lawful_of_exec run ⟨_, rfl, ite_lawful _ (fun _ => gaugeSample_lawful g n s)⟩
    | estopSample b =>
      cases es with
      | false => exact lawful_of_exec run (estopSample_lawful b s)
      | true => exact absurd rfl (he rfl b)
    | holdTimeout l => exact lawful_of_exec run ⟨_, rfl, ite_lawful _ (fun _ => timeoutHold_lawful l s)⟩
    | acceptWindowExpiry l =>
      exact lawful_of_exec run ⟨_, rfl, ite_lawful _ (fun _ =>
        (closeLine_lawful _ l s).trans (withBound_lawful returnToReady_lawful _))⟩
    | keepaliveExpiry l =>
      refine lawful_of_exec run ⟨_, rfl, ?_⟩
      split
      · exact expireKeepalive_lawful l _ s
      · exact (calm_refl s).lawful
    | storeWriteCompleted => exact lawful_of_exec run (writeCompleted_lawful s)
    | powerOn a b n => exact lawful_of_exec run ⟨_, rfl, powerUp_lawful a b n s⟩
    | _ => cases hq

end

/-! ### A granted claim (R51, R52) -/

section
variable {up es : Bool} {s t : State} {p : Port} {l : LineId} {x : Stage}

/-- A CLAIM of the port for the stage on the line passes every check that a claim grant rests on (R51). -/
structure Claimable (p : Port) (l : LineId) (x : Stage) (s : State) : Prop where
  unlocked : s.stop.lockdown = false
  upliftStop : s.stop.upliftStop = false
  estop : s.stop.estop = false
  free : s.portGrant p = none
  idle : (s.line l).state = .idle
  found : s.stage? x.key = some x
  ready : x.status = .ready

/-- A CLAIM is granted, or keeps the lines and the stages as they are (R20, R51). -/
theorem claimReply_cases (p : Port) (a : ClaimArgs) (s : State) :
    (∀ up es, calm up es s (claimReply p a s).state) ∨
    ∃ l x, Claimable p l x s ∧ (claimReply p a s).state = grantClaim p l x s := by
  unfold claimReply unlessLocked
  split
  case isTrue => exact .inl (fun _ _ => calm_refl s)
  case isFalse unlocked =>
    split
    case isTrue => exact .inl (fun _ _ => calm_refl s)
    case isFalse stops =>
      simp only [Bool.or_eq_true, not_or, Bool.not_eq_true] at unlocked stops
      split
      · exact .inl (fun _ _ => calm_refl s)
      · unfold claimGrant
        split
        case h_1 => split <;> exact .inl (fun _ _ => calm_refl s)
        case h_2 free =>
          split
          case h_2 => exact .inl (fun _ _ => calm_refl s)
          case h_1 l x _ found =>
            split
            case isFalse => exact .inl (fun _ _ => calm_refl s)
            case isTrue =>
              have key : x.key = a.key := key_of_lookupStage found
              unfold claimStage
              split
              case isTrue => exact .inl (fun _ _ => calm_refl s)
              split
              case isTrue => exact .inl (fun _ _ => calm_refl s)
              split
              case isTrue => exact .inl (fun _ _ => calm_refl s)
              split
              case isTrue => exact .inl (fun _ _ => calm_refl s)
              split
              case isTrue =>
                refine .inl (fun up es => ?_)
                exact (updStage_calm (by intro; rfl) (by intro _ _; exact Iff.rfl)).trans (formMixOrder_calm _)
              case isFalse idle ready _ _ _ =>
                refine .inr ⟨l, x, ⟨unlocked, stops.1, stops.2, free, not_not.1 idle, ?_, not_not.1 ready⟩, rfl⟩
                rwa [key]

/-- What becomes of a CLAIM command. -/
theorem claim_cases {g : Byte} {b : Body ClaimArgs} (run : exec (.claim p g b) s = .next t) :
    (∀ up es, calm up es s t) ∨
    ∃ l x r, p.isConsole = false ∧ Claimable p l x (heard p s) ∧ r.state = grantClaim p l x (heard p s) ∧
      t = respond p RequestKind.claim.code g r := by
  rcases request_cases run with rfl | rfl | ⟨r, rfl, ⟨st, rfl⟩ | ⟨a, rfl, hk, rfl⟩⟩
  · exact .inl (fun _ _ => calm_refl _)
  · exact .inl (fun _ _ => countOverrun_calm _ _)
  · exact .inl (fun _ _ => (heard_calm p s).trans (respond_calm p _ _ (refuse st _)))
  · have pump : p.isConsole = false := by
      cases p <;> first | rfl | cases hk
    rcases claimReply_cases p a (heard p s) with h | ⟨l, x, hx, h⟩
    · exact .inl (fun up es => ((heard_calm p s).trans (h up es)).trans (respond_calm p _ _ _))
    · exact .inr ⟨l, x, _, pump, hx, h, rfl⟩

/-! ### The state after a granted claim -/

theorem key_activate (n : Nat) (x : Stage) : (x.activate n).key = x.key := rfl

theorem line_grantClaim (p : Port) (l m : LineId) (x : Stage) (s : State) :
    (grantClaim p l x s).line m = if m = l then (s.line l).toOpening (Grant.fresh p s.settings) x.key
      (min x.fields.startClass s.grout.tankClass) s.settings.travelTime else s.line m := by
  unfold grantClaim
  dsimp only
  rw [line_formMixOrder, (saveStage_keeps x.key _).line (by decide) (by decide) (by decide),
    (updStage_keeps x.key _ _).line (by decide) (by decide) (by decide), line_updPort, line_updLine]

theorem books_grantClaim (p : Port) (l : LineId) (x : Stage) {s : State} (books : s.booksOk) :
    (grantClaim p l x s).booksOk := by
  unfold grantClaim
  dsimp only
  refine (formMixOrder_calm (up := true) (es := true) _).books ?_
  refine (saveStage_calm (up := true) (es := true) _ _).books ?_
  refine (updStage_lawful (up := true) (es := true) (key_activate _) _).books ?_
  exact (updPort_calm (up := true) (es := true) (f := fun x => { x with cut := none }) id).books books

/-- A line taken to OPENING is in order, under the grant of its port. -/
theorem toOpening_grantOk {g : Grant} (hg : g.phase = .live) (k : StageKey) (c n : Nat) (x : Line) :
    (x.toOpening g k c n).grantOk :=
  ⟨by simp [Line.toOpening, Line.drive, LineState.live], by simp [Line.toOpening, Line.drive],
    fun _ => ⟨rfl, g, rfl, hg⟩, by simp [Line.toOpening, Line.drive],
    by simp [Line.toOpening, Line.drive, LineState.live]⟩

theorem toOpening_listsOk (g : Grant) (k : StageKey) (c n : Nat) (x : Line) : (x.toOpening g k c n).listsOk :=
  ⟨Nat.zero_le _, Nat.zero_le _, Nat.zero_le _⟩

theorem owner_of_portGrant (h : s.portGrant p = none) (l : LineId) : (s.line l).owner ≠ some p := by
  have absent := List.find?_eq_none.1 h l (by fin_cases l <;> decide)
  simpa using absent

/-! ### The grants (R49) -/

/-- A command that leaves every line lawful keeps the grants in order. -/
theorem grantsOk_of_lawful (h : lawful up es s t) (ok : s.grantsOk) : t.grantsOk := by
  obtain ⟨lines, console, once⟩ := ok
  exact ⟨fun l => (h.lines l).grant (lines l), fun l p o => console l p ((h.lines l).owner p o),
    fun l m p o o' => once l m p ((h.lines l).owner p o) ((h.lines m).owner p o')⟩

theorem grantsOk_grantClaim (pump : p.isConsole = false) (h : Claimable p l x s) (ok : s.grantsOk) :
    (grantClaim p l x s).grantsOk := by
  obtain ⟨lines, console, once⟩ := ok
  have owner (m : LineId) (q : Port) (o : ((grantClaim p l x s).line m).owner = some q) :
      (m = l ∧ q = p) ∨ (m ≠ l ∧ q ≠ p ∧ (s.line m).owner = some q) := by
    rw [line_grantClaim] at o
    split at o
    case isTrue same => exact .inl ⟨same, (Option.some.inj o).symm⟩
    case isFalse other => exact .inr ⟨other, fun e => owner_of_portGrant h.free m (e ▸ o), o⟩
  refine ⟨fun m => ?_, fun m q o => ?_, fun m n q o o' => ?_⟩
  · rw [line_grantClaim]
    split
    · exact toOpening_grantOk rfl _ _ _ _
    · exact lines m
  · rcases owner m q o with ⟨-, rfl⟩ | ⟨-, -, held⟩
    · exact pump
    · exact console m q held
  · rcases owner m q o with ⟨rfl, rfl⟩ | ⟨-, ne, held⟩ <;> rcases owner n q o' with ⟨rfl, e⟩ | ⟨-, ne', held'⟩
    · rfl
    · exact absurd rfl ne'
    · exact absurd e ne
    · exact once m n q held held'

theorem exec_grantsOk {c : Instr} (run : exec c s = .next t) (ok : s.grantsOk) : t.grantsOk := by
  by_cases hc : ∀ p g b, c ≠ .claim p g b
  · exact grantsOk_of_lawful (exec_lawful (up := false) (es := false) hc (by simp) (by simp) run) ok
  · push Not at hc
    obtain ⟨p, g, b, rfl⟩ := hc
    rcases claim_cases run with h | ⟨l, x, r, pump, claimable, left, rfl⟩
    · exact grantsOk_of_lawful (h true true).lawful ok
    · have heard := grantsOk_of_lawful (heard_calm (up := true) (es := true) p s).lawful ok
      refine grantsOk_of_lawful (respond_calm (up := true) (es := true) p _ _ r).lawful ?_
      rw [left]
      exact grantsOk_grantClaim pump claimable heard

/-- A predicate that every command keeps, and that the queue of commands is no matter of, every step keeps. -/
theorem step_induct {P : State → Prop} (hq : ∀ (s : State) q, P s → P { s with pending := q })
    (h : ∀ (c : Instr) (s t : State), exec c s = .next t → P s → P t) (run : step s = .next t) (ok : P s) : P t := by
  cases front : s.pending with
  | nil =>
    rw [step_idle front] at run
    exact Host.Outcome.next.inj run ▸ ok
  | cons c rest =>
    rw [step_front front] at run
    exact h c _ t run (hq s rest ok)

/-- Settles O58: every command but a granted CLAIM leaves every line lawful (`exec_lawful`), and a granted claim makes one
grant, of a port that held none (`grantsOk_grantClaim`). -/
theorem valvesOpenOnlyUnderALiveGrant : Obligations.ValvesOpenOnlyUnderALiveGrant :=
  fun _ _ ok run => step_induct (fun _ _ h => h) (fun _ _ _ run ok => exec_grantsOk run ok) run ok

end

end Sys2Proof.Machine
end

section
/-! PROOFS. Every step keeps the stops in force (R41, R48, R141, R143, R145). -/

namespace Sys2Proof.Machine

/-! ### The lines one after another -/

theorem mem_lineIds (l : LineId) : l ∈ lineIds := by
  fin_cases l <;> decide

/-- What a change of each line in turn leaves of a line, where the change of one line is known, under a condition on the
rest of the state. -/
theorem line_forLines {f : LineId → State → State} {g : LineId → Line → Line} {P : State → Prop}
    (hP : ∀ l s, P s → P (f l s))
    (h : ∀ l m s, P s → (f l s).line m = if m = l then g l (s.line l) else s.line m) {s : State} (hs : P s)
    (m : LineId) : (forLines f s).line m = g m (s.line m) := by
  have each (ls : List LineId) (once : ls.Nodup) (s : State) (hs : P s) :
      (ls.foldl (fun s l => f l s) s).line m = if m ∈ ls then g m (s.line m) else s.line m := by
    induction ls generalizing s with
    | nil => rfl
    | cons l ls ih =>
      obtain ⟨absent, once⟩ := List.nodup_cons.1 once
      rw [List.foldl_cons, ih once _ (hP l s hs), h l m s hs]
      by_cases same : m = l
      · subst m
        simp [absent]
      · simp [same]
  rw [forLines, each lineIds (by decide) s hs, if_pos (mem_lineIds m)]

/-- A change of each line in turn that leaves the settings, and takes one line by a rule of its own. -/
theorem line_forLines_settings {f : LineId → State → State} {g : Nat → Line → Line} {A : List Part}
    (hf : ∀ l s, keeps A s (f l s)) (hA : .settings ∉ A)
    (h : ∀ l m s, (f l s).line m = if m = l then g s.settings.travelTime (s.line l) else s.line m) (s : State)
    (m : LineId) : (forLines f s).line m = g s.settings.travelTime (s.line m) := by
  refine line_forLines (P := fun u => u.settings = s.settings) (g := fun _ => g s.settings.travelTime)
    (fun l u hu => ?_) (fun l m u hu => ?_) rfl m
  · exact ((hf l u).2 .settings hA).trans hu
  · rw [h, hu]

/-! ### The lines at a stop -/

section
variable {up es lock : Bool} {s t : State} {x : Line}

/-- A stop is judged more mildly where it no longer stands. -/
theorem Line.stopsOk.mono {up' es' lock' : Bool} (h : x.stopsOk up es lock) (hu : up' = true → up = true)
    (he : es' = true → es = true) (hk : lock' = true → lock = true) : x.stopsOk up' es' lock' := by
  obtain ⟨injecting, u, e, k⟩ := h
  exact ⟨injecting, fun h => u (hu h), fun h => e (he h), fun h => k (hk h)⟩

/-- A line that has been stopped is not in OPENING, and where it is evaluated it is held by the stop's cause. -/
theorem stoppedBy_stands (c : HoldCause) (r : EndReason) (n : Nat) (x : Line) :
    (x.stoppedBy c r n).state ≠ .opening ∧
    ((x.stoppedBy c r n).state.evaluated = true → c ∈ (x.stoppedBy c r n).causes) := by
  unfold Line.stoppedBy Line.held
  by_cases hc : c ∈ x.causes <;> cases hs : x.state <;>
    simp [hs, hc, Line.closed, LineState.evaluated, mem_withCause]

theorem line_closeOpening (r : EndReason) (l m : LineId) (s : State) :
    (closeOpening r l s).line m =
      if m = l then (if (s.line l).state = .opening then (s.line l).closed r s.settings.travelTime else s.line l)
      else s.line m := by
  have bound (s : State) : (withBound l returnToReady s).line m = s.line m :=
    (withBound_keeps l returnToReady s (fun k => returnToReady_keeps k s)).line (by decide) (by decide) (by decide) m
  unfold closeOpening
  split
  · rw [bound, line_closeLine]
  · split
    · subst m; rfl
    · rfl

theorem state_held (c : HoldCause) (x : Line) : (x.held c).state = .opening ↔ x.state = .opening := by
  unfold Line.held
  split
  · rfl
  · split <;> simp_all

/-- What a stop does to a line (R62, R141, R143). -/
theorem line_stopLines (c : HoldCause) (r : EndReason) (s : State) (m : LineId) :
    (stopLines c r s).line m = (s.line m).stoppedBy c r s.settings.travelTime := by
  have held (m : LineId) : (forLines (addCause c) s).line m = (s.line m).held c :=
    line_forLines_settings (g := fun _ x => x.held c) (fun l s => addCause_keeps c l s) (by decide)
      (fun l m s => line_addCause c l m s) s m
  have settings : (forLines (addCause c) s).settings = s.settings :=
    (forLines_keeps _ s (fun l s => addCause_keeps c l s)).2 .settings (by decide)
  rw [stopLines, line_forLines_settings (g := fun n x => if x.state = .opening then x.closed r n else x)
    (fun l s => closeOpening_keeps r l s) (by decide) (fun l m s => line_closeOpening r l m s), held, settings]
  simp only [state_held, Line.stoppedBy]
  split
  case isTrue opening =>
    have same : (s.line m).held c = s.line m := by
      unfold Line.held
      rw [opening]
      split <;> rfl
    rw [same]
  case isFalse => rfl

/-- The lines when UPLIFT_STOP is latched. -/
theorem line_latchUpliftStop (g : GaugeId) (s : State) (m : LineId) :
    (latchUpliftStop g s).line m = (s.line m).stoppedBy .uplift .upliftStop s.settings.travelTime := by
  unfold latchUpliftStop
  dsimp only
  rw [line_stopLines]
  have kept : keeps [.upliftStop, .exercise, .queues, .faults, .writes] s
      (enterFault .upliftStop (.value (s.gauge g).u) (some (.gauge g)) .stop (postPart .upliftStop (some (s.gauge g).u)
        { s.updStop (fun x => { x with upliftStop := true }) with exercise := 0 })) :=
    (enterFault_keeps _ _ _ _ _).after (by decide) ((postPart_keeps _ _ _).after (by decide)
      ((setExercise_keeps 0 _).after (by decide) ((setUpliftStop_keeps true s).mono (by decide))))
  rw [kept.line (by decide) (by decide) (by decide), kept.2 .settings (by decide)]

/-- The lines when ESTOP becomes active. -/
theorem line_beginEstop (s : State) (m : LineId) :
    (beginEstop s).line m = (s.line m).stoppedBy .estop .estop s.settings.travelTime := by
  unfold beginEstop
  dsimp only
  rw [line_stopLines]
  have kept : keeps [.estop, .exercise, .queues, .faults, .writes] s
      (enterFault .estop (.value 0) none .stop (postPart .estop none
        { s.updStop (fun x => { x with estop := true }) with exercise := 0 })) :=
    (enterFault_keeps _ _ _ _ _).after (by decide) ((postPart_keeps _ _ _).after (by decide)
      ((setExercise_keeps 0 _).after (by decide) ((setEstop_keeps true s).mono (by decide))))
  rw [kept.line (by decide) (by decide) (by decide), kept.2 .settings (by decide)]

/-! ### The stops after a lawful change -/

/-- A lawful change that raises no stop keeps the stops in force. -/
theorem stopsHold_of_lawful (h : lawful t.stop.upliftStop t.stop.estop s t)
    (hu : t.stop.upliftStop = true → s.stop.upliftStop = true) (he : t.stop.estop = true → s.stop.estop = true)
    (hk : t.stop.lockdown = true → s.stop.lockdown = true) (ok : s.stopsHold) : t.stopsHold := by
  rw [stopsHold_iff] at ok ⊢
  exact fun l => (h.lines l).stops _ ((ok l).mono hu he hk)

/-- A change that leaves the three stops and is lawful for any keeps them in force. -/
theorem stopsHold_of_keeps {A : List Part} (kept : keeps A s t) (h : ∀ up es, lawful up es s t)
    (hA : .upliftStop ∉ A ∧ .estop ∉ A ∧ .lockdown ∉ A) (ok : s.stopsHold) : t.stopsHold := by
  obtain ⟨hu, he, hk⟩ := hA
  have uplift : t.stop.upliftStop = s.stop.upliftStop := kept.2 .upliftStop hu
  obtain ⟨estop, -⟩ : _ ∧ _ := kept.2 .estop he
  have lockdown : t.stop.lockdown = s.stop.lockdown := kept.2 .lockdown hk
  exact stopsHold_of_lawful (h _ _) (fun h => uplift ▸ h) (fun h => estop ▸ h) (fun h => lockdown ▸ h) ok

/-- UPLIFT_STOP latched: it stands on every line (R141). -/
theorem stopsHold_latchUpliftStop (g : GaugeId) (ok : s.stopsHold) : (latchUpliftStop g s).stopsHold := by
  have kept := latchUpliftStop_keeps g s
  obtain ⟨estop, -⟩ : _ ∧ _ := kept.2 .estop (by decide)
  have lockdown : (latchUpliftStop g s).stop.lockdown = s.stop.lockdown := kept.2 .lockdown (by decide)
  rw [stopsHold_iff] at ok ⊢
  intro l
  obtain ⟨injecting, -, e, k⟩ : Line.stopsOk false (latchUpliftStop g s).stop.estop _ _ :=
    ((latchUpliftStop_lawful (up := false) (es := (latchUpliftStop g s).stop.estop) g s).lines l).stops s.stop.lockdown
      ((ok l).mono (by simp) (fun h => estop ▸ h) id)
  refine ⟨injecting, fun _ => ?_, e, fun h => k (lockdown ▸ h)⟩
  rw [line_latchUpliftStop]
  exact stoppedBy_stands _ _ _ _

/-- ESTOP begun: it stands on every line (R143). -/
theorem stopsHold_beginEstop (ok : s.stopsHold) : (beginEstop s).stopsHold := by
  have kept := beginEstop_keeps s
  have uplift : (beginEstop s).stop.upliftStop = s.stop.upliftStop := kept.2 .upliftStop (by decide)
  have lockdown : (beginEstop s).stop.lockdown = s.stop.lockdown := kept.2 .lockdown (by decide)
  rw [stopsHold_iff] at ok ⊢
  intro l
  obtain ⟨injecting, u, -, k⟩ : Line.stopsOk (beginEstop s).stop.upliftStop false _ _ :=
    ((beginEstop_lawful (up := (beginEstop s).stop.upliftStop) (es := false) s).lines l).stops s.stop.lockdown
      ((ok l).mono (fun h => uplift ▸ h) (by simp) id)
  refine ⟨injecting, u, fun _ => ?_, fun h => k (lockdown ▸ h)⟩
  rw [line_beginEstop]
  exact stoppedBy_stands _ _ _ _

/-! ### Lines that are closed, and LOCKDOWN (R48) -/

/-- A part of which no line stands in OPENING, ARMED, INJECTING or HOLDING meets every stop. -/
theorem stopsHold_of_rest (h : ∀ l, (s.line l).state.live = false) : s.stopsHold := by
  rw [stopsHold_iff]
  intro l
  have rest := h l
  refine ⟨fun e => ?_, fun _ => ⟨fun e => ?_, fun e => ?_⟩, fun _ => ⟨fun e => ?_, fun e => ?_⟩, fun _ => rest⟩ <;>
    revert rest e <;> cases (s.line l).state <;> simp [LineState.live, LineState.evaluated]

/-- What LOCKDOWN makes of a line (R48). -/
def Line.lockedBy (n : Nat) (x : Line) : Line :=
  match x.state with
  | .opening | .armed | .injecting | .holding => ({ x with grant := none } : Line).toClosing n
  | .closing => { x with grant := none }
  | .idle | .watch | .isolated => x

theorem line_lockLine (l m : LineId) (s : State) :
    (lockLine l s).line m = if m = l then (s.line l).lockedBy s.settings.travelTime else s.line m := by
  have bound (s : State) (j : LineId) :
      (withBound l (fun k s => suspendStage (some l) k .lockdown s) s).line j = s.line j :=
    (withBound_keeps l _ s (fun k => suspendStage_keeps _ k _ s)).line (by decide) (by decide) (by decide) j
  unfold lockLine Line.lockedBy
  cases state : (s.line l).state <;> by_cases same : m = l <;>
    simp [bound, line_updLine, line_cutGrant, state, same]

theorem lockedBy_rest (n : Nat) (x : Line) : (x.lockedBy n).state.live = false := by
  cases hs : x.state <;> simp [Line.lockedBy, hs, Line.toClosing, Line.drive, LineState.live]

/-- In LOCKDOWN no line stands in OPENING, ARMED, INJECTING or HOLDING. -/
theorem enterLockdown_rest (code : FaultCode) (l m : LineId) (s : State) :
    ((enterLockdown code l s).line m).state.live = false := by
  unfold enterLockdown
  dsimp only
  rw [line_formMixOrder, line_forLines_settings (fun l s => lockLine_keeps l s) (by decide)
    (fun l m s => line_lockLine l m s)]
  exact lockedBy_rest _ _

theorem stopsHold_valveFault (f : ValveFault) (rb : Readback) (l : LineId) (ok : s.stopsHold) :
    (valveFault f rb l s).stopsHold := by
  rw [valveFault_eq]
  split
  · exact stopsHold_of_rest (enterLockdown_rest _ l · _)
  · exact stopsHold_of_keeps (faultLine_keeps f rb l s) (fun _ _ => faultLine_lawful f rb l s) (by decide) ok

/-! ### The samples (R35, R139, R143) -/

theorem stopsHold_valveCompare (l : LineId) (rb : Readback) (ok : s.stopsHold) : (valveCompare l rb s).stopsHold := by
  have read (n : Nat) : (s.setLine l { (s.line l).readValve rb with invalid := n }).stopsHold :=
    stopsHold_of_keeps (setLine_keeps l _ s rfl rfl) (fun _ _ =>
        (setLine_calm (.readValve rb n _)).lawful) (by decide) ok
  unfold valveCompare
  dsimp only
  split
  · exact read _
  split
  · exact stopsHold_valveFault _ _ _ (read 0)
  · exact stopsHold_valveFault _ _ _ (read _)
  · exact stopsHold_of_keeps (confirmValve_keeps l _) (fun _ _ => (confirmValve_calm l _).lawful) (by decide) (read _)

theorem stopsHold_lineSample (l : LineId) (i : Nat) (m a b : Bool) (ok : s.stopsHold) :
    (lineSample l i m a b s).stopsHold := by
  have sampled := (setLine_keeps_all l (sampleLine s.counterTop s.settings.lossCount i m (s.line l)).1 s)
  have sampledCalm (up es : Bool) : calm up es s
      (s.setLine l (sampleLine s.counterTop s.settings.lossCount i m (s.line l)).1) := setLine_calm (sampleLine_calm ..)
  have channel (k : LineChannel) (n : Nat) (r : Sampled) {u : State} (h : u.stopsHold) :
      (lineChannelEffects k n r l u).stopsHold :=
    stopsHold_of_keeps (lineChannelEffects_keeps k n r l u)
      (fun _ _ => (lineChannelEffects_calm k n r l u).lawful) (by decide) h
  unfold lineSample
  dsimp only
  refine stopsHold_of_keeps (settleStartCheck_keeps _) (fun _ _ => (settleStartCheck_calm _).lawful) (by decide) ?_
  have compared (q r : Sampled) := stopsHold_valveCompare l (readbackOf a b) (channel .flow 0 r (channel .pressure i q
    (stopsHold_of_keeps sampled (fun up es => (sampledCalm up es).lawful) (by decide) ok)))
  split
  case h_4 =>
    exact stopsHold_of_keeps (watchEvaluation_keeps l _ _) (fun _ _ =>
        (watchEvaluation_calm l _ _).lawful) (by decide) (compared _ _)
  case h_1 | h_2 | h_3 =>
    split
    · exact compared _ _
    · exact stopsHold_of_keeps (evaluate_keeps l _) (fun _ _ => evaluate_lawful l _) (by decide) (compared _ _)
  all_goals exact compared _ _

theorem stopsHold_judgeGauge (g : GaugeId) (ok : s.stopsHold) : (judgeGauge g s).stopsHold := by
  have set (x : Gauge) : (s.setGauge g x).stopsHold :=
    stopsHold_of_keeps (setGauge_keeps g x s) (fun _ _ => (calm_of_keeps (setGauge_keeps g x s) (by decide)).lawful)
        (by decide) ok
  unfold judgeGauge
  dsimp only
  split
  · refine stopsHold_of_keeps (updGauge_keeps g _ _) (fun _ _ => (updGauge_calm g _ _).lawful) (by decide) ?_
    split
    · exact stopsHold_latchUpliftStop g (set _)
    · exact set _
  · exact set _

theorem stopsHold_gaugeSample (g : GaugeId) (i : Nat) (ok : s.stopsHold) : (gaugeSample g i s).stopsHold := by
  have sampled (x : Gauge → Gauge) : (s.updGauge g x).stopsHold :=
    stopsHold_of_keeps (updGauge_keeps g x s) (fun _ _ => (updGauge_calm g x s).lawful) (by decide) ok
  unfold gaugeSample
  dsimp only
  refine stopsHold_of_keeps (formWarn_keeps _) (fun _ _ => (formWarn_calm _).lawful) (by decide) ?_
  refine stopsHold_judgeGauge g ?_
  exact stopsHold_of_keeps (partChannelEffects_keeps _ _ _ _ _ _ _)
    (fun _ _ => (partChannelEffects_calm _ _ _ _ _ _ _).lawful) (by decide) (sampled _)

theorem estop_finishEstop (s : State) : (finishEstop s).stop.estop = false := by
  have kept := forLines_keeps (removeCause .estop) (s.updStop (fun x => { x with estop := false }))
    (fun l u => removeCause_keeps .estop l u)
  obtain ⟨estop, -⟩ : _ ∧ _ := kept.2 .estop (by decide)
  rw [finishEstop, estop, stop_updStop]

theorem stopsHold_estopSample (b : Bool) (run : exec (.estopSample b) s = .next t) (ok : s.stopsHold) :
    t.stopsHold := by
  obtain rfl := Host.Outcome.next.inj run
  have counted : (s.updStop (StopUnit.countContact b)).stopsHold := by
    have kept : (s.updStop (StopUnit.countContact b)).stop.estop = s.stop.estop := by cases b <;> rfl
    have uplift : (s.updStop (StopUnit.countContact b)).stop.upliftStop = s.stop.upliftStop := by cases b <;> rfl
    have lockdown : (s.updStop (StopUnit.countContact b)).stop.lockdown = s.stop.lockdown := by cases b <;> rfl
    exact stopsHold_of_lawful (updStop_calm _ s).lawful (fun h => uplift ▸ h) (fun h => kept ▸ h) (fun h => lockdown ▸ h) ok
  dsimp only
  split
  · exact stopsHold_beginEstop counted
  split
  · generalize s.updStop (StopUnit.countContact b) = u at counted ⊢
    have kept := finishEstop_keeps u
    have uplift : (finishEstop u).stop.upliftStop = u.stop.upliftStop := kept.2 .upliftStop (by decide)
    have lockdown : (finishEstop u).stop.lockdown = u.stop.lockdown := kept.2 .lockdown (by decide)
    refine stopsHold_of_lawful ?_ (fun h => uplift ▸ h) (fun h => ?_) (fun h => lockdown ▸ h) counted
    · rw [estop_finishEstop]; exact (finishEstop_calm _).lawful
    · rw [estop_finishEstop] at h; cases h
  · exact counted

/-! ### The commands that end a stop, and POWER_ON (R142, R150, R151) -/

/-- A request keeps the stops in force where its own effect does. -/
theorem stopsHold_request {α : Type} {k : RequestKind} {p : Port} {tag : Byte} {b : Body α} {own : α → State → Reply}
    (h : ∀ a u, u.stopsHold → (own a u).state.stopsHold) (run : request k p tag b own s = .next t)
    (ok : s.stopsHold) : t.stopsHold := by
  have answered (r : Reply) (h : r.state.stopsHold) : (respond p k.code tag r).stopsHold :=
    stopsHold_of_keeps (respond_keeps p _ _ r) (fun _ _ => (respond_calm p _ _ r).lawful) (by decide) h
  have heard := stopsHold_of_keeps (heard_keeps p s) (fun _ _ => (heard_calm p s).lawful) (by decide) ok
  rcases request_cases run with rfl | rfl | ⟨r, rfl, ⟨st, rfl⟩ | ⟨a, -, -, rfl⟩⟩
  · exact ok
  · exact stopsHold_of_keeps (countOverrun_keeps p s) (fun _ _ => (countOverrun_calm p s).lawful) (by decide) ok
  · exact answered _ heard
  · exact answered _ (h a _ heard)

theorem stopsHold_upliftClear (ok : s.stopsHold) : (upliftClearReply s).state.stopsHold := by
  have kept := upliftClearReply_keeps s
  obtain ⟨estop, -⟩ : _ ∧ _ := kept.2 .estop (by decide)
  have lockdown : (upliftClearReply s).state.stop.lockdown = s.stop.lockdown := kept.2 .lockdown (by decide)
  have ends : (upliftClearReply s).state = s ∨ (upliftClearReply s).state.stop.upliftStop = false := by
    unfold upliftClearReply unlessLocked
    split
    · exact .inl rfl
    split
    · exact .inl rfl
    split
    · have kept := forLines_keeps (removeCause .uplift) (s.updStop (fun x => { x with upliftStop := false }))
        (fun l u => removeCause_keeps .uplift l u)
      have cleared : (forLines (removeCause .uplift) (s.updStop (fun x => { x with upliftStop := false }))).stop.upliftStop =
        (s.updStop (fun x => { x with upliftStop := false })).stop.upliftStop := kept.2 .upliftStop (by decide)
      refine .inr ?_
      dsimp only [accept]
      rw [cleared, stop_updStop]
    · exact .inl rfl
  rcases ends with same | ended
  · rwa [same]
  · refine stopsHold_of_lawful ?_ (fun h => ?_) (fun h => estop ▸ h) (fun h => lockdown ▸ h) ok
    · rw [ended]; exact (upliftClearReply_calm s).lawful
    · rw [ended] at h; cases h

theorem lockdown_warmReset (s : State) : (warmReset s).stop.lockdown = false := by
  have kept : keeps [.mixOrder, .queues, .startCheck, .lines, .cuts, .stages, .writes, .exercise, .holdAll]
      (s.updStop (fun x => { x with lockdown := false })) (warmReset s) := by
    unfold warmReset
    dsimp only
    refine (formMixOrder_keeps _).after (by decide) ?_
    refine (settleStartCheck_keeps _).after (by decide) ?_
    refine (setStartCheck_keeps true _).after (by decide) ?_
    refine (forLines_keeps _ _ resetLine_keeps).after (by decide) ?_
    refine (quietExercise_keeps _).after (by decide) ?_
    exact (emptyQueues_keeps _).mono (by decide)
  exact kept.2 .lockdown (by decide)

theorem stopsHold_reset (n : Nat) (ok : s.stopsHold) : (resetReply n s).state.stopsHold := by
  unfold resetReply
  split
  · exact ok
  split
  · exact ok
  · have kept := warmReset_keeps s
    have uplift : (warmReset s).stop.upliftStop = s.stop.upliftStop := kept.2 .upliftStop (by decide)
    obtain ⟨estop, -⟩ : _ ∧ _ := kept.2 .estop (by decide)
    dsimp only [accept]
    refine stopsHold_of_lawful (warmReset_lawful s) (fun h => uplift ▸ h) (fun h => estop ▸ h) (fun h => ?_) ok
    rw [lockdown_warmReset] at h
    cases h

/-- What follows the part built afresh at POWER_ON: its entries, its alerts, the stages suspended, the start check. -/
theorem powerUp_after (a b : Bool) (n : Nat) (s : State) :
    keeps [.queues, .faults, .writes, .stages, .startCheck, .warn] (freshPart a (b && s.clock.valid) n s)
      (powerUp a b n s) := by
  have clock (k : Bool) (u : State) : keeps [.faults, .writes] u
      (if k then u else enterFault .rtcInvalid (.value 0) none .record u) := by
    split
    · exact keeps_refl _ _
    · exact enterFault_keeps _ _ _ _ _
  have store (u : State) : keeps [.queues, .faults, .writes] u
      (if a then u else reportStoreFault (.value 0) none u) := by
    split
    · exact keeps_refl _ _
    · exact reportStoreFault_keeps _ _ _
  unfold powerUp
  dsimp only
  refine (formWarn_keeps _).after (by decide) ?_
  refine (settleStartCheck_keeps _).after (by decide) ?_
  refine (foldl_keeps _ _ _ (fun u k => losePower_keeps k u)).after (by decide) ?_
  refine (store _).after (by decide) ?_
  exact (clock _ _).mono (by decide)

/-- The lines at the end of POWER_ON are those built afresh. -/
theorem line_powerUp (a b : Bool) (n : Nat) (s : State) (l : LineId) :
    (powerUp a b n s).line l =
      Line.atPowerOn (s.store.nv.lines.get l) (s.store.nv.part.getD PartSettings.default).travelTime := by
  rw [(powerUp_after a b n s).line (by decide) (by decide) (by decide), line_freshPart]

theorem powerUp_rest (a b : Bool) (n : Nat) (s : State) (l : LineId) : ((powerUp a b n s).line l).state.live = false := by
  rw [line_powerUp]
  exact (atPowerOn_rest _ _).1

theorem stopsHold_grantClaim {p : Port} {l : LineId} {x : Stage} (h : Claimable p l x s) (ok : s.stopsHold) :
    (grantClaim p l x s).stopsHold := by
  have kept := grantClaim_keeps p l x s
  have uplift : (grantClaim p l x s).stop.upliftStop = false := (kept.2 .upliftStop (by decide)).trans h.upliftStop
  obtain ⟨estop, -⟩ : _ ∧ _ := kept.2 .estop (by decide)
  have lockdown : (grantClaim p l x s).stop.lockdown = false := (kept.2 .lockdown (by decide)).trans h.unlocked
  rw [stopsHold_iff] at ok ⊢
  rw [uplift, estop.trans h.estop, lockdown]
  intro m
  refine ⟨?_, by simp, by simp, by simp⟩
  rw [line_grantClaim]
  split
  · simp [Line.toOpening, Line.drive]
  · exact (ok m).1

/-- Every command keeps the stops in force. -/
theorem exec_stopsHold {c : Instr} (run : exec c s = .next t) (ok : s.stopsHold) : t.stopsHold := by
  have kept := everyCommandKeepsItsFrame c s t run
  cases c with
  | claim p g b =>
    rcases claim_cases run with h | ⟨l, x, r, -, claimable, left, rfl⟩
    · exact stopsHold_of_keeps kept (fun up es => (h up es).lawful) (by dsimp only [footprint]; decide) ok
    · have heard := stopsHold_of_keeps (heard_keeps p s) (fun _ _ => (heard_calm p s).lawful) (by decide) ok
      refine stopsHold_of_keeps (respond_keeps p _ _ r) (fun _ _ => (respond_calm p _ _ r).lawful) (by decide) ?_
      rw [left]
      exact stopsHold_grantClaim claimable heard
  | upliftClear p g b => exact stopsHold_request (fun _ u h => stopsHold_upliftClear h) run ok
  | reset p g b => exact stopsHold_request (fun n u h => stopsHold_reset n h) run ok
  | estopSample b => exact stopsHold_estopSample b run ok
  | lineSampleEvent l n a b d =>
    obtain rfl := Host.Outcome.next.inj run
    split
    · exact stopsHold_lineSample l n a b d ok
    · exact ok
  | gaugeSampleEvent g n =>
    obtain rfl := Host.Outcome.next.inj run
    split
    · exact stopsHold_gaugeSample g n ok
    · exact ok
  | powerOn a b n =>
    obtain rfl := Host.Outcome.next.inj run
    exact stopsHold_of_rest (powerUp_rest a b n s)
  | _ =>
    exact stopsHold_of_keeps kept (fun _ _ => exec_lawful (by simp) (by simp) (by simp) run)
      (by dsimp only [footprint]; decide) ok

theorem stops_open (ok : s.stopsHold)
    (h : s.stop.upliftStop = true ∨ s.stop.estop = true ∨ s.stop.lockdown = true) :
    s.permitClosed = false ∧ ∀ l, (s.line l).state ≠ .injecting := by
  obtain ⟨causes, uplift, estop, lockdown⟩ := ok
  have held {c : HoldCause} {l : LineId} (state : (s.line l).state = .injecting)
      (stands : (s.line l).state.evaluated = true → c ∈ (s.line l).causes) : False := by
    have mem := stands (by rw [state]; rfl)
    rw [causes l state] at mem
    cases mem
  rcases h with h | h | h
  · exact ⟨by simp [State.permitClosed, h], fun l state => held state (uplift h l).2⟩
  · exact ⟨by simp [State.permitClosed, h], fun l state => held state (estop h l).2⟩
  · exact ⟨by simp [State.permitClosed, h], fun l state => by have := lockdown h l; rw [state] at this; cases this⟩

/-- Settles O57: a change that raises no stop keeps it lawful (`stopsHold_of_lawful`); a stop that begins stands on every
line (`stoppedBy_stands`, `enterLockdown_rest`); where one stands, a line without a cause would have to be INJECTING. -/
theorem noInjectionDuringAStop : Obligations.NoInjectionDuringAStop :=
  ⟨fun _ _ ok run => step_induct (fun _ _ h => h) (fun _ _ _ run ok => exec_stopsHold run ok) run ok,
    fun _ ok h => stops_open ok h⟩

end

end Sys2Proof.Machine
end

section
/-! PROOFS. Every step keeps the tables, queues and logs in order and in bounds (R1, R71, R81, R119, R121, R135, R155,
R159, R161, R162). -/

namespace Sys2Proof.Machine

section
variable {up es : Bool} {s t : State} {c : Instr} {A : List Part}

/-! ### The batch list (R121, R125) -/

/-- What `State.tablesOk` asks of the batch list. -/
def batchesOk (bs : List Batch) : Prop := bs.length ≤ 8 ∧ ∀ b ∈ bs, 0 < b.remaining

/-- What is drawn from the batches leaves no more of them, and something in each that is left. -/
theorem batchesOk_drawBatches (w : Nat) {bs : List Batch} (h : batchesOk bs) : batchesOk (drawBatches w bs).1 := by
  induction bs generalizing w with
  | nil => exact h
  | cons b bs ih =>
    obtain ⟨length, positive⟩ := h
    rw [List.length_cons] at length
    unfold drawBatches
    split
    case isTrue enough =>
      refine ⟨by simpa using length, fun d hd => ?_⟩
      rcases List.mem_cons.1 hd with rfl | hd
      · exact Nat.sub_pos_of_lt enough
      · exact positive d (List.mem_cons_of_mem _ hd)
    case isFalse => exact ih _ ⟨by omega, fun d hd => positive d (List.mem_cons_of_mem _ hd)⟩

theorem batches_of_keeps (h : keeps A s t) (hA : .batches ∉ A) : t.grout.batches = s.grout.batches :=
  (h.2 .batches hA).1

theorem batches_takeBatch (a : BatchArgs) (s : State) : (takeBatch a s).grout.batches =
    s.grout.batches ++ [BatchArgs.batch a s.grout.nextBatch s.clock.site] := by
  have aged (b : Bool) (u : State) : (if b then decideAged u else u).grout.batches = u.grout.batches := by
    split
    · exact batches_of_keeps (decideAged_keeps u) (by decide)
    · rfl
  have before := batchAlerts_keeps a.cls s.grout.nextBatch s
  unfold takeBatch
  dsimp only
  rw [aged, batches_of_keeps (tankClassFrom_keeps _ _) (by decide), grout_updGrout, Grout.addBatch,
      batches_of_keeps before (by decide),
    show (batchAlerts a.cls s.grout.nextBatch s).clock = s.clock from before.2 .clock (by decide)]

theorem batches_consume (l : LineId) (w : Nat) (s : State) :
    (consume l w s).grout.batches = (drawBatches w s.grout.batches).1 := by
  have aged (b : Prop) [Decidable b] (u : State) : (if b then decideAged u else u).grout.batches = u.grout.batches := by
    split
    · exact batches_of_keeps (decideAged_keeps u) (by decide)
    · rfl
  unfold consume
  dsimp only
  rw [aged, batches_of_keeps (tankClassFrom_keeps _ _) (by decide), batches_of_keeps
      (drawUnaccounted_keeps _ _ _) (by decide), grout_updGrout]

/-- What taking and answering a request keeps, a request keeps where its own effect does. -/
theorem request_part {P : State → Prop} (hP : ∀ u v, keeps requestParts u v → P u → P v) {α : Type} {k : RequestKind}
    {p : Port} {tag : Byte} {b : Body α} {own : α → State → Reply} (h : ∀ a u, P u → P (own a u).state)
    (run : request k p tag b own s = .next t) (ok : P s) : P t := by
  have heard : P (heard p s) := hP _ _ ((heard_keeps p s).mono (by decide)) ok
  have answered (r : Reply) (h : P r.state) : P (respond p k.code tag r) :=
    hP _ _ ((respond_keeps p _ _ r).mono (by decide)) h
  rcases request_cases run with rfl | rfl | ⟨r, rfl, ⟨st, rfl⟩ | ⟨a, -, -, rfl⟩⟩
  · exact ok
  · exact hP _ _ ((countOverrun_keeps p s).mono (by decide)) ok
  · exact answered _ heard
  · exact answered _ (h a _ heard)

/-- A request refused or let through by the first of its own checks. -/
theorem unlessLocked_part {P : State → Prop} {r : Reply} (ok : P s) (h : P r.state) : P (unlessLocked s r).state := by
  unfold unlessLocked
  split
  · exact ok
  · exact h

theorem batchesOk_batchReport (a : BatchArgs) (ok : batchesOk s.grout.batches) :
    batchesOk (batchReportReply a s).state.grout.batches := by
  refine unlessLocked_part (P := fun u => batchesOk u.grout.batches) ok ?_
  split
  case isTrue => exact ok
  case isFalse inRange =>
    split
    case isTrue => exact ok
    case isFalse room =>
      dsimp only [accept]
      rw [batches_takeBatch]
      obtain ⟨-, positive⟩ := ok
      refine ⟨by rw [List.length_append, List.length_singleton]; omega, fun b hb => ?_⟩
      rcases List.mem_append.1 hb with hb | hb
      · exact positive b hb
      · obtain rfl := List.mem_singleton.1 hb
        simp [BatchArgs.ok, within] at inRange
        simp only [BatchArgs.batch]
        omega

theorem exec_batchesOk (run : exec c s = .next t) (ok : batchesOk s.grout.batches) : batchesOk t.grout.batches := by
  have kept := everyCommandKeepsItsFrame c s t run
  cases c with
  | batchReport p g b =>
    exact request_part (P := fun u => batchesOk u.grout.batches) (fun u v h ok => batches_of_keeps h (by decide) ▸ ok)
      (fun a u => batchesOk_batchReport a) run ok
  | tankDump p g b =>
    refine request_part (P := fun u => batchesOk u.grout.batches) (fun u v h ok => batches_of_keeps h (by decide) ▸ ok)
      (fun _ u ok => unlessLocked_part (P := fun u => batchesOk u.grout.batches) ok ?_) run ok
    dsimp only [accept]
    rw [batches_of_keeps (decideAged_keeps _) (by decide), grout_updGrout]
    exact ⟨by simp, by simp⟩
  | flowPulse l =>
    obtain rfl := Host.Outcome.next.inj run
    have kept (u : State) (f : Line → Line) : (u.updLine l f).grout = u.grout := rfl
    dsimp only
    split
    · split
      · unfold meteredPulse
        dsimp only
        split
        · rw [batches_consume, batches_of_keeps (advanceTransit_keeps _ _ _) (by decide), grout_updLine,
            batches_of_keeps (addProgress_keeps _ _ _) (by decide)]
          exact batchesOk_drawBatches _ ok
        · rw [grout_updLine, batches_of_keeps (addProgress_keeps _ _ _) (by decide)]
          exact ok
      · rw [unmeteredPulse, batches_of_keeps (addProgress_keeps _ _ _) (by decide)]
        exact ok
    · exact ok
  | powerOn a b n =>
    obtain rfl := Host.Outcome.next.inj run
    rw [batches_of_keeps (powerUp_after a b n s) (by decide)]
    exact ⟨Nat.zero_le _, fun b hb => by cases hb⟩
  | _ => exact batches_of_keeps kept (by dsimp only [footprint]; decide) ▸ ok

/-! ### The connection log (R119) -/

theorem connections_of_keeps (h : keeps A s t) (hA : .connections ∉ A) : t.connections = s.connections :=
  h.2 .connections hA

theorem length_connections_connectionEvent (l : LineId) (w : Watch) (b : Nat) (r : Int) (s : State) :
    (connectionEvent l w b r s).connections.records.length ≤ 32 := length_lastN_le 32 _

theorem length_connections_watchEvaluation (l : LineId) (r : Bool) (ok : s.connections.records.length ≤ 32) :
    (watchEvaluation l r s).connections.records.length ≤ 32 := by
  unfold watchEvaluation
  dsimp only
  split
  · exact ok
  split
  · exact ok
  split
  · exact ok
  · generalize Watch.compare _ _ _ = r
    split
    · exact length_connections_connectionEvent _ _ _ _ _
    · exact ok

theorem length_connections_lineSample (l : LineId) (i : Nat) (m a b : Bool) (ok : s.connections.records.length ≤ 32) :
    (lineSample l i m a b s).connections.records.length ≤ 32 := by
  have compared (q r : Sampled) (x : Line) : (valveCompare l (readbackOf a b) (lineChannelEffects .flow 0 r l
      (lineChannelEffects .pressure i q l (s.setLine l x)))).connections = s.connections := by
    rw [connections_of_keeps (valveCompare_keeps l _ _) (by decide), connections_of_keeps
        (lineChannelEffects_keeps _ _ _ l _) (by decide),
      connections_of_keeps (lineChannelEffects_keeps _ _ _ l _) (by decide), connections_of_keeps
          (setLine_keeps_all l x s) (by decide)]
  unfold lineSample
  dsimp only
  rw [connections_of_keeps (settleStartCheck_keeps _) (by decide)]
  split
  case h_4 =>
    refine length_connections_watchEvaluation l _ ?_
    rw [compared]
    exact ok
  case h_1 | h_2 | h_3 =>
    split
    · rw [compared]; exact ok
    · rw [connections_of_keeps (evaluate_keeps l _) (by decide), compared]; exact ok
  all_goals rw [compared]; exact ok

theorem exec_connectionsOk (run : exec c s = .next t) (ok : s.connections.records.length ≤ 32) :
    t.connections.records.length ≤ 32 := by
  have kept := everyCommandKeepsItsFrame c s t run
  cases c with
  | lineSampleEvent l i m a b =>
    obtain rfl := Host.Outcome.next.inj run
    split
    · exact length_connections_lineSample l i m a b ok
    · exact ok
  | powerOn a b n =>
    obtain rfl := Host.Outcome.next.inj run
    rw [connections_of_keeps (powerUp_after a b n s) (by decide)]
    exact Nat.zero_le _
  | _ => exact connections_of_keeps kept (by dsimp only [footprint]; decide) ▸ ok

/-! ### The record queue and its readers (R159) -/

/-- What `State.tablesOk` asks of the record queue and its two readers. -/
def Records.queueOk (r : Records) : Prop :=
  r.records.length ≤ 256 ∧ r.readerC0.standsIn r.records.length ∧ r.readerC1.standsIn r.records.length

theorem queueOk_of_keeps (h : keeps A s t) (ok : s.record.queueOk) (hA : .recordQueue ∉ A) :
    t.record.queueOk := by
  obtain ⟨records, -, c0, c1⟩ : _ ∧ _ ∧ _ ∧ _ := h.2 .recordQueue hA
  rw [Records.queueOk, records, c0, c1]
  exact ok


theorem length_lastN_min {α : Type} (n : Nat) (xs : List α) : (lastN n xs).length = min n xs.length := by
  rw [lastN, List.length_drop]
  omega

/-- A reader that stands in the queue stands in what is left of it once its own records alone are kept. -/
theorem standsIn_trim {m n : Nat} {x : Reader} (h : x.standsIn n) (hm : x.holds ≤ m) : x.standsIn (min m n) := by
  obtain ⟨unread, off⟩ := h
  refine ⟨?_, off⟩
  unfold Reader.holds at hm
  split at hm
  case isTrue => omega
  case isFalse disabled => rw [off (by simpa using disabled)]; exact Nat.zero_le _

theorem queueOk_trim {r : Records} (bound : r.records.length ≤ 256) (c0 : r.readerC0.standsIn r.records.length)
    (c1 : r.readerC1.standsIn r.records.length) : r.trim.queueOk := by
  refine ⟨?_, ?_, ?_⟩ <;> simp only [Records.trim, length_lastN_min]
  · omega
  · exact standsIn_trim c0 (by omega)
  · exact standsIn_trim c1 (by omega)

theorem standsIn_switch {n : Nat} {x : Reader} (on : Bool) (h : x.standsIn n) : (x.switch on).standsIn n := by
  unfold Reader.switch
  split
  · exact h
  · exact ⟨Nat.zero_le _, fun _ => rfl⟩

theorem queueOk_switchReader {r : Records} (n : Nat) (on : Bool) (h : r.queueOk) : (r.switchReader n on).queueOk := by
  obtain ⟨bound, c0, c1⟩ := h
  unfold Records.switchReader
  split
  · exact queueOk_trim bound (standsIn_switch on c0) c1
  · exact queueOk_trim bound c0 (standsIn_switch on c1)

theorem standsIn_read {n m : Nat} {x : Reader} (on : x.enabled = true) (h : x.standsIn n) (hm : m ≤ x.unread) :
    Reader.standsIn n { x with unread := m } :=
  ⟨hm.trans h.1, fun off => by simp [on] at off⟩

theorem queueOk_readRecords (p : Port) (ok : s.record.queueOk) : (readRecordsReply p s).state.record.queueOk := by
  obtain ⟨bound, c0, c1⟩ := ok
  unfold readRecordsReply
  split
  case h_2 => exact ⟨bound, c0, c1⟩
  case h_1 x reader =>
    split
    case isFalse => exact ⟨bound, c0, c1⟩
    case isTrue on =>
      cases p with
      | c0 =>
        obtain rfl := Option.some.inj reader
        exact queueOk_trim bound (standsIn_read on c0 (Nat.sub_le _ _)) c1
      | c1 =>
        obtain rfl := Option.some.inj reader
        exact queueOk_trim bound c0 (standsIn_read on c1 (Nat.sub_le _ _))
      | p0 | p1 | p2 | p3 => cases reader

theorem standsIn_afterWrite {n : Nat} (top : Nat) {x : Reader} (bound : n ≤ 256) (h : x.standsIn n) :
    (x.afterWrite (256 ≤ n) n top).1.standsIn (min 256 (n + 1)) := by
  obtain ⟨unread, off⟩ := h
  unfold Reader.afterWrite
  split
  case isFalse disabled =>
    have zero := off (by simpa using disabled)
    exact ⟨by simp [zero], off⟩
  case isTrue on =>
    split
    case isTrue full =>
      simp only [Bool.and_eq_true, decide_eq_true_eq] at full
      exact ⟨by dsimp only; omega, by simp [on]⟩
    case isFalse room =>
      simp only [Bool.and_eq_true, decide_eq_true_eq, Reader.onOldest, on, beq_iff_eq, Bool.true_and] at room
      exact ⟨by dsimp only; omega, by simp [on]⟩

theorem postSlip_queueOk {p : Port} {n : Nat} {d : Int} {r : Reader × Bool × Bool} (ok : s.record.queueOk) :
    (postSlip p n d r s).record.queueOk := queueOk_of_keeps (postSlip_keeps p n d r s) ok (by decide)

theorem queueOk_appendRecord (e : InjectionRecord) (ok : s.record.queueOk) : (appendRecord e s).record.queueOk := by
  obtain ⟨bound, c0, c1⟩ := ok
  unfold appendRecord
  dsimp only
  split
  · refine postSlip_queueOk (postSlip_queueOk ?_)
    simp only [record_updRecord, Records.queueOk, length_lastN_min, List.length_append, List.length_singleton]
    exact ⟨by omega, standsIn_afterWrite _ bound c0, standsIn_afterWrite _ bound c1⟩
  · exact ⟨bound, c0, c1⟩

theorem queueOk_writeRecord (l : LineId) (k : StageKey) (ok : s.record.queueOk) : (writeRecord l k s).record.queueOk := by
  have written := queueOk_appendRecord (s := s.updLine l (fun x => { x with recordTimer := some 0 }))
    (s.injectionRecord l k) ok
  unfold writeRecord
  dsimp only
  split
  · split
    · exact queueOk_of_keeps (saveStage_keeps k _) written (by decide)
    · exact written
  · exact written

/-- The counts of the readers alone changed. -/
theorem queueOk_slips {r : Records} (f : Counter → Counter) (ok : r.queueOk) :
    Records.queueOk { r with
      readerC0 := { r.readerC0 with slips := f r.readerC0.slips },
      readerC1 := { r.readerC1 with slips := f r.readerC1.slips } } := ok

theorem queueOk_takeSettings (c : PartSettings) (ok : s.record.queueOk) : (takeSettings c s).record.queueOk := by
  have narrowed (u : State) (ok : u.record.queueOk) : (narrowCounters u).record.queueOk := by
    unfold narrowCounters
    dsimp only
    refine queueOk_of_keeps (setStages_keeps _ _) (queueOk_slips (fun c => c.narrow.1) ?_) (by decide)
    refine queueOk_of_keeps (setLevel_keeps _ _) ?_ (by decide)
    refine queueOk_of_keeps (A := [.portCounters, .queues]) (foldl_keeps _ _ _ (fun u p => updPort_keeps p _ u
      (.inl (by decide)) (.inr rfl) (.inl (by decide)) (.inr rfl) (.inr rfl))) ?_ (by decide)
    refine queueOk_of_keeps (foldl_keeps _ _ _ (fun u g => updGauge_keeps g _ u)) ?_ (by decide)
    exact queueOk_of_keeps (forLines_keeps _ u (fun l u => updLine_keeps_all l _ u)) ok (by decide)
  have off (u : State) (ok : u.record.queueOk) : (turnWideOff u).record.queueOk := by
    have line (k : LineChannel) (c : Channel) (l : LineId) (u : State) : keeps [.queues] u (postLineSaturated k c l u) := by
      unfold postLineSaturated
      split
      · exact postLine_keeps _ _ _ _
      · exact keeps_refl _ _
    unfold turnWideOff
    dsimp only
    refine queueOk_of_keeps (foldl_keeps _ _ _ (fun u d => postSaturated_keeps true d u)) ?_ (by decide)
    refine queueOk_of_keeps (forLines_keeps _ _ (fun l u => (line _ _ l _).after (by decide) (line _ _ l u))) ?_
        (by decide)
    exact narrowed u ok
  unfold takeSettings
  dsimp only
  refine queueOk_of_keeps (changeGauges_keeps _ _) ?_ (by decide)
  have written := queueOk_of_keeps (writeThrough_keeps (.part c) _)
      (queueOk_of_keeps (setSettings_keeps c s) ok (by decide)) (by decide)
  split
  · exact off _ written
  · exact written

theorem queueOk_clearCounters (n : Nat) (ok : s.record.queueOk) : (clearCountersReply n s).state.record.queueOk := by
  refine unlessLocked_part (P := fun u => u.record.queueOk) ok ?_
  split
  · dsimp only [accept, clearAllCounters]
    refine queueOk_of_keeps (setUnaccounted_keeps 0 _) (queueOk_slips (fun _ => Counter.zero) ?_) (by decide)
    refine queueOk_of_keeps (A := [.portCounters, .queues]) (foldl_keeps _ _ _ (fun u p => updPort_keeps p _ u
      (.inl (by decide)) (.inr rfl) (.inl (by decide)) (.inr rfl) (.inr rfl))) ?_ (by decide)
    exact queueOk_of_keeps (foldl_keeps _ _ _ (fun u n => clearChannel_keeps n u)) ok (by decide)
  split
  · exact queueOk_of_keeps (clearChannel_keeps n s) ok (by decide)
  · exact ok

theorem exec_queueOk (run : exec c s = .next t) (ok : s.record.queueOk) : t.record.queueOk := by
  have kept := everyCommandKeepsItsFrame c s t run
  have hP : ∀ u v, keeps requestParts u v → u.record.queueOk → v.record.queueOk :=
      fun u v h ok => queueOk_of_keeps h ok (by decide)
  have hL {u : State} {r : Reply} := unlessLocked_part (s := u) (r := r) (P := fun u => u.record.queueOk)
  cases c with
  | readRecords p g b => exact request_part hP (fun _ u ok => queueOk_readRecords p ok) run ok
  | readerEnable p g b =>
    refine request_part hP (fun a u ok => hL ok ?_) run ok
    split
    · exact queueOk_of_keeps (writeThrough_keeps _ _) (queueOk_switchReader _ _ ok) (by decide)
    · exact ok
  | partConfig p g b =>
    refine request_part hP (fun a u ok => hL ok ?_) run ok
    split
    · exact ok
    · split
      · exact ok
      · exact queueOk_takeSettings _ ok
  | clearCounters p g b =>
    exact request_part hP (fun n u ok => queueOk_clearCounters n ok) run ok
  | recordInterval l =>
    obtain rfl := Host.Outcome.next.inj run
    split
    · unfold withBound
      split
      · exact queueOk_writeRecord _ _ ok
      · exact ok
    · exact ok
  | powerOn a b n =>
    obtain rfl := Host.Outcome.next.inj run
    refine queueOk_of_keeps (powerUp_after a b n s) ?_ (by decide)
    exact ⟨Nat.zero_le _, ⟨Nat.zero_le _, fun _ => rfl⟩, ⟨Nat.zero_le _, fun _ => rfl⟩⟩
  | _ => exact queueOk_of_keeps kept ok (by dsimp only [footprint]; decide)

/-! ### The tables -/

theorem tablesOk_iff (s : State) : s.tablesOk ↔ s.booksOk ∧ (∀ l, (s.line l).listsOk) ∧ batchesOk s.grout.batches ∧
    s.connections.records.length ≤ 32 ∧ s.record.queueOk := by
  unfold State.tablesOk State.booksOk batchesOk Records.queueOk
  tauto

theorem exec_booksOk (run : exec c s = .next t) (books : s.booksOk) (lists : ∀ l, (s.line l).listsOk) :
    t.booksOk ∧ ∀ l, (t.line l).listsOk := by
  have of_lawful {u v : State} (h : lawful true true u v) (ok : u.booksOk ∧ ∀ l, (u.line l).listsOk) :
      v.booksOk ∧ ∀ l, (v.line l).listsOk := ⟨h.books ok.1, fun l => (h.lines l).lists (ok.2 l)⟩
  by_cases hc : ∀ p g b, c ≠ .claim p g b
  · have h := exec_lawful (up := false) (es := false) hc (by simp) (by simp) run
    exact ⟨h.books books, fun l => (h.lines l).lists (lists l)⟩
  · push Not at hc
    obtain ⟨p, g, b, rfl⟩ := hc
    rcases claim_cases run with h | ⟨l, x, r, -, -, left, rfl⟩
    · exact of_lawful (h true true).lawful ⟨books, lists⟩
    · have heard := of_lawful (heard_calm p s).lawful ⟨books, lists⟩
      refine of_lawful (respond_calm p _ _ r).lawful ?_
      rw [left]
      refine ⟨books_grantClaim p l x heard.1, fun m => ?_⟩
      rw [line_grantClaim]
      split
      · exact toOpening_listsOk _ _ _ _ _
      · exact heard.2 m

/-- Settles O56: the books and the lists of the lines by `exec_lawful`, the batch list, the connection log and the record
queue by the few commands that may change them. -/
theorem everyStepKeepsTheTables : Obligations.EveryStepKeepsTheTables := by
  refine fun _ _ ok run => step_induct (fun _ _ h => h) (fun c s t run ok => ?_) run ok
  obtain ⟨books, lists, batches, connections, queue⟩ := (tablesOk_iff s).1 ok
  obtain ⟨books', lists'⟩ := exec_booksOk run books lists
  exact (tablesOk_iff t).2 ⟨books', lists', exec_batchesOk run batches, exec_connectionsOk run connections,
    exec_queueOk run queue⟩

end

end Sys2Proof.Machine
end

section
/-! PROOFS. The part after reset meets the invariants. -/

namespace Sys2Proof.Machine

theorem line_reset (l : LineId) : State.reset.line l = Line.atPowerOn none PartSettings.default.travelTime := by
  fin_cases l <;> rfl

theorem length_queue_reset (p : Port) : (State.reset.port p).queue.length ≤ 16 := by
  cases p <;> decide

/-- A line in CLOSING without a grant, or at rest, agrees with its valve. -/
theorem grantOk_atPowerOn (c : Option LineSettings) (n : Nat) : (Line.atPowerOn c n).grantOk := by
  obtain ⟨live, command, travel, grant, stage, -⟩ := atPowerOn_rest c n
  exact ⟨by simp [live, command], fun w h => (travel w h).trans command.symm, by simp [live], by simp [grant],
    fun _ _ => ⟨grant, stage⟩⟩

/-- Settles O60: the lines are those built afresh (`atPowerOn_rest`), and every list is empty. -/
theorem resetMeetsTheInvariants : Obligations.ResetMeetsTheInvariants := by
  have rest (l : LineId) := atPowerOn_rest none PartSettings.default.travelTime
  have live (l : LineId) : (State.reset.line l).state.live = false := by
    rw [line_reset]; exact (rest l).1
  have owner (l : LineId) : (State.reset.line l).owner = none := by
    obtain ⟨-, -, -, grant, -, -⟩ := rest l
    rw [line_reset, Line.owner, grant]
    rfl
  have carried (l : LineId) : (State.reset.line l).carried = none := by
    rw [Line.carried, live]; rfl
  refine ⟨?_, stopsHold_of_rest live, ⟨fun l => ?_, fun l p h => ?_, fun l m p h => ?_⟩, ?_⟩
  · have empty : tableOk [] [] := ⟨List.Pairwise.nil, Nat.zero_le _, List.nodup_nil, by simp⟩
    refine (tablesOk_iff _).2 ⟨⟨empty, ⟨fun n => ?_, fun _ => rfl⟩, fun p => ?_, Nat.zero_le _, Nat.zero_le _⟩,
      fun l => ?_, ⟨Nat.zero_le _, by decide⟩, Nat.zero_le _, Nat.zero_le _, ⟨Nat.zero_le _, fun _ => rfl⟩,
      ⟨Nat.zero_le _, fun _ => rfl⟩⟩
    · simpa [Store.copyAfter, State.reset, NvCopy.factory] using empty
    · exact length_queue_reset p
    · rw [line_reset]
      obtain ⟨-, -, -, -, -, lists⟩ := rest l
      exact lists
  · rw [line_reset]; exact grantOk_atPowerOn _ _
  · rw [owner] at h; cases h
  · rw [owner] at h; cases h
  · refine ⟨List.Pairwise.nil, List.Pairwise.nil, by simp [State.reset], fun l h => ?_, fun l m k h => ?_⟩
    · rw [live] at h; cases h
    · rw [carried] at h; cases h

end Sys2Proof.Machine
end

section
/-! PROOFS. Every step keeps each ACTIVE stage on one line (R1, R11). -/

namespace Sys2Proof.Machine

section
variable {up es : Bool} {s t u : State} {ls ls' : List LineId} {ks ks' : List StageKey}

/-! ### What carries a stage, from one state to the next -/

/-- In key order a record of the table is the one its key finds. -/
theorem lookupStage_of_mem {x : Stage} {xs : List Stage} (order : inKeyOrder xs) (h : x ∈ xs) :
    lookupStage x.key xs = some x := by
  induction xs with
  | nil => cases h
  | cons y ys ih =>
    obtain ⟨first, rest⟩ := List.pairwise_cons.1 order
    rw [lookupStage_cons]
    rcases List.mem_cons.1 h with rfl | later
    · rw [if_pos rfl]
    · have before := first x later
      rw [if_neg (fun e => by rw [e, keyBefore_irrefl] at before; cases before)]
      exact ih rest later

theorem carriersOk_iff (s : State) : s.carriersOk ↔
    inKeyOrder s.store.stages ∧ inKeyOrder s.store.nv.stages ∧
    (∀ k, s.activeAt k → ∃ l, (s.line l).carried = some k) ∧
    (∀ l, (s.line l).state.live = true → ∃ k, (s.line l).carried = some k ∧ s.activeAt k) ∧
    (∀ l m k, (s.line l).carried = some k → (s.line m).carried = some k → l = m) := by
  unfold State.carriersOk
  refine and_congr_right (fun order => and_congr_right (fun _ => and_congr ?_ (and_congr ?_ Iff.rfl)))
  · constructor
    · rintro h k ⟨x, found, active⟩
      obtain rfl : x.key = k := key_of_lookupStage found
      exact h x (List.mem_of_find?_eq_some found) active
    · intro h x mem active
      exact h x.key ⟨x, lookupStage_of_mem order mem, active⟩
  · refine forall_congr' (fun l => imp_congr_right (fun live => ?_))
    simp only [Line.carried, live, if_true, State.activeAt]
    exact exists_congr (fun k => ⟨fun ⟨x, stage, found, active⟩ => ⟨stage, x, found, active⟩,
      fun ⟨stage, x, found, active⟩ => ⟨x, stage, found, active⟩⟩)

/-- Some lines are taken out of OPENING, ARMED, INJECTING and HOLDING, and some stages are ACTIVE no more. -/
structure Moved (ls : List LineId) (ks : List StageKey) (s t : State) : Prop where
  keys : t.store.stages.map Stage.key = s.store.stages.map Stage.key
  nv : t.store.nv = s.store.nv
  others : ∀ m, m ∉ ls → (t.line m).carried = (s.line m).carried ∧ (t.line m).state.live = (s.line m).state.live
  rest : ∀ m, m ∈ ls → (t.line m).state.live = false
  active : ∀ j, t.activeAt j ↔ s.activeAt j ∧ j ∉ ks

theorem calm.moved (h : calm up es s t) : Moved [] [] s t :=
  ⟨h.keys, h.nv, fun m _ => ⟨(h.lines m).carried, (h.lines m).live⟩, by simp, fun j => by simpa using h.active j⟩

theorem Moved.trans (h : Moved ls ks s t) (h' : Moved ls' ks' t u) : Moved (ls ++ ls') (ks ++ ks') s u := by
  refine ⟨h'.keys.trans h.keys, h'.nv.trans h.nv, fun m hm => ?_, fun m hm => ?_, fun j => ?_⟩
  · rw [List.mem_append, not_or] at hm
    obtain ⟨carried, live⟩ := h.others m hm.1
    obtain ⟨carried', live'⟩ := h'.others m hm.2
    exact ⟨carried'.trans carried, live'.trans live⟩
  · by_cases later : m ∈ ls'
    · exact h'.rest m later
    · rw [(h'.others m later).2]
      exact h.rest m ((List.mem_append.1 hm).resolve_right later)
  · rw [h'.active, h.active, List.mem_append, not_or, and_assoc]

theorem Moved.then_calm (h : Moved ls ks s t) (h' : calm up es t u) : Moved ls ks s u := by
  simpa using h.trans h'.moved

theorem Moved.after_calm (h' : Moved ls ks t u) (h : calm up es s t) : Moved ls ks s u := by
  simpa using h.moved.trans h'

/-- A stage that is not ACTIVE is none that could stop being so. -/
theorem Moved.absent {k : StageKey} (h : Moved ls (k :: ks) s t) (hk : ¬ s.activeAt k) : Moved ls ks s t := by
  refine ⟨h.keys, h.nv, h.others, h.rest, fun j => ?_⟩
  rw [h.active, List.mem_cons, not_or]
  exact and_congr_right (fun a => and_iff_right (fun e => hk (e ▸ a)))

/-- Where the stages that are ACTIVE no more are those that the lines carried, each ACTIVE stage is still carried by one
line. -/
theorem carriersOk_of_moved (h : Moved ls ks s t) (hk : ∀ j, j ∈ ks ↔ ∃ m ∈ ls, (s.line m).carried = some j)
    (ok : s.carriersOk) : t.carriersOk := by
  rw [carriersOk_iff] at ok ⊢
  obtain ⟨order, copied, carried, live, once⟩ := ok
  have same (m : LineId) (k : StageKey) (c : (t.line m).carried = some k) : m ∉ ls ∧ (s.line m).carried = some k := by
    by_cases hm : m ∈ ls
    · rw [Line.carried, h.rest m hm] at c
      cases c
    · exact ⟨hm, (h.others m hm).1 ▸ c⟩
  refine ⟨(inKeyOrder_iff _).2 (h.keys ▸ (inKeyOrder_iff _).1 order), h.nv ▸ copied, fun k a => ?_, fun l hl => ?_,
    fun l m k c c' => once l m k (same l k c).2 (same m k c').2⟩
  · obtain ⟨before, kept⟩ := (h.active k).1 a
    obtain ⟨l, c⟩ := carried k before
    have hl : l ∉ ls := fun hl => kept ((hk k).2 ⟨l, hl, c⟩)
    exact ⟨l, (h.others l hl).1.trans c⟩
  · have hm : l ∉ ls := fun hm => by rw [h.rest l hm] at hl; cases hl
    obtain ⟨sameCarried, sameLive⟩ := h.others l hm
    obtain ⟨k, c, a⟩ := live l (sameLive ▸ hl)
    refine ⟨k, sameCarried.trans c, (h.active k).2 ⟨a, fun hks => ?_⟩⟩
    obtain ⟨m, hmem, c'⟩ := (hk k).1 hks
    exact hm (once l m k c c' ▸ hmem)

theorem carriersOk_of_calm (h : calm up es s t) (ok : s.carriersOk) : t.carriersOk :=
  carriersOk_of_moved h.moved (by simp) ok

/-- One line, with the stage it carried. -/
theorem carriersOk_of_line {l : LineId} (h : Moved [l] (s.line l).carried.toList s t) (ok : s.carriersOk) :
    t.carriersOk :=
  carriersOk_of_moved h (fun j => by simp) ok

/-! ### The operations that end a stage or close a line -/

/-- A change of the lines alone that takes one of them out of the four states. -/
theorem moved_of_line {A : List Part} {l : LineId} (h : keeps A s t) (others : ∀ m, m ≠ l → t.line m = s.line m)
    (rest : (t.line l).state.live = false) (hs : .stages ∉ A) (hn : .nvCopy ∉ A) :
    Moved [l] [] s t := by
  have stages : t.store.stages = s.store.stages := h.2 .stages hs
  refine ⟨by rw [stages], h.2 .nvCopy hn, fun m hm => ?_, fun m hm => ?_, fun j => ?_⟩
  · rw [others m (by simpa using hm)]
    exact ⟨rfl, rfl⟩
  · rw [List.mem_singleton.1 hm]
    exact rest
  · simpa using activeAt_congr stages j

theorem closeLine_moved (r : EndReason) (l : LineId) (s : State) : Moved [l] [] s (closeLine r l s) := by
  refine moved_of_line (closeLine_keeps r l s) (fun m hm => ?_) ?_ (by decide) (by decide)
  · rw [line_closeLine, if_neg hm]
  · rw [line_closeLine, if_pos rfl]
    rfl

/-- One stage's record changed, its key kept, to a status other than ACTIVE. -/
theorem updStage_moved {k : StageKey} {f : Stage → Stage} (hf : ∀ x, (f x).key = x.key)
    (ha : ∀ x, (f x).status ≠ .active) (s : State) : Moved [] [k] s (s.updStage k f) := by
  refine ⟨map_key_mapStage k f hf _, rfl, fun m _ => ⟨rfl, rfl⟩, by simp, fun j => ?_⟩
  simp only [State.activeAt, stage_updStage s k j f hf, List.mem_singleton]
  split
  case isTrue same =>
    constructor
    · rintro ⟨x, found, active⟩
      obtain ⟨y, -, rfl⟩ := Option.map_eq_some_iff.1 found
      exact absurd active (ha y)
    · exact fun h => absurd same h.2
  case isFalse differs => simp [differs]

/-- A stage that is not ACTIVE, or not in the table, left as it is. -/
theorem moved_of_inactive {k : StageKey} (h : ¬ s.activeAt k) : Moved [] [k] s s := by
  refine ⟨rfl, rfl, fun m _ => ⟨rfl, rfl⟩, by simp, fun j => ?_⟩
  rw [List.mem_singleton]
  exact ⟨fun a => ⟨a, by rintro rfl; exact h a⟩, fun a => a.1⟩

theorem not_activeAt_of_none {k : StageKey} (h : s.stage? k = none) : ¬ s.activeAt k := by
  rintro ⟨x, found, -⟩
  rw [h] at found
  cases found

theorem not_activeAt_of_status {k : StageKey} {x : Stage} (h : s.stage? k = some x) (hx : x.status ≠ .active) :
    ¬ s.activeAt k := by
  rintro ⟨y, found, active⟩
  obtain rfl : x = y := Option.some.inj (h.symm.trans found)
  exact hx active

theorem returnToReady_moved (k : StageKey) (s : State) : Moved [] [k] s (returnToReady k s) := by
  unfold returnToReady
  split
  case h_1 x found =>
    split
    case isTrue =>
      exact (updStage_moved (by intro; rfl) (by intro _ h; cases h) s).then_calm (saveStage_calm (up := true) (es := true) k _)
    case isFalse h => exact moved_of_inactive (not_activeAt_of_status found h)
  case h_2 absent => exact moved_of_inactive (not_activeAt_of_none absent)

theorem suspendStage_moved (l : Option LineId) (k : StageKey) (c : EndCause) (s : State) :
    Moved [] [k] s (suspendStage l k c s) := by
  unfold suspendStage
  split
  case h_1 x found =>
    split
    case isTrue =>
      refine (updStage_moved ?_ ?_ s).then_calm
        ((saveStage_calm (up := true) (es := true) k _).trans (postStage_calm _ _ _ _ _))
      · exact fun _ => rfl
      · intro _ h; cases h
    case isFalse h => exact moved_of_inactive (not_activeAt_of_status found h)
  case h_2 absent => exact moved_of_inactive (not_activeAt_of_none absent)

theorem finishStage_moved (l : Option LineId) (k : StageKey) {st : StageStatus} (hst : st ≠ .active) (c : EndCause)
    (v : Option Computed) (s : State) : Moved [] [k] s (finishStage l k st c v s) := by
  unfold finishStage
  split
  case h_2 absent => exact moved_of_inactive (not_activeAt_of_none absent)
  case h_1 x found =>
    have saved (f : Stage → Stage) (hf : ∀ x, (f x).key = x.key) :
        (summaryOf x c s.clock.site v).key ∈ (saveStage k (s.updStage k f)).store.stages.map Stage.key := by
      rw [(saveStage_calm (up := true) (es := true) k _).keys, key_summaryOf,
        show x.key = k from key_of_lookupStage found]
      exact (map_key_mapStage k f hf s.store.stages).symm ▸ mem_keys_of_stage found
    refine (updStage_moved ?_ ?_ s).then_calm (((saveStage_calm (up := true) (es := true) k _).trans
      (addSummary_calm (saved _ ?_))).trans (postStage_calm _ _ _ _ _))
    · exact fun _ => rfl
    · exact fun _ => hst
    · exact fun _ => rfl

theorem completeStage_moved (l : Option LineId) (k : StageKey) (c : EndCause) (v : Option Computed) (s : State) :
    Moved [] [k] s (completeStage l k c v s) :=
  (finishStage_moved l k (by decide) c v s).then_calm
    (foldl_calm (up := true) (es := true) _ _ _ (fun s k => examineBlocked_calm k s))

/-- A line closed with an operation on its stage. -/
theorem closed_moved {f : StageKey → State → State} (hf : ∀ k s, Moved [] [k] s (f k s)) (r : EndReason) (l : LineId)
    (s : State) : Moved [l] (s.line l).stage.toList s (withBound l f (closeLine r l s)) := by
  have stage : ((closeLine r l s).line l).stage = (s.line l).stage := by
    rw [line_closeLine, if_pos rfl]
    rfl
  unfold withBound
  rw [stage]
  cases (s.line l).stage with
  | none => exact closeLine_moved r l s
  | some k => simpa using (closeLine_moved r l s).trans (hf k _)

theorem carried_of_live {x : Line} (h : x.state.live = true) : x.carried = x.stage := by
  rw [Line.carried, h]
  rfl

theorem carriersOk_closed {f : StageKey → State → State} (hf : ∀ k s, Moved [] [k] s (f k s)) {l : LineId}
    (live : (s.line l).state.live = true) (r : EndReason) (ok : s.carriersOk) :
    (withBound l f (closeLine r l s)).carriersOk := by
  refine carriersOk_of_line (l := l) ?_ ok
  rw [carried_of_live live]
  exact closed_moved hf r l s

/-! ### The units (05, 08) -/

/-- Each line in turn. -/
theorem carriersOk_forLines {f : LineId → State → State} (h : ∀ l s, s.carriersOk → (f l s).carriersOk)
    (ok : s.carriersOk) : (forLines f s).carriersOk := by
  have each (ls : List LineId) (s : State) (ok : s.carriersOk) : (ls.foldl (fun s l => f l s) s).carriersOk := by
    induction ls generalizing s with
    | nil => exact ok
    | cons l ls ih => exact ih _ (h l s ok)
  exact each _ _ ok

theorem stopLines_carriersOk (c : HoldCause) (r : EndReason) (ok : s.carriersOk) : (stopLines c r s).carriersOk := by
  refine carriersOk_forLines (fun l s ok => ?_)
    (carriersOk_of_calm (up := true) (es := true) (forLines_calm _ _ (fun l s => addCause_calm c l s)) ok)
  unfold closeOpening
  split
  case isTrue opening =>
    exact carriersOk_closed (fun k s => returnToReady_moved k s) (by rw [opening]; rfl) r ok
  case isFalse => exact ok

theorem latchUpliftStop_carriersOk (g : GaugeId) (ok : s.carriersOk) : (latchUpliftStop g s).carriersOk := by
  unfold latchUpliftStop
  dsimp only
  refine stopLines_carriersOk _ _ (carriersOk_of_calm (up := true) (es := true) ?_ ok)
  refine calm.trans (calm.trans (calm.trans ?_ (calm_of_keeps (setExercise_keeps 0 _) (by decide)))
      (postPart_calm _ _ _))
    (enterFault_calm _ _ _ _ _)
  exact calm_of_keeps (setUpliftStop_keeps true s) (by decide)

theorem beginEstop_carriersOk (ok : s.carriersOk) : (beginEstop s).carriersOk := by
  unfold beginEstop
  dsimp only
  refine stopLines_carriersOk _ _ (carriersOk_of_calm (up := true) (es := true) ?_ ok)
  refine calm.trans (calm.trans (calm.trans ?_ (calm_of_keeps (setExercise_keeps 0 _) (by decide)))
      (postPart_calm _ _ _))
    (enterFault_calm _ _ _ _ _)
  exact calm_of_keeps (setEstop_keeps true s) (by decide)

/-- A line's grant cut and the line taken out of the four states, and its stage dealt with. -/
theorem cut_moved {f : Line → Line} (r : EndReason) (l : LineId) (s : State) (hs : ∀ x, (f x).settingsPart = x.settingsPart)
    (hm : ∀ x, (f x).meterPart = x.meterPart) (rest : (f { s.line l with grant := none }).state.live = false) :
    Moved [l] [] s ((cutGrant r l s).updLine l f) := by
  refine moved_of_line (A := [.lines, .cuts]) ((updLine_keeps l f _ hs hm).after (by decide) (cutGrant_keeps r l s))
    (fun m hm => ?_) ?_ (by decide) (by decide)
  · rw [line_updLine, if_neg hm, line_cutGrant, if_neg hm]
  · rw [line_updLine_self, line_cutGrant, if_pos rfl]
    exact rest

theorem lockLine_carriersOk (l : LineId) (ok : s.carriersOk) : (lockLine l s).carriersOk := by
  have closing := cut_moved .lockdown l s (f := Line.toClosing s.settings.travelTime) (by intro; rfl) (by intro; rfl) rfl
  have stage : (((cutGrant .lockdown l s).updLine l (Line.toClosing s.settings.travelTime)).line l).stage =
      (s.line l).stage := by
    rw [line_updLine_self, line_cutGrant, if_pos rfl]
    rfl
  have locked (live : (s.line l).state.live = true) : (withBound l (fun k s => suspendStage (some l) k .lockdown s)
      ((cutGrant .lockdown l s).updLine l (Line.toClosing s.settings.travelTime))).carriersOk := by
    refine carriersOk_of_line (l := l) ?_ ok
    unfold withBound
    rw [carried_of_live live, stage]
    cases (s.line l).stage with
    | none => exact closing
    | some k => simpa using closing.trans (suspendStage_moved _ k _ _)
  unfold lockLine
  split
  case h_5 state =>
    refine carriersOk_of_line (l := l) ?_ ok
    rw [Line.carried, state]
    refine moved_of_line (cutGrant_keeps _ _ _) (fun m hm => ?_) ?_ (by decide) (by decide)
    · rw [line_cutGrant, if_neg hm]
    · rw [line_cutGrant, if_pos rfl]
      dsimp only
      rw [state]
      rfl
  case h_1 state | h_2 state | h_3 state | h_4 state => exact locked (by rw [state]; rfl)
  all_goals exact ok

theorem enterLockdown_carriersOk (code : FaultCode) (l : LineId) (ok : s.carriersOk) :
    (enterLockdown code l s).carriersOk := by
  unfold enterLockdown
  dsimp only
  refine carriersOk_of_calm (up := true) (es := true) (formMixOrder_calm _) ?_
  refine carriersOk_forLines (fun l s ok => lockLine_carriersOk l ok) (carriersOk_of_calm (up := true) (es := true) ?_ ok)
  refine calm.trans (calm.trans (calm.trans ?_ (post_calm _ _ _)) (enterFault_calm _ _ _ _ _))
    (calm_of_keeps (setExercise_keeps 0 _) (by decide))
  exact calm_of_keeps (setLockdown_keeps true s) (by decide)

/-- What a valve fault does to the stage that the line was bound to. -/
theorem faultStage_moved (l : LineId) (x : Line) (s : State) :
    Moved [] x.carried.toList s (faultStage l x.state x.stage s) := by
  have same : Moved [] [] s s := (calm_refl (up := true) (es := true) s).moved
  unfold faultStage Line.carried
  cases x.stage with
  | none => simpa using same
  | some k =>
    cases x.state with
    | opening => exact returnToReady_moved k s
    | armed | injecting | holding => exact suspendStage_moved _ k _ s
    | idle | watch | closing | isolated => exact same

theorem valveFault_carriersOk (f : ValveFault) (rb : Readback) (l : LineId) (ok : s.carriersOk) :
    (valveFault f rb l s).carriersOk := by
  have faulted : (faultLine f rb l s).carriersOk := by
    refine carriersOk_of_line (l := l) ?_ ok
    have isolated := cut_moved .valveFault l s (f := Line.isolateFor f (cutGrant .valveFault l s).settings.travelTime)
      (isolateFor_settings f _) (isolateFor_meters f _) (by unfold Line.isolateFor; split <;> rfl)
    unfold faultLine
    dsimp only
    refine Moved.then_calm (up := true) (es := true) ?_ (enterFault_calm _ _ _ _ _)
    refine Moved.then_calm (up := true) (es := true) ?_ (post_calm _ _ _)
    simpa using (isolated.then_calm (formMixOrder_calm (up := true) (es := true) _)).trans (faultStage_moved l (s.line l) _)
  rw [valveFault_eq]
  split
  · exact enterLockdown_carriersOk _ _ faulted
  · exact faulted

theorem valveCompare_carriersOk (l : LineId) (rb : Readback) (ok : s.carriersOk) : (valveCompare l rb s).carriersOk := by
  have read (n : Nat) : (s.setLine l { (s.line l).readValve rb with invalid := n }).carriersOk :=
    carriersOk_of_calm (up := true) (es := true) (setLine_calm (.readValve rb n _)) ok
  unfold valveCompare
  dsimp only
  split
  · exact read _
  split
  · exact valveFault_carriersOk _ _ _ (read 0)
  · exact valveFault_carriersOk _ _ _ (read _)
  · exact carriersOk_of_calm (up := true) (es := true) (confirmValve_calm l _) (read _)

/-- The end of a stage that its line carries (R104). -/
theorem endStage_carriersOk {l : LineId} {k : StageKey} (h : (s.line l).carried = some k) (c : EndCause) (r : EndReason)
    (ok : s.carriersOk) : (endStage l k c r s).carriersOk := by
  refine carriersOk_of_line (l := l) ?_ ok
  rw [h, endStage]
  simpa using (completeStage_moved (some l) k c (s.line l).values s).trans (closeLine_moved r l _)

theorem stageEndUnit_carriersOk {l : LineId} {st : LineState} {x : Stage} {c : Computed}
    (h : st = .injecting → (s.line l).carried = some x.key) (ok : s.carriersOk) :
    (stageEndUnit l st x c s).carriersOk := by
  have counted (f : DecisionRecord → DecisionRecord) : calm true true s (updDecision l f s) := updDecision_calm l f s
  unfold stageEndUnit
  split
  · exact carriersOk_of_calm (counted _) ok
  split
  · dsimp only
    split
    · refine endStage_carriersOk ?_ _ _ (carriersOk_of_calm (counted _) ok)
      rw [((counted _).lines l).carried]
      exact h rfl
    · exact carriersOk_of_calm (((counted _).trans (overpressureStep_calm _ _ _)).trans (fractureStep_calm _ _ _ _)) ok
  · exact carriersOk_of_calm (up := true) (es := true) (overpressureStep_calm _ _ _) ok
  all_goals exact ok

theorem evaluate_carriersOk (l : LineId) (ok : s.carriersOk) : (evaluate l s).carriersOk := by
  unfold evaluate
  split
  · exact ok
  case h_2 x bound =>
    obtain ⟨k, stage, found⟩ := Option.bind_eq_some_iff.1 bound
    obtain rfl : x.key = k := key_of_lookupStage found
    have recorded (c : Computed) : calm true true s (recordEvaluation l c s) := recordEvaluation_calm l c s
    have judged (c : Computed) : (stageEndUnit l (s.line l).state x c (recordEvaluation l c s)).carriersOk := by
      refine stageEndUnit_carriersOk (fun state => ?_) (carriersOk_of_calm (recorded c) ok)
      rw [((recorded c).lines l).carried, carried_of_live (by rw [state]; rfl)]
      exact stage
    dsimp only
    split
    · exact carriersOk_of_calm (up := true) (es := true) (dropPendingVolume_calm l _) (judged _)
    split
    · exact carriersOk_of_calm (up := true) (es := true) (thickenLine_calm l _ _ _) (judged _)
    · exact judged _

theorem lineSample_carriersOk (l : LineId) (i : Nat) (m a b : Bool) (ok : s.carriersOk) :
    (lineSample l i m a b s).carriersOk := by
  have compared (q r : Sampled) := valveCompare_carriersOk l (readbackOf a b) (carriersOk_of_calm (up := true) (es := true)
    (((setLine_calm (s := s) (l := l) (sampleLine_calm s.counterTop s.settings.lossCount i m (s.line l))).trans
      (lineChannelEffects_calm .pressure i q l _)).trans (lineChannelEffects_calm .flow 0 r l _)) ok)
  unfold lineSample
  dsimp only
  refine carriersOk_of_calm (up := true) (es := true) (settleStartCheck_calm _) ?_
  split
  case h_4 => exact carriersOk_of_calm (up := true) (es := true) (watchEvaluation_calm l _ _) (compared _ _)
  case h_1 | h_2 | h_3 =>
    split
    · exact compared _ _
    · exact evaluate_carriersOk l (compared _ _)
  all_goals exact compared _ _

theorem gaugeSample_carriersOk (g : GaugeId) (i : Nat) (ok : s.carriersOk) : (gaugeSample g i s).carriersOk := by
  have judged {u : State} (ok : u.carriersOk) : (judgeGauge g u).carriersOk := by
    have set (x : Gauge) : (u.setGauge g x).carriersOk :=
      carriersOk_of_calm (up := true) (es := true) (calm_of_keeps (setGauge_keeps g x u) (by decide)) ok
    unfold judgeGauge
    dsimp only
    split
    · refine carriersOk_of_calm (up := true) (es := true) (updGauge_calm g _ _) ?_
      split
      · exact latchUpliftStop_carriersOk g (set _)
      · exact set _
    · exact set _
  unfold gaugeSample
  dsimp only
  refine carriersOk_of_calm (up := true) (es := true) (formWarn_calm _) (judged ?_)
  exact carriersOk_of_calm (up := true) (es := true) ((updGauge_calm g _ s).trans (partChannelEffects_calm _ _ _ _ _ _ _)) ok

theorem estopSample_carriersOk (b : Bool) (run : exec (.estopSample b) s = .next t) (ok : s.carriersOk) :
    t.carriersOk := by
  obtain rfl := Host.Outcome.next.inj run
  have counted := carriersOk_of_calm (up := true) (es := false) (updStop_calm (StopUnit.countContact b) s) ok
  dsimp only
  split
  · exact beginEstop_carriersOk counted
  split
  · exact carriersOk_of_calm (up := true) (finishEstop_calm _) counted
  · exact counted

/-! ### Stage edits (R4, R5, R8, R17, R18) -/

/-- A change of the table that leaves the lines, and each stage as ACTIVE as it was. -/
theorem carriersOk_of_table (order : inKeyOrder s.store.stages → inKeyOrder t.store.stages)
    (nv : t.store.nv = s.store.nv) (lines : ∀ l, t.line l = s.line l) (active : ∀ k, t.activeAt k ↔ s.activeAt k)
    (ok : s.carriersOk) : t.carriersOk := by
  rw [carriersOk_iff] at ok ⊢
  simp only [nv, lines, active]
  exact ⟨order ok.1, ok.2⟩

theorem storeStage_carriersOk {x : Stage} (hx : x.status ≠ .active) (hs : ¬ s.activeAt x.key) (ok : s.carriersOk) :
    (storeStage x s).carriersOk := by
  have kept := storeStage_keeps x s
  have stages : (storeStage x s).store.stages = insertStage x s.store.stages :=
    (saveStage_keeps x.key (s.setStages (insertStage x s.store.stages))).2 .stages (by decide)
  refine carriersOk_of_table (fun order => ?_) (kept.2 .nvCopy (by decide))
    (kept.line (by decide) (by decide) (by decide)) (fun k => ?_) ok
  · rw [stages]
    exact inKeyOrder_insertStage x order
  · simp only [State.activeAt, stage_storeStage]
    split
    case isTrue same =>
      subst same
      refine ⟨fun ⟨y, found, active⟩ => ?_, fun h => absurd h hs⟩
      obtain rfl := Option.some.inj found
      exact absurd active hx
    case isFalse => rfl

theorem stageWriteReply_carriersOk (a : StageWriteArgs) (ok : s.carriersOk) : (stageWriteReply a s).state.carriersOk := by
  refine unlessLocked_part ok ?_
  split
  · exact ok
  split
  · exact ok
  case h_2 f _ =>
    split
    case h_1 x found =>
      split
      case isFalse => exact ok
      case isTrue draft =>
        have key : (x.rewrite f (a.clear == 1)).key = f.key := by unfold Stage.rewrite; split <;> rfl
        have status : (x.rewrite f (a.clear == 1)).status = x.status := by unfold Stage.rewrite; split <;> rfl
        refine storeStage_carriersOk (by rw [status, draft]; decide) ?_ ok
        rw [key]
        exact not_activeAt_of_status found (by rw [draft]; decide)
    case h_2 absent =>
      split
      · exact ok
      · exact storeStage_carriersOk (by simp [Stage.fresh]) (not_activeAt_of_none absent) ok

theorem stageDeleteOwn_carriersOk {k : StageKey} {x : Stage} (found : s.stage? k = some x) (ok : s.carriersOk) :
    (stageDeleteOwn x s).state.carriersOk := by
  obtain rfl : x.key = k := key_of_lookupStage found
  have deleted (hx : x.status ≠ .active) : (deleteStage x.key s).carriersOk := by
    refine carriersOk_of_calm (up := true) (es := true) (formMixOrder_calm _) ?_
    have kept : keeps [.writes, .completions] (s.setStages (removeStage x.key s.store.stages))
        (writeThrough (.stageRemoved x.key) (removeSummary x.key (s.setStages (removeStage x.key s.store.stages)))) :=
      (writeThrough_keeps _ _).after (by decide) ((removeSummary_keeps _ _).mono (by decide))
    have stages := kept.2 .stages (by decide)
    refine carriersOk_of_table (s := s) (fun order => ?_) (kept.2 .nvCopy (by decide)) (fun l => ?_) (fun k => ?_) ok
    · rw [show _ = _ from stages]
      exact inKeyOrder_removeStage x.key order
    · rw [kept.line (by decide) (by decide) (by decide)]
      rfl
    · simp only [State.activeAt, kept.stage (by decide), stage_setStages, lookupStage_removeStage]
      split
      case isTrue same =>
        subst same
        exact ⟨fun ⟨y, h, _⟩ => (by cases h), fun h => absurd h (not_activeAt_of_status found hx)⟩
      case isFalse => rfl
  unfold stageDeleteOwn
  split
  case h_1 status | h_2 status | h_3 status =>
    split
    · exact ok
    · exact deleted (by rw [status]; decide)
  all_goals exact ok

theorem endByConsole_carriersOk {k : StageKey} {x : Stage} (found : s.stage? k = some x) {st : StageStatus} (hst : st ≠ .active) (c : EndCause) (r : EndReason) (ok : s.carriersOk) :
    (endByConsole x st c r s).carriersOk := by
  obtain rfl : x.key = k := key_of_lookupStage found
  have finish (l : Option LineId) (v : Option Computed) : Moved [] [x.key] s
      (if st = .complete then completeStage l x.key c v s else finishStage l x.key st c v s) := by
    split
    · exact completeStage_moved _ _ _ _ _
    · exact finishStage_moved _ _ hst _ _ _
  unfold endByConsole
  dsimp only
  split
  case h_1 l carrier =>
    split at carrier
    case isFalse => cases carrier
    case isTrue =>
      have carries := List.find?_some carrier
      simp only [Bool.and_eq_true, beq_iff_eq] at carries
      refine carriersOk_of_line (l := l) ?_ ok
      rw [carried_of_live carries.1, carries.2]
      simpa using (finish _ _).trans (closeLine_moved r l _)
  case h_2 none =>
    have inactive : ¬ s.activeAt x.key := by
      intro active
      obtain ⟨l, carried⟩ := ((carriersOk_iff s).1 ok).2.2.1 _ active
      obtain ⟨y, found', status⟩ := active
      obtain rfl : x = y := Option.some.inj (found.symm.trans found')
      rw [if_pos status] at none
      have absent := List.find?_eq_none.1 none l (mem_lineIds l)
      unfold Line.carried at carried
      split at carried
      case isTrue live => simp [live, carried] at absent
      case isFalse => cases carried
    exact carriersOk_of_calm (up := true) (es := true) (formMixOrder_calm _)
      (carriersOk_of_moved ((finish _ _).absent inactive) (by simp) ok)

theorem stageEditOf_carriersOk {k : StageKey} {own : Stage → State → Reply} (ok : s.carriersOk)
    (h : ∀ x, s.stage? k = some x → (own x s).state.carriersOk) : (stageEditOf k own s).state.carriersOk := by
  refine unlessLocked_part ok ?_
  split
  · exact ok
  · split
    · exact h _ ‹_›
    · exact ok

theorem decideOf_carriersOk {a : DecideArgs} {own : Stage → State → Reply} (ok : s.carriersOk)
    (h : ∀ x, s.stage? a.key = some x → (own x s).state.carriersOk) : (decideOf a own s).state.carriersOk := by
  refine unlessLocked_part ok ?_
  split
  · exact ok
  · split
    · split
      · exact h _ ‹_›
      · exact ok
    · exact ok

/-! ### RESET, RELEASE and CLAIM (R47, R52, R61) -/

theorem resetLine_carriersOk (l : LineId) (ok : s.carriersOk) : (resetLine l s).carriersOk := by
  unfold resetLine
  split
  · exact ok
  · have checked (n : Nat) := cut_moved .reset l s (f := Line.toStartCheck n) (by intro; rfl) (by intro; rfl) rfl
    refine carriersOk_of_line (l := l) ?_ ok
    dsimp only
    cases (s.line l).carried with
    | none => exact checked _
    | some k => simpa using (checked _).trans (suspendStage_moved _ k _ _)

theorem resetReply_carriersOk (n : Nat) (ok : s.carriersOk) : (resetReply n s).state.carriersOk := by
  unfold resetReply
  split
  · exact ok
  split
  · exact ok
  · dsimp only [accept, warmReset]
    refine carriersOk_of_calm (up := true) (es := true) (formMixOrder_calm _) ?_
    refine carriersOk_of_calm (up := true) (es := true) (settleStartCheck_calm _) ?_
    refine carriersOk_of_calm (up := true) (es := true) (calm_of_keeps (setStartCheck_keeps true _) (by decide)) ?_
    refine carriersOk_forLines (fun l s ok => resetLine_carriersOk l ok) ?_
    refine carriersOk_of_calm (up := true) (es := true) (calm_of_keeps (quietExercise_keeps _) (by decide)) ?_
    refine carriersOk_of_calm (up := true) (es := true) (emptyQueues_calm _) ?_
    exact carriersOk_of_calm (up := true) (es := true) (calm_of_keeps (setLockdown_keeps false s) (by decide)) ok

/-- A line under a LIVE grant stands in OPENING, ARMED, INJECTING or HOLDING (R49). -/
theorem live_of_grant {x : Line} {g : Grant} (ok : x.grantOk) (hg : x.grant = some g) (hp : g.phase = .live) :
    x.state.live = true := by
  obtain ⟨-, -, -, ending, none⟩ := ok
  by_contra live
  rw [Bool.not_eq_true] at live
  by_cases closing : x.state = .closing
  · rw [ending closing g hg] at hp
    cases hp
  · rw [(none live closing).1] at hg
    cases hg

theorem releaseOrSuspend_moved (b : Bool) (l : Option LineId) (c : EndCause) (k : StageKey) (s : State) :
    Moved [] [k] s ((if b then suspendStage l k c else returnToReady k) s) := by
  split
  · exact suspendStage_moved l k c s
  · exact returnToReady_moved k s

theorem releaseReply_carriersOk {l : LineId} {g : Grant} (hg : (s.line l).grant = some g) (grants : s.grantsOk)
    (ok : s.carriersOk) : (releaseReply l g s).state.carriersOk := by
  unfold releaseReply
  split
  case h_1 phase =>
    exact carriersOk_closed (fun k s => releaseOrSuspend_moved _ _ _ k s) (live_of_grant (grants.1 l) hg phase) _ ok
  case h_2 => split <;> exact ok

theorem release_carriersOk {p : Port} (grants : s.grantsOk) (ok : s.carriersOk) :
    (withGrant p (releaseWithout p) releaseReply s).state.carriersOk := by
  have without : (releaseWithout p s).state.carriersOk :=
    carriersOk_of_calm (up := true) (es := true) (updPort_calm (f := fun x => { x with cut := none }) id) ok
  refine unlessLocked_part ok ?_
  split
  · split
    · exact releaseReply_carriersOk ‹_› grants ok
    · exact without
  · exact without

theorem stage_grantClaim (p : Port) (l : LineId) {x : Stage} (k : StageKey) (found : s.stage? x.key = some x) :
    (grantClaim p l x s).stage? k =
      if k = x.key then some (x.activate (min x.fields.startClass s.grout.tankClass)) else s.stage? k := by
  unfold grantClaim
  dsimp only
  rw [(formMixOrder_keeps _).stage (by decide), stage_saveStage,
    stage_updStage _ x.key k (Stage.activate _) (key_activate _)]
  have before (n : Nat) : ((s.updLine l (Line.toOpening (Grant.fresh p s.settings) x.key n
      s.settings.travelTime)).updPort p (fun y => { y with cut := none })).stage? x.key = some x := found
  rw [before]
  rfl

theorem grantClaim_carriersOk {p : Port} {l : LineId} {x : Stage} (h : Claimable p l x s) (ok : s.carriersOk) :
    (grantClaim p l x s).carriersOk := by
  have kept := grantClaim_keeps p l x s
  have keys : (grantClaim p l x s).store.stages.map Stage.key = s.store.stages.map Stage.key := by
    unfold grantClaim
    dsimp only
    rw [(formMixOrder_calm (up := true) (es := true) _).keys, (saveStage_calm (up := true) (es := true) _ _).keys]
    exact map_key_mapStage x.key (Stage.activate _) (key_activate _) s.store.stages
  rw [carriersOk_iff] at ok ⊢
  obtain ⟨order, copied, carried, live, once⟩ := ok
  have active (k : StageKey) : (grantClaim p l x s).activeAt k ↔ k = x.key ∨ s.activeAt k := by
    simp only [State.activeAt, stage_grantClaim p l k h.found]
    split
    case isTrue same => exact ⟨fun _ => .inl same, fun _ => ⟨_, rfl, rfl⟩⟩
    case isFalse differs => simp [differs]
  have carries (m : LineId) : ((grantClaim p l x s).line m).carried =
      if m = l then some x.key else (s.line m).carried := by
    rw [line_grantClaim]
    split <;> rfl
  have before : (s.line l).carried = none := by
    rw [Line.carried, h.idle]
    rfl
  have inactive : ¬ s.activeAt x.key := not_activeAt_of_status h.found (by rw [h.ready]; decide)
  have differs (m : LineId) (c : (s.line m).carried = some x.key) : False := by
    have hl : (s.line m).state.live = true := by
      by_contra off
      simp [Line.carried, off] at c
    obtain ⟨k, c', a⟩ := live m hl
    obtain rfl := Option.some.inj (c.symm.trans c')
    exact inactive a
  refine ⟨(inKeyOrder_iff _).2 (keys ▸ (inKeyOrder_iff _).1 order), ?_, fun k a => ?_, fun m hm => ?_, fun m n k c c' => ?_⟩
  · rw [show (grantClaim p l x s).store.nv = s.store.nv from kept.2 .nvCopy (by decide)]
    exact copied
  · rcases (active k).1 a with rfl | a
    · exact ⟨l, by rw [carries, if_pos rfl]⟩
    · obtain ⟨m, c⟩ := carried k a
      refine ⟨m, ?_⟩
      rw [carries, if_neg (fun e => by rw [e, before] at c; cases c)]
      exact c
  · rw [carries]
    split
    case isTrue => exact ⟨x.key, rfl, (active _).2 (.inl rfl)⟩
    case isFalse other =>
      rw [line_grantClaim, if_neg other] at hm
      obtain ⟨k, c, a⟩ := live m hm
      exact ⟨k, c, (active k).2 (.inr a)⟩
  · rw [carries] at c c'
    split at c <;> split at c'
    · simp_all
    · obtain rfl := Option.some.inj c
      exact (differs n c').elim
    · obtain rfl := Option.some.inj c'
      exact (differs m c).elim
    · exact once m n k c c'

/-! ### The store and POWER_ON (R23, R25) -/

theorem inKeyOrder_apply (w : StoreWrite) {n : NvCopy} (h : inKeyOrder n.stages) : inKeyOrder (n.apply w).stages := by
  cases w with
  | stage x => exact inKeyOrder_insertStage x h
  | stageRemoved k => exact inKeyOrder_removeStage k h
  | line | part | summary | fault | readers => exact h

theorem writeCompleted_carriersOk (run : exec .storeWriteCompleted s = .next t) (ok : s.carriersOk) : t.carriersOk := by
  obtain rfl := Host.Outcome.next.inj run
  split
  case h_1 w rest _ =>
    obtain ⟨order, copied, others⟩ := ok
    exact ⟨order, inKeyOrder_apply w copied, others⟩
  case h_2 => exact ok

/-- The stages stored as ACTIVE, each suspended in turn. -/
theorem losePower_moved (ks : List StageKey) (s : State) : Moved [] ks s (ks.foldl (fun s k => losePower k s) s) := by
  induction ks generalizing s with
  | nil => exact (calm_refl (up := true) (es := true) s).moved
  | cons k ks ih =>
    have lost : Moved [] [k] s (losePower k s) :=
      (suspendStage_moved _ k _ _).after_calm (enterFault_calm (up := true) (es := true) _ _ _ _ _)
    simpa using lost.trans (ih (losePower k s))

theorem mem_activeKeys {k : StageKey} (h : s.activeAt k) : k ∈ s.activeKeys := by
  obtain ⟨x, found, active⟩ := h
  exact List.mem_map.2 ⟨x, List.mem_filter.2 ⟨List.mem_of_find?_eq_some found, by simp [active]⟩,
    key_of_lookupStage found⟩

theorem powerUp_carriersOk (a b : Bool) (n : Nat) (ok : s.carriersOk) : (powerUp a b n s).carriersOk := by
  obtain ⟨-, copied, -⟩ := ok
  have off (u : State) (live : ∀ l, (u.line l).state.live = false) (order : inKeyOrder u.store.stages)
      (nv : inKeyOrder u.store.nv.stages) (none : ∀ k, ¬ u.activeAt k) : u.carriersOk := by
    rw [carriersOk_iff]
    refine ⟨order, nv, fun k a => absurd a (none k), fun l h => ?_, fun l m k c => ?_⟩
    · rw [live] at h; cases h
    · simp [Line.carried, live] at c
  unfold powerUp
  dsimp only
  refine carriersOk_of_calm (up := true) (es := true) ((settleStartCheck_calm _).trans (formWarn_calm _)) ?_
  generalize hu : (if a = true then _ else reportStoreFault (.value 0) none _) = u
  have entered : calm true true (freshPart a (b && s.clock.valid) n s) u := by
    rw [← hu]
    exact (calm.cases (fun _ => calm_refl _) (fun _ => enterFault_calm _ _ _ _ _)).trans
      (calm.cases (fun _ => calm_refl _) (fun _ => reportStoreFault_calm _ _ _))
  have lost := losePower_moved u.activeKeys u
  refine off _ (fun l => ?_) ?_ ?_ (fun k a => ?_)
  · rw [(lost.others l (by simp)).2, (entered.lines l).live, line_freshPart]
    exact (atPowerOn_rest _ _).1
  · rw [inKeyOrder_iff, lost.keys, entered.keys, ← inKeyOrder_iff]
    exact copied
  · rw [lost.nv, entered.nv]
    exact copied
  · obtain ⟨before, kept⟩ := (lost.active k).1 a
    exact kept (mem_activeKeys before)

/-! ### Every command -/

theorem exec_carriersOk {c : Instr} (run : exec c s = .next t) (grants : s.grantsOk) (ok : s.carriersOk) :
    t.carriersOk := by
  have heardGrants (p : Port) : (heard p s).grantsOk :=
    grantsOk_of_lawful (heard_calm (up := true) (es := true) p s).lawful grants
  have request {α : Type} {k : RequestKind} {p : Port} {tag : Byte} {b : Body α} {own : α → State → Reply}
      (h : ∀ a u, u.grantsOk → u.carriersOk → (own a u).state.carriersOk)
      (run : Machine.request k p tag b own s = .next t) : t.carriersOk := by
    have heardOk := carriersOk_of_calm (up := true) (es := true) (heard_calm p s) ok
    rcases request_cases run with rfl | rfl | ⟨r, rfl, ⟨st, rfl⟩ | ⟨a, -, -, rfl⟩⟩
    · exact ok
    · exact carriersOk_of_calm (up := true) (es := true) (countOverrun_calm p s) ok
    · exact carriersOk_of_calm (up := true) (es := true) (respond_calm p _ _ (refuse st _)) heardOk
    · exact carriersOk_of_calm (up := true) (es := true) (respond_calm p _ _ _) (h a _ (heardGrants p) heardOk)
  cases hq : quiet c with
  | true => exact carriersOk_of_calm (exec_calm (up := false) (es := true) hq (by simp) run) ok
  | false =>
    cases c with
    | claim p g b =>
      rcases claim_cases run with h | ⟨l, x, r, -, claimable, left, rfl⟩
      · exact carriersOk_of_calm (h true true) ok
      · have heardOk := carriersOk_of_calm (up := true) (es := true) (heard_calm p s) ok
        refine carriersOk_of_calm (up := true) (es := true) (respond_calm p _ _ r) ?_
        rw [left]
        exact grantClaim_carriersOk claimable heardOk
    | release p g b => exact request (fun _ u grants ok => release_carriersOk grants ok) run
    | stageWrite p g b => exact request (fun a u _ ok => stageWriteReply_carriersOk a ok) run
    | stageDelete p g b =>
      exact request (fun k u _ ok => stageEditOf_carriersOk ok (fun x found => stageDeleteOwn_carriersOk found ok)) run
    | stageDecideClose p g b =>
      refine request (fun a u _ ok => decideOf_carriersOk ok (fun x found => ?_)) run
      unfold decideCloseOwn
      split
      · exact endByConsole_carriersOk found (by decide) _ _ ok
      · exact ok
    | stageDecideAbandon p g b =>
      refine request (fun a u _ ok => decideOf_carriersOk ok (fun x found => ?_)) run
      unfold decideAbandonOwn
      split
      · exact endByConsole_carriersOk found (by decide) _ _ ok
      · exact ok
    | reset p g b => exact request (fun n u _ ok => resetReply_carriersOk n ok) run
    | lineSampleEvent l n a b d =>
      obtain rfl := Host.Outcome.next.inj run
      split
      · exact lineSample_carriersOk l n a b d ok
      · exact ok
    | gaugeSampleEvent g n =>
      obtain rfl := Host.Outcome.next.inj run
      split
      · exact gaugeSample_carriersOk g n ok
      · exact ok
    | estopSample b => exact estopSample_carriersOk b run ok
    | holdTimeout l =>
      obtain rfl := Host.Outcome.next.inj run
      split
      case isTrue expired =>
        have live : (s.line l).state.live = true := by
          simp only [Line.holdExpired, Bool.and_eq_true, beq_iff_eq] at expired
          rw [expired.1]
          rfl
        exact carriersOk_of_calm (up := true) (es := true) (enterFault_calm _ _ _ _ _)
          (carriersOk_closed (fun k s => suspendStage_moved _ k _ s) live _ ok)
      case isFalse => exact ok
    | acceptWindowExpiry l =>
      obtain rfl := Host.Outcome.next.inj run
      split
      case isTrue elapsed =>
        have live : (s.line l).state.live = true := by
          simp only [Line.acceptElapsed, Bool.and_eq_true, Bool.or_eq_true, beq_iff_eq] at elapsed
          rcases elapsed.1 with state | state <;> rw [state] <;> rfl
        exact carriersOk_closed (fun k s => returnToReady_moved k s) live _ ok
      case isFalse => exact ok
    | keepaliveExpiry l =>
      obtain rfl := Host.Outcome.next.inj run
      split
      case h_1 g lapsed =>
        obtain ⟨hg, phase⟩ := Option.filter_eq_some_iff.1 lapsed
        simp only [Bool.and_eq_true, beq_iff_eq] at phase
        have live := live_of_grant (grants.1 l) hg phase.1
        unfold expireKeepalive
        dsimp only
        refine carriersOk_of_calm (up := true) (es := true) (enterFault_calm _ _ _ _ _) ?_
        refine carriersOk_of_calm (up := true) (es := true) (postLine_calm _ _ _ _) ?_
        exact carriersOk_closed (fun k s => releaseOrSuspend_moved _ _ _ k s) live _ ok
      case h_2 => exact ok
    | storeWriteCompleted => exact writeCompleted_carriersOk run ok
    | powerOn a b n =>
      obtain rfl := Host.Outcome.next.inj run
      exact powerUp_carriersOk a b n ok
    | _ => cases hq

/-- Settles O59: a quiet command changes nothing of it (`exec_calm`); every other that takes a line out of the four states
ends its stage with it (`carriersOk_of_line`), and a granted CLAIM binds a READY stage to an IDLE line
(`grantClaim_carriersOk`). -/
theorem activeStagesHaveOneCarrier : Obligations.ActiveStagesHaveOneCarrier := by
  intro s t grants ok run
  refine (step_induct (P := fun s => s.grantsOk ∧ s.carriersOk) (fun _ _ h => h) (fun c s t run h => ?_) run
    ⟨grants, ok⟩).2
  exact ⟨exec_grantsOk run h.1, exec_carriersOk run h.1 h.2⟩

end

end Sys2Proof.Machine
end

section
/-! PROOFS. The readings: STATUS, STAGE_READ, LINE_READ and the three lists (R9, R119, R161, R162, R172, R173). -/

namespace Sys2Proof.Machine

section
variable {s : State} {p : Port}

/-! ### A request as its own checks answer it -/

/-- A console's request of a kind for consoles (R149, R170). -/
theorem request_console {α : Type} {k : RequestKind} (hk : k.permits p = p.isConsole) (tag : Byte) (a : α)
    (own : α → State → Reply) (hp : p.isConsole = true) (hl : listening s p) :
    request k p tag (.args a) own s = .next (respond p k.code tag (own a (heard p s))) :=
  request_taken k tag a own hl (hk.trans hp)

/-- A console's request that is first checked for LOCKDOWN (R149). -/
theorem request_unlocked {α : Type} {k : RequestKind} (hk : k.permits p = p.isConsole) (tag : Byte) (a : α)
    (own : α → State → Reply) (hp : consoleReady s p) :
    request k p tag (.args a) (fun a u => unlessLocked u (own a u)) s =
      .next (respond p k.code tag (own a (heard p s))) := by
  obtain ⟨console, listens, unlocked⟩ := hp
  rw [request_console hk tag a _ console listens, unlessLocked_free _ (by simpa using unlocked)]

/-! ### STATUS (R172) -/

theorem heard_port_part {α : Type} (f : PortRecord → α) (hf : ∀ x, f { x with receiver := .answering } = f x) (q : Port) :
    f ((heard p s).port q) = f (s.port q) := by
  rw [heard_port]
  split
  · subst q; exact hf _
  · rfl

@[simp] theorem heard_permitClosed : (heard p s).permitClosed = s.permitClosed := by
  simp [State.permitClosed]

@[simp] theorem heard_oldestAge : (heard p s).oldestAge = s.oldestAge := by
  simp [State.oldestAge]

theorem heard_anyLine (q : Line → Bool) (hq : ∀ x g, q { x with grant := g } = q x) :
    (heard p s).anyLine q = s.anyLine q := by
  unfold State.anyLine
  congr 1
  funext l
  exact heard_line_part p s q l hq

theorem heard_liveFlag (c : FaultCode) : (heard p s).live c = s.live c := by
  unfold State.live State.isolatedWith State.gauge
  cases c <;> first | rfl | simp [heard_anyLine]

theorem permitClosed_iff (s : State) : s.permitClosed = true ↔
    s.stop.lockdown = false ∧ s.stop.upliftStop = false ∧ s.stop.estop = false ∧ s.stop.startCheck = false ∧
    s.stop.checkDone = true ∧ s.exercise ≠ 1 := by
  simp [State.permitClosed, and_assoc]

/-- The lines, and the ports, are shown in the order of their numbers. -/
theorem lines_report (s : State) (l : LineId) : s.report.lines[l.val]? = some (s.line l).summary := by
  fin_cases l <;> rfl

theorem portCounters_report (s : State) (q : Port) : s.report.portCounters[q.code]? = some (s.port q).counters := by
  cases q <;> rfl

theorem mem_all (c : FaultCode) : c ∈ FaultCode.all := by cases c <;> decide

/-- Settles O11: STATUS shows the state as the request leaves it, which differs from the state it found in the receiver
and the keepalive alone (`heard_line_part`, `heard_port_part`). -/
theorem statusReportsThePart : Obligations.StatusReportsThePart := by
  refine ⟨fun s p tag hl => ⟨(heard p s).report, ?_, heard_mode p s, ?_⟩, permitClosed_iff, fun s => ?_⟩
  · exact request_taken .status tag () (fun _ u => accept (.status u.report) u) hl rfl
  · simp only [State.report, heard_stop, heard_exercise, heard_settings, heard_gauges, heard_holdAll, heard_grout,
      heard_level, heard_oldestAge, heard_permitClosed, heard_clock, State.waitingKeys, heard_store, heard_record,
      List.length_map, true_and, and_true, Grout.accounted]
    refine ⟨fun l => ?_, fun c => ?_, fun c => ?_, fun q => ?_⟩
    · exact (lines_report (heard p s) l).trans (by simp [Line.summary])
    · simp [mem_all, heard_liveFlag]
    · simp [mem_all]
    · exact (portCounters_report (heard p s) q).trans
        (congrArg some (heard_port_part PortRecord.counters (fun _ => rfl) q))
  · unfold State.mode
    rfl

/-! ### STAGE_READ (R9) -/

theorem exec_stageRead (tag : Byte) (a : StageReadArgs) (hl : listening s p) :
    exec (.stageRead p tag (.args a)) s =
      .next (respond p RequestKind.stageRead.code tag (stageReadReply a (heard p s))) :=
  request_taken .stageRead tag a stageReadReply hl rfl

theorem stageReadReply_found {a : StageReadArgs} {i : Nat} {x : Stage}
    (hi : StageReadArgs.positionIn s.store.stages a = some i) (hx : s.store.stages[i]? = some x) :
    stageReadReply a s = accept (.stageRead s.store.stages.length i x) s := by
  simp only [stageReadReply, hi, hx]

theorem stageReadReply_absent {a : StageReadArgs}
    (h : ∀ i, StageReadArgs.positionIn s.store.stages a = some i → s.store.stages[i]? = none) :
    stageReadReply a s = refuse .badArgument s := by
  unfold stageReadReply
  split
  · rw [h _ ‹_›]
  · rfl

/-- The position of the first record with a key. -/
theorem findIdx?_key {k : StageKey} {x : Stage} {xs : List Stage} (h : lookupStage k xs = some x) :
    ∃ i, xs.findIdx? (fun y => y.key == k) = some i ∧ xs[i]? = some x ∧
      ∀ j y, j < i → xs[j]? = some y → y.key ≠ k := by
  induction xs with
  | nil => cases h
  | cons y ys ih =>
    rw [lookupStage_cons] at h
    split at h
    case isTrue same =>
      obtain rfl := Option.some.inj h
      exact ⟨0, by simp [List.findIdx?_cons, same], rfl, fun j _ hj => absurd hj (Nat.not_lt_zero j)⟩
    case isFalse differs =>
      obtain ⟨i, found, at', before⟩ := ih h
      refine ⟨i + 1, by simp [List.findIdx?_cons, differs, found], by simpa using at', fun j z hj hz => ?_⟩
      cases j with
      | zero =>
        obtain rfl := Option.some.inj hz
        exact differs
      | succ j => exact before j z (by omega) (by simpa using hz)

theorem findIdx?_key_none {k : StageKey} {xs : List Stage} (h : lookupStage k xs = none) :
    xs.findIdx? (fun y => y.key == k) = none := by
  simpa [lookupStage] using h

/-! ### The three lists (R119, R161, R162) -/

theorem rangeOk_iff (a : RangeArgs) (n : Nat) :
    a.ok n = true ↔ 1 ≤ a.count ∧ a.count ≤ 4 ∧ (a.start < n ∨ (a.start = 0 ∧ n = 0)) := by
  simp [RangeArgs.ok, within, and_assoc]

theorem rangeReply_taken {α : Type} {xs : List α} {contents : Nat → List α → Contents} {a : RangeArgs}
    (h : 1 ≤ a.count ∧ a.count ≤ 4 ∧ (a.start < xs.length ∨ (a.start = 0 ∧ xs.length = 0))) :
    rangeReply xs contents a s = accept (contents xs.length ((xs.drop a.start).take a.count)) s :=
  if_pos ((rangeOk_iff a _).2 h)

theorem rangeReply_refused {α : Type} {xs : List α} {contents : Nat → List α → Contents} {a : RangeArgs}
    (h : ¬ (1 ≤ a.count ∧ a.count ≤ 4 ∧ (a.start < xs.length ∨ (a.start = 0 ∧ xs.length = 0)))) :
    rangeReply xs contents a s = refuse .badArgument s :=
  if_neg (fun e => h ((rangeOk_iff a _).1 e))

/-- A reading of a list as a console's request: the list as the request found it. -/
theorem exec_range {α : Type} {k : RequestKind} (hk : k.permits p = p.isConsole) (tag : Byte) (a : RangeArgs)
    (list : State → List α) (contents : Nat → List α → Contents) (hs : list (heard p s) = list s)
    (hp : p.isConsole = true) (hl : listening s p) :
    let run := request k p tag (.args a) (fun a u => rangeReply (list u) contents a u) s
    let ok : Prop := 1 ≤ a.count ∧ a.count ≤ 4 ∧ (a.start < (list s).length ∨ (a.start = 0 ∧ (list s).length = 0))
    (ok → run = .next (answering p k tag .ok (contents (list s).length (((list s).drop a.start).take a.count))
      (heard p s))) ∧
    (¬ ok → run = .next (answering p k tag .badArgument .header (heard p s))) := by
  have run := request_console hk tag a (fun a u => rangeReply (list u) contents a u) hp hl
  rw [hs] at run
  refine ⟨fun ok => run.trans ?_, fun bad => run.trans ?_⟩
  · rw [rangeReply_taken ok]; rfl
  · rw [rangeReply_refused bad]; rfl

/-- Settles O12: the record, and each list, is looked up in what taking the request leaves alone. -/
theorem readingsAnswerAndChangeNothing : Obligations.ReadingsAnswerAndChangeNothing := by
  refine ⟨fun s p tag a hl => ?stageRead, fun s p tag hl => ⟨fun l => ?line, fun n hn => ?noLine⟩,
    fun s p tag a hp hl => ?lists⟩
  case stageRead =>
    have run := exec_stageRead tag a hl
    have refused (h : ∀ i, StageReadArgs.positionIn s.store.stages a = some i → s.store.stages[i]? = none) :
        refuses (.stageRead p tag (.args a)) s p .stageRead tag .badArgument := by
      rw [refuses, run, stageReadReply_absent (by simpa using h)]
      rfl
    have taken {i : Nat} {x : Stage} (hi : StageReadArgs.positionIn s.store.stages a = some i) (hx : s.store.stages[i]? = some x) :
        exec (.stageRead p tag (.args a)) s = .next
          (answering p .stageRead tag .ok (.stageRead s.store.stages.length i x) (heard p s)) := by
      rw [run, stageReadReply_found (by simpa using hi) (by simpa using hx), heard_store]
      rfl
    refine ⟨fun key absent => refused ?_, fun key x found => ?_, fun pos hn => refused ?_, fun pos x hx => ?_,
      fun other => refused ?_⟩
    · simp [StageReadArgs.positionIn, key, findIdx?_key_none absent]
    · obtain ⟨i, first, there, before⟩ := findIdx?_key found
      exact ⟨i, there, before, taken (by simpa [StageReadArgs.positionIn, key] using first) there⟩
    · simp [StageReadArgs.positionIn, pos, hn]
    · exact taken (by simp [StageReadArgs.positionIn, pos]) hx
    · have : a.selector ≠ 0 ∧ a.selector ≠ 1 := by omega
      simp [StageReadArgs.positionIn, this]
  case line =>
    refine (request_taken .lineRead tag l.val lineReadReply hl rfl).trans ?_
    simp only [lineReadReply, lineOf?, l.isLt, dite_true, State.grantReport, heard_line_stage]
    rfl
  case noLine =>
    refine (request_taken .lineRead tag n lineReadReply hl rfl).trans ?_
    simp only [lineReadReply, lineOf?, Nat.not_lt.2 hn, dite_false]
    rfl
  case lists =>
    obtain ⟨completions, noCompletions⟩ := exec_range (k := .readCompletions) rfl tag a (fun u => u.record.completions)
      .completions (by simp) hp hl
    obtain ⟨faults, noFaults⟩ := exec_range (k := .readFaults) rfl tag a (fun u => u.record.faults) .faults (by simp) hp hl
    obtain ⟨connections, noConnections⟩ := exec_range (k := .readConnections) rfl tag a (fun u => u.connections.records)
      .connections (by simp) hp hl
    exact ⟨completions, noCompletions, faults, noFaults, connections, noConnections⟩

end

end Sys2Proof.Machine
end

section
/-! PROOFS. The round trip of a request: fields, bodies, the frame (O10). -/
namespace Sys2Proof.Machine
section

/-! ### A field read back from the bytes that carry it: past the bytes before it, and where it stands -/

section
variable (x : Byte) (rest : List Byte) (i : Nat)

theorem u8_cons : u8 (x :: rest) (i + 1) = u8 rest i := rfl

theorem u16_cons : u16 (x :: rest) (i + 1) = u16 rest i := rfl

theorem u32_cons : u32 (x :: rest) (i + 1) = u32 rest i := rfl

theorem uKey_cons : uKey (x :: rest) (i + 1) = uKey rest i := rfl

end

section
variable {n : Nat} {rest : List Byte}

theorem u8_ofNat (h : fits8 n = true) : u8 (BitVec.ofNat 8 n :: rest) 0 = n := by
  have : n < 256 := by simpa [fits8] using h
  simp [u8, Nat.mod_eq_of_lt this]

theorem u16_ofNat (h : fits16 n = true) :
    u16 (BitVec.ofNat 8 n :: BitVec.ofNat 8 (n / 256) :: rest) 0 = n := by
  have : n < 65536 := by simpa [fits16] using h
  simp only [u16, u8, List.getD_cons_zero, Nat.zero_add, List.getD_cons_succ, BitVec.toNat_ofNat]
  omega

theorem u32_ofNat (h : fits32 n = true) :
    u32 (BitVec.ofNat 8 n :: BitVec.ofNat 8 (n / 256) :: BitVec.ofNat 8 (n / 65536) ::
      BitVec.ofNat 8 (n / 65536 / 256) :: rest) 0 = n := by
  have : n < 4294967296 := by simpa [fits32] using h
  simp only [u32, u16, u8, List.getD_cons_zero, Nat.zero_add, Nat.reduceAdd, List.getD_cons_succ, BitVec.toNat_ofNat]
  omega

theorem uKey_ofNat {k : StageKey} (h : k.fits = true) :
    uKey (BitVec.ofNat 8 k.hole :: BitVec.ofNat 8 (k.hole / 256) :: BitVec.ofNat 8 k.stage :: rest) 0 = k := by
  simp only [StageKey.fits, Bool.and_eq_true] at h
  obtain ⟨hole, stage⟩ := h
  rw [uKey, u16_ofNat hole, u8_cons, u8_cons, u8_ofNat stage]

end

/-! ### Bodies -/

/-- What a kind's encoder and decoder owe each other on well-formed fields. -/
structure RoundTrip {α : Type} (k : RequestKind) (ok : α → Bool) (write : α → List Byte) (read : List Byte → α) :
    Prop where
  length : ∀ a, ok a = true → (write a).length = k.bodyLength
  back : ∀ a, ok a = true → read (write a) = a

theorem bodyLength_le (k : RequestKind) : k.bodyLength ≤ 240 := by cases k <;> decide

theorem RoundTrip.length_le {α : Type} {k : RequestKind} {ok : α → Bool} {write : α → List Byte}
    {read : List Byte → α} (trip : RoundTrip k ok write read) {b : Body α} (hwf : b.wf k ok = true) :
    (b.bytes write).length ≤ 240 := by
  cases b with
  | args a => exact (trip.length a hwf).trans_le (bodyLength_le k)
  | wrongLength b =>
    simp only [Body.wf, Bool.and_eq_true, decide_eq_true_eq] at hwf
    exact hwf.1

theorem RoundTrip.bodyOf_bytes {α : Type} {k : RequestKind} {ok : α → Bool} {write : α → List Byte}
    {read : List Byte → α} (trip : RoundTrip k ok write read) {b : Body α} (hwf : b.wf k ok = true) :
    bodyOf k read (b.bytes write) = b := by
  cases b with
  | args a => simp [Body.bytes, bodyOf, trip.length a hwf, trip.back a hwf]
  | wrongLength b =>
    have hne : b.length ≠ k.bodyLength := by
      simp only [Body.wf, Bool.and_eq_true, bne_iff_ne] at hwf
      exact hwf.2
    simp [Body.bytes, bodyOf, hne]

theorem roundTrip_unit {k : RequestKind} (h : k.bodyLength = 0) :
    RoundTrip k (fun _ : Unit => true) (fun _ => []) (fun _ => ()) :=
  ⟨fun _ _ => h.symm, fun _ _ => rfl⟩

theorem roundTrip_byte {k : RequestKind} (h : k.bodyLength = 1) : RoundTrip k fits8 e8 (u8 · 0) :=
  ⟨fun _ _ => h.symm, fun n hn => u8_ofNat hn⟩

theorem roundTrip_word {k : RequestKind} (h : k.bodyLength = 4) : RoundTrip k fits32 e32 (u32 · 0) :=
  ⟨fun _ _ => h.symm, fun n hn => u32_ofNat hn⟩

theorem roundTrip_key {k : RequestKind} (h : k.bodyLength = 3) : RoundTrip k StageKey.fits eKey (uKey · 0) :=
  ⟨fun _ _ => h.symm, fun n hn => uKey_ofNat hn⟩

theorem roundTrip_claim : RoundTrip .claim ClaimArgs.wf encodeClaim decodeClaim where
  length _ _ := rfl
  back a ha := by
    simp only [ClaimArgs.wf, Bool.and_eq_true] at ha
    simp only [decodeClaim, encodeClaim, e8, e16, eKey, List.cons_append, List.nil_append,
      u8_cons, uKey_cons, u8_ofNat, uKey_ofNat, ha]

theorem roundTrip_pumpStatus : RoundTrip .pumpStatus PumpStatusArgs.wf encodePumpStatus decodePumpStatus where
  length _ _ := rfl
  back a ha := by
    simp only [PumpStatusArgs.wf, Bool.and_eq_true] at ha
    simp only [decodePumpStatus, encodePumpStatus, e8, List.cons_append, List.nil_append,
      u8_cons, u8_ofNat, ha]

theorem roundTrip_stageRead : RoundTrip .stageRead StageReadArgs.wf encodeStageRead decodeStageRead where
  length _ _ := rfl
  back a ha := by
    simp only [StageReadArgs.wf, Bool.and_eq_true] at ha
    simp only [decodeStageRead, encodeStageRead, e8, e16, eKey, List.cons_append, List.nil_append,
      u8_cons, uKey_cons, u8_ofNat, uKey_ofNat, ha]

theorem roundTrip_lineConfig : RoundTrip .lineConfig LineConfigArgs.wf encodeLineConfig decodeLineConfig where
  length _ _ := rfl
  back a ha := by
    simp only [LineConfigArgs.wf, Bool.and_eq_true] at ha
    simp only [decodeLineConfig, encodeLineConfig, e8, e16, List.cons_append, List.nil_append,
      u8_cons, u16_cons, u8_ofNat, u16_ofNat, ha]

theorem roundTrip_lineWatch : RoundTrip .lineWatch LineWatchArgs.wf encodeLineWatch decodeLineWatch where
  length _ _ := rfl
  back a ha := by
    simp only [LineWatchArgs.wf, Bool.and_eq_true] at ha
    simp only [decodeLineWatch, encodeLineWatch, e8, e16, List.cons_append, List.nil_append,
      u8_cons, u16_cons, u8_ofNat, u16_ofNat, ha]

theorem roundTrip_batch : RoundTrip .batchReport BatchArgs.wf encodeBatch decodeBatch where
  length _ _ := rfl
  back a ha := by
    simp only [BatchArgs.wf, Bool.and_eq_true] at ha
    simp only [decodeBatch, encodeBatch, e8, e16, e32, List.cons_append, List.nil_append,
      u8_cons, u16_cons, u32_cons, u8_ofNat, u16_ofNat, u32_ofNat, ha]

theorem roundTrip_partConfig : RoundTrip .partConfig PartConfigArgs.wf encodePartConfig decodePartConfig where
  length _ _ := by simp [encodePartConfig, e8, e16, RequestKind.bodyLength]
  back a ha := by
    simp only [PartConfigArgs.wf, Bool.and_eq_true] at ha
    simp only [decodePartConfig, encodePartConfig, e8, e16, List.cons_append, List.nil_append,
      u8_cons, u16_cons, u8_ofNat, u16_ofNat, ha]

theorem roundTrip_reader : RoundTrip .readerEnable ReaderArgs.wf encodeReader decodeReader where
  length _ _ := rfl
  back a ha := by
    simp only [ReaderArgs.wf, Bool.and_eq_true] at ha
    simp only [decodeReader, encodeReader, e8, List.cons_append, List.nil_append,
      u8_cons, u8_ofNat, ha]

theorem roundTrip_range {k : RequestKind} (h : k.bodyLength = 2) : RoundTrip k RangeArgs.wf encodeRange decodeRange where
  length _ _ := h.symm
  back a ha := by
    simp only [RangeArgs.wf, Bool.and_eq_true] at ha
    simp only [decodeRange, encodeRange, e8, List.cons_append, List.nil_append, u8_cons, u8_ofNat, ha]

/-- The body's encoder is opened by `delta`: its equation is too large to be proved by `simp`. -/
theorem roundTrip_stageWrite : RoundTrip .stageWrite StageWriteArgs.wf encodeStageWrite decodeStageWrite where
  length a ha := by
    simp only [StageWriteArgs.wf, Bool.and_eq_true, beq_iff_eq] at ha
    have slotCount : a.neighbourSlots.length = 4 := by simp only [ha]
    have keyCount : a.prereqSlots.length = 4 := by simp only [ha]
    obtain ⟨_, _, _, _, slots⟩ := List.length_eq_four.mp slotCount
    obtain ⟨_, _, _, _, keys⟩ := List.length_eq_four.mp keyCount
    delta encodeStageWrite
    simp only [slots, keys, e8, e16, e32, eKey, List.length_append, List.length_cons, List.length_nil,
      List.flatMap_cons, List.flatMap_nil, Nat.reduceAdd, RequestKind.bodyLength]
  back a ha := by
    obtain ⟨clear, key, order, top, bottom, pMax, vMax, jMax, qRef, tRef, band, margin, drop, rise, cls, thick, thresh,
      policy, overridden, neighbours, slots, prereqs, keys⟩ := a
    simp only [StageWriteArgs.wf, Bool.and_eq_true, beq_iff_eq] at ha
    have slotCount : slots.length = 4 := by simp only [ha]
    have keyCount : keys.length = 4 := by simp only [ha]
    obtain ⟨s₀, s₁, s₂, s₃, rfl⟩ := List.length_eq_four.mp slotCount
    obtain ⟨k₀, k₁, k₂, k₃, rfl⟩ := List.length_eq_four.mp keyCount
    simp only [List.all_cons, List.all_nil, Bool.and_eq_true] at ha
    delta encodeStageWrite
    simp only [decodeStageWrite, e8, e16, e32, eKey, List.cons_append, List.nil_append, List.flatMap_cons,
      List.flatMap_nil, List.append_nil,
      u8_cons, u16_cons, u32_cons, uKey_cons, u8_ofNat, u16_ofNat, u32_ofNat, uKey_ofNat, ha]

theorem roundTrip_decide : RoundTrip .stageDecide DecideArgs.wf encodeDecide decodeDecide where
  length _ _ := rfl
  back a ha := by
    simp only [DecideArgs.wf, Bool.and_eq_true] at ha
    simp only [decodeDecide, encodeDecide, e8, e16, eKey, List.cons_append, List.nil_append,
      u8_cons, u16_cons, u8_ofNat, u16_ofNat, uKey_ofNat, ha]

/-! ### The frame around a body (R168), and the whole request -/

theorem ofCode?_code (k : RequestKind) : RequestKind.ofCode? k.code = some k := by cases k <;> rfl

/-- A frame as encoded is read back as the request of its kind, tag and body. -/
theorem decodeFrame_encodeFrame (p : Port) (kind tag : Byte) {body : List Byte} (h : body.length ≤ 240) :
    decodeFrame p (encodeFrame kind tag body) = some (decodeRequest p kind tag body) := by
  have len : (BitVec.ofNat 8 body.length).toNat = body.length := by
    simpa using Nat.mod_eq_of_lt (show body.length < 256 by omega)
  have notLong : ¬ 240 < body.length := by omega
  simp [decodeFrame, encodeFrame, len, notLong, crcBytes]

/-- A request read back: its body within the length byte, and the decoder's answer the command itself. -/
def ReadsBack (c : Instr) (p : Port) (kind tag : Byte) (body : List Byte) : Prop :=
  body.length ≤ 240 ∧ decodeRequest p kind tag body = c

theorem RoundTrip.readsBack {α : Type} {k : RequestKind} {ok : α → Bool} {write : α → List Byte}
    {read : List Byte → α} (trip : RoundTrip k ok write read) {b : Body α} (hwf : b.wf k ok = true)
    {f : Body α → Instr} {p : Port} {tag : Byte}
    (hdec : ∀ bytes, decodeRequest p k.code tag bytes = f (bodyOf k read bytes)) :
    ReadsBack (f b) p k.code tag (b.bytes write) :=
  ⟨trip.length_le hwf, by rw [hdec, trip.bodyOf_bytes hwf]⟩

/-- STAGE_DECIDE's body with the fields it carries. -/
theorem decodeStageDecide_args {a : DecideArgs} (ha : a.wf = true) (p : Port) (tag : Byte) :
    decodeStageDecide p tag (encodeDecide a) =
      if a.action = 1 then .stageDecideClose p tag (.args a)
      else if a.action = 2 then .stageDecideAbandon p tag (.args a)
      else if a.action = 3 then .stageDecideResume p tag (.args a)
      else .stageDecideContinue p tag (.args a) := by
  have body : bodyOf .stageDecide decodeDecide (encodeDecide a) = .args a :=
    roundTrip_decide.bodyOf_bytes (b := .args a) ha
  rw [decodeStageDecide, body]

theorem wfDecide_iff {code : Nat} {b : Body DecideArgs} :
    b.wfDecide code = true ↔ ∃ a, b = .args a ∧ a.wf = true ∧ a.action = code := by
  cases b <;> simp [Body.wfDecide]

/-- The row CONTINUE takes its own action code, an action code of no row, and a body of a wrong length. -/
theorem readsBack_stageDecideContinue {b : Body DecideArgs} (hwf : b.wfContinue = true) (p : Port) (tag : Byte) :
    ReadsBack (.stageDecideContinue p tag b) p RequestKind.stageDecide.code tag (b.bytes encodeDecide) := by
  cases b with
  | args a =>
    simp only [Body.wfContinue, Bool.and_eq_true, Bool.or_eq_true, beq_iff_eq, decide_eq_true_eq] at hwf
    obtain ⟨ha, action⟩ := hwf
    refine ⟨roundTrip_decide.length_le (b := .args a) ha, (decodeStageDecide_args ha p tag).trans ?_⟩
    rw [if_neg (by omega), if_neg (by omega), if_neg (by omega)]
  | wrongLength bytes =>
    refine ⟨roundTrip_decide.length_le (b := .wrongLength bytes) hwf, ?_⟩
    have body : bodyOf .stageDecide decodeDecide bytes = .wrongLength bytes :=
      roundTrip_decide.bodyOf_bytes (b := .wrongLength bytes) hwf
    exact show decodeStageDecide p tag bytes = _ by rw [decodeStageDecide, body]

/-- The rows CLOSE, ABANDON and RESUME take their own action code. -/
theorem readsBack_stageDecide {code : Nat} {b : Body DecideArgs} (hwf : b.wfDecide code = true)
    {f : Body DecideArgs → Instr} {p : Port} {tag : Byte}
    (hrow : ∀ a : DecideArgs, a.wf = true → a.action = code → decodeStageDecide p tag (encodeDecide a) = f (.args a)) :
    ReadsBack (f b) p RequestKind.stageDecide.code tag (b.bytes encodeDecide) := by
  obtain ⟨a, rfl, ha, action⟩ := wfDecide_iff.mp hwf
  exact ⟨roundTrip_decide.length_le (b := .args a) ha, hrow a ha action⟩

theorem encodeRequest_readsBack {c : Instr} {p : Port} {kind tag : Byte} {body : List Byte} (hwf : c.wf = true)
    (h : encodeRequest c = some (p, kind, tag, body)) : ReadsBack c p kind tag body := by
  cases c
  case claim => cases h; exact roundTrip_claim.readsBack hwf fun _ => rfl
  case start | pause | release | status | readAlerts | holdAll | releaseAll | tankDump | upliftZero | upliftClear
      | readRecords | exerciseStep =>
    cases h; exact (roundTrip_unit rfl).readsBack hwf fun _ => rfl
  case pumpStatus => cases h; exact roundTrip_pumpStatus.readsBack hwf fun _ => rfl
  case stageRead => cases h; exact roundTrip_stageRead.readsBack hwf fun _ => rfl
  case lineRead | lineUnwatch | lineIsolate | lineReturn | clearCounters | clearLatches | reset =>
    cases h; exact (roundTrip_byte rfl).readsBack hwf fun _ => rfl
  case alertMask | setTime => cases h; exact (roundTrip_word rfl).readsBack hwf fun _ => rfl
  case stageWrite => cases h; exact roundTrip_stageWrite.readsBack hwf fun _ => rfl
  case stageRelease | stageWithdraw | stageDelete =>
    cases h; exact (roundTrip_key rfl).readsBack hwf fun _ => rfl
  case stageDecideContinue => cases h; exact readsBack_stageDecideContinue hwf _ _
  case stageDecideClose =>
    cases h
    exact readsBack_stageDecide hwf fun a ha action => by rw [decodeStageDecide_args ha, if_pos action]
  case stageDecideAbandon =>
    cases h
    exact readsBack_stageDecide hwf fun a ha action => by simp [decodeStageDecide_args ha, action]
  case stageDecideResume =>
    cases h
    exact readsBack_stageDecide hwf fun a ha action => by simp [decodeStageDecide_args ha, action]
  case lineConfig => cases h; exact roundTrip_lineConfig.readsBack hwf fun _ => rfl
  case lineWatch => cases h; exact roundTrip_lineWatch.readsBack hwf fun _ => rfl
  case batchReport => cases h; exact roundTrip_batch.readsBack hwf fun _ => rfl
  case partConfig => cases h; exact roundTrip_partConfig.readsBack hwf fun _ => rfl
  case readerEnable => cases h; exact roundTrip_reader.readsBack hwf fun _ => rfl
  case readCompletions | readFaults | readConnections =>
    cases h; exact (roundTrip_range rfl).readsBack hwf fun _ => rfl
  case unknownKind q code t bytes =>
    cases h
    simp only [Instr.wf, Bool.and_eq_true, Option.isNone_iff_eq_none, decide_eq_true_eq] at hwf
    obtain ⟨noKind, len⟩ := hwf
    exact ⟨len, by rw [decodeRequest, noKind]⟩
  all_goals exact nomatch h

/-- Settles O10: the frame of a well-formed request decodes to the request (R168, R170, R175), by a round trip for
each body and one for the frame around it. -/
theorem requestFrameDecodesToItself : Obligations.RequestFrameDecodesToItself := by
  unfold Obligations.RequestFrameDecodesToItself
  intro c p kind tag body hwf h
  obtain ⟨len, back⟩ := encodeRequest_readsBack hwf h
  exact ⟨len, back, by rw [decodeFrame_encodeFrame p kind tag len, back]⟩

end

end Sys2Proof.Machine
end

section
/-! PROOFS. The receiver of a port (R168, R169), the answer to a request (R50, R170) and the order of its checks. -/

namespace Sys2Proof.Machine

section
variable {s t : State} {p : Port} {A : List Part} {c : Instr}

/-! ### What is the same of a port -/

theorem keeps.link (h : keeps A s t) (hA : .links ∉ A) (p : Port) : (t.port p).linkPart = (s.port p).linkPart :=
  h.2 .links hA p

theorem keeps.portCounts (h : keeps A s t) (hA : .portCounters ∉ A) (p : Port) :
    (t.port p).counterPart = (s.port p).counterPart :=
  h.2 .portCounters hA p

section
variable (y : Bool) (d : Int) (s : State) (p : Port)

@[simp] theorem receiver_postSaturated : ((postSaturated y d s).port p).receiver = (s.port p).receiver :=
  (congrArg PortRecord.receiver ((postSaturated_keeps y d s).link (by decide) p) :)

@[simp] theorem sending_postSaturated : ((postSaturated y d s).port p).sending = (s.port p).sending :=
  (congrArg PortRecord.sending ((postSaturated_keeps y d s).link (by decide) p) :)

@[simp] theorem answer_postSaturated : ((postSaturated y d s).port p).answer = (s.port p).answer :=
  (congrArg PortRecord.answer ((postSaturated_keeps y d s).link (by decide) p) :)

@[simp] theorem crc_postSaturated : ((postSaturated y d s).port p).crc = (s.port p).crc :=
  (congrArg PortRecord.crc ((postSaturated_keeps y d s).portCounts (by decide) p) :)

@[simp] theorem framing_postSaturated : ((postSaturated y d s).port p).framing = (s.port p).framing :=
  (congrArg PortRecord.framing ((postSaturated_keeps y d s).portCounts (by decide) p) :)

@[simp] theorem overrun_postSaturated : ((postSaturated y d s).port p).overrun = (s.port p).overrun :=
  (congrArg PortRecord.overrun ((postSaturated_keeps y d s).portCounts (by decide) p) :)

end

@[simp] theorem count_bump (top : Nat) (c : Counter) : (c.bump top).1.count = satSucc top c.count := by
  unfold Counter.bump satSucc
  by_cases room : c.count < top
  · by_cases full : c.count + 1 = top ∧ c.posted = false <;> simp [room, full]
  · simp [room]

/-! ### A frame at a port (R168, R169) -/

section
variable {act : State → State}

theorem brokenFrame_listening (h : listening s p) : brokenFrame p act s = act s := by
  unfold brokenFrame
  rcases h with h | h <;> simp [h]

theorem brokenFrame_answering (h : (s.port p).receiver = .answering) : brokenFrame p act s = countOverrun p s := by
  simp [brokenFrame, h]

theorem brokenFrame_discarding (h : (s.port p).receiver = .discarding) : brokenFrame p act s = s := by
  simp [brokenFrame, h]

theorem receive_eq_brokenFrame : receive p act s = brokenFrame p (fun u => act (heard p u)) s := rfl

end

/-- A request arrives as a frame at its port. -/
theorem frameOn?_of_kind {k : RequestKind} {tag : Byte} (hk : c.kind? = some (p, k, tag)) : c.frameOn? = some p := by
  have onLink : (encodeRequest c).map (fun r => r.1) = some p := by
    unfold Instr.kind? at hk
    cases h : encodeRequest c with
    | none => simp [h] at hk
    | some r =>
      simp only [h, Option.map_eq_some_iff, Prod.mk.injEq] at hk
      obtain ⟨-, -, same, -⟩ := hk
      exact congrArg some same
  unfold Instr.frameOn?
  split
  case h_6 => exact onLink
  all_goals exact nomatch hk

/-- Every frame at a port, whole, broken or begun, is an overrun while the port answers and is ignored while it
discards (R169): it acts as `act` in the two other receiver states. -/
theorem exec_frame (hc : c.wf = true) (hf : c.frameOn? = some p) :
    ∃ act, ∀ s, exec c s = .next (brokenFrame p act s) := by
  cases hk : c.kind? with
  | some kind =>
    obtain ⟨q, k, tag⟩ := kind
    obtain ⟨α, b, own, run, -⟩ := handledAs_of_kind hk (ne_unknownKind_of_wf hc hk)
    obtain rfl : q = p := Option.some.inj ((frameOn?_of_kind hk).symm.trans hf)
    exact ⟨_, fun s => (run s).trans (congrArg Host.Outcome.next receive_eq_brokenFrame)⟩
  | none =>
    cases c
    case crcError | framingError | frameGapAbort => cases hf; exact ⟨_, fun _ => rfl⟩
    case overrun =>
      cases hf
      refine ⟨id, fun s => congrArg Host.Outcome.next ?_⟩
      unfold brokenFrame
      cases (s.port p).receiver <;> rfl
    case startByteReceived =>
      cases hf
      refine ⟨fun s => if (s.port p).receiver = .awaitStart then s.updPort p (fun x => { x with receiver := .receiving })
        else s, fun s => congrArg Host.Outcome.next ?_⟩
      unfold brokenFrame
      cases h : (s.port p).receiver <;> simp [h]
    case unknownKind q kind tag b =>
      cases hf
      simp only [Instr.wf, Bool.and_eq_true] at hc
      exact ⟨_, fun s => (congrArg Host.Outcome.next (if_pos hc.1)).trans rfl⟩
    case answerSent | discardSilenceEnd | lineSampleEvent | flowPulse | gaugeSampleEvent | levelSampleEvent | estopSample
        | clockSecond | valveTravelTimeElapsed | holdTimeout | acceptWindowExpiry | keepaliveExpiry | recordInterval
        | levelComparison | groutAgeLimitReached | storeWriteFailed | powerOn | storeWriteCompleted =>
      exact nomatch hf
    all_goals exact absurd hk (Option.some_ne_none _)

/-! ### O9 -/

theorem countOverrun_counts (p : Port) (s : State) :
    ((countOverrun p s).port p).receiver = .discarding ∧
    ((countOverrun p s).port p).overrun.count = satSucc s.counterTop (s.port p).overrun.count ∧
    ((countOverrun p s).port p).answer = (s.port p).answer ∧
    ((countOverrun p s).port p).sending = (s.port p).sending := by
  simp [countOverrun]

theorem countCrc_counts (p : Port) (s : State) :
    ((countCrc p s).port p).receiver = .awaitStart ∧
    ((countCrc p s).port p).crc.count = satSucc s.counterTop (s.port p).crc.count ∧
    ((countCrc p s).port p).answer = (s.port p).answer := by
  simp [countCrc]

theorem countFraming_counts (p : Port) (n : Receiver) (s : State) :
    ((countFraming p n s).port p).receiver = n ∧
    ((countFraming p n s).port p).framing.count = satSucc s.counterTop (s.port p).framing.count := by
  simp [countFraming]

/-- Settles O9: by the receiver's state; while the port answers or discards every frame is treated alike
(`exec_frame`). -/
theorem receiverMovesAndCounts : Obligations.ReceiverMovesAndCounts := by
  unfold Obligations.ReceiverMovesAndCounts
  refine fun s p => ⟨fun h => ?_, fun h => ⟨?_, fun cause => ?_, fun b => ?_⟩, fun h => ⟨fun c hc hf => ?_, ?_⟩,
    fun h => ⟨fun c hc hf => ?_, ?_, fun sends => ?_, fun sent => ?_⟩⟩
  · simp only [exec, execStartByteReceived, h]
  · exact ⟨_, congrArg Host.Outcome.next (brokenFrame_listening h), countCrc_counts p s⟩
  · exact ⟨_, congrArg Host.Outcome.next (brokenFrame_listening h), countFraming_counts p _ s⟩
  · exact ⟨_, congrArg Host.Outcome.next (brokenFrame_listening h), countFraming_counts p _ s⟩
  · obtain ⟨act, run⟩ := exec_frame hc hf
    obtain ⟨receiver, count, answer, sending⟩ := countOverrun_counts p s
    exact ⟨_, (run s).trans (congrArg Host.Outcome.next (brokenFrame_answering h)), receiver, count, answer, sending,
      countOverrun_keeps p s⟩
  · simp only [exec, execAnswerSent, h]
  · obtain ⟨act, run⟩ := exec_frame hc hf
    exact (run s).trans (congrArg Host.Outcome.next (brokenFrame_discarding h))
  · simp only [exec, execAnswerSent, h]
  · exact congrArg Host.Outcome.next (if_neg fun hs => absurd (hs.2.symm.trans sends) Bool.false_ne_true)
  · exact congrArg Host.Outcome.next (if_pos ⟨h, sent⟩)

end

end Sys2Proof.Machine
end

section
/-! PROOFS. What each request's own checks and effect may do: the lines they touch, the keepalives, the answer's
contents, LOCKED in LOCKDOWN (R50, R149, R170); and the statements on requests as such (O4, O7, O8). -/

namespace Sys2Proof.Machine

section
variable {s t u : State} {M : LineId → Prop} {l : LineId} {x y z : Line}

/-! ### The lines a change touches -/

/-- A LIVE grant's keepalive is the one it was, or starts again. -/
def Line.Renewed (x y : Line) : Prop :=
  ∀ g w, y.grant = some g → g.phase = .live → g.keepalive = some w →
    w.elapsed = 0 ∨ ∃ g₀, x.grant = some g₀ ∧ g₀.phase = .live ∧ g₀.keepalive = some w

theorem Line.Renewed.of_grant (h : y.grant = x.grant) : Line.Renewed x y :=
  fun g _ hg live hw => .inr ⟨g, h ▸ hg, live, hw⟩

theorem Line.Renewed.of_none (h : y.grant = none) : Line.Renewed x y := fun g _ hg => by simp [h] at hg

theorem Line.Renewed.trans (h : Line.Renewed x y) (h' : Line.Renewed y z) : Line.Renewed x z := by
  intro g w hg live hw
  rcases h' g w hg live hw with zero | ⟨g₁, hg₁, live₁, hw₁⟩
  · exact .inl zero
  · exact h g₁ w hg₁ live₁ hw₁

/-- Only lines in `M` change, and their keepalives run on or start again. -/
def touches (M : LineId → Prop) (s t : State) : Prop :=
  ∀ l, t.line l = s.line l ∨ M l ∧ Line.Renewed (s.line l) (t.line l)

theorem touches_of_lines (h : ∀ l, t.line l = s.line l) : touches M s t := fun l => .inl (h l)

theorem touches_refl (s : State) : touches M s s := touches_of_lines fun _ => rfl

theorem touches.trans (h : touches M s t) (h' : touches M t u) : touches M s u := by
  intro l
  rcases h l with same | ⟨hl, renewed⟩ <;> rcases h' l with same' | ⟨hl', renewed'⟩
  · exact .inl (same'.trans same)
  · exact .inr ⟨hl', same ▸ renewed'⟩
  · exact .inr ⟨hl, same' ▸ renewed⟩
  · exact .inr ⟨hl, renewed.trans renewed'⟩

theorem touches.then_lines (h : touches M s t) (h' : ∀ l, u.line l = t.line l) : touches M s u :=
  h.trans (touches_of_lines h')

theorem keeps.touches {A : List Part} (h : keeps A s t) (hA : .lines ∉ A ∧ .lineSettings ∉ A ∧ .meters ∉ A) :
    touches M s t :=
  touches_of_lines (h.line hA.1 hA.2.1 hA.2.2)

/-- A change of meters and settings leaves every grant. -/
theorem keeps.touches_all {A : List Part} (h : keeps A s t) (hM : ∀ l, M l) (hr : .lines ∉ A) :
    Machine.touches M s t :=
  fun l => .inr ⟨hM l, .of_grant (congrArg Line.grant (h.2 .lines hr l) :)⟩

theorem touches_of_line (hl : M l) (hself : Line.Renewed (s.line l) (t.line l))
    (hother : ∀ m, m ≠ l → t.line m = s.line m) : touches M s t := by
  intro m
  by_cases hm : m = l
  · exact .inr ⟨hm ▸ hl, hm ▸ hself⟩
  · exact .inl (hother m hm)

theorem touches_setLine (hl : M l) (h : Line.Renewed (s.line l) x) : touches M s (s.setLine l x) :=
  touches_of_line hl (by rwa [line_setLine_self]) fun m hm => line_setLine_ne s x hm

theorem touches_updLine {f : Line → Line} (hl : M l) (h : Line.Renewed (s.line l) (f (s.line l))) :
    touches M s (s.updLine l f) :=
  touches_setLine hl h

theorem touches_foldl {α : Type} (f : State → α → State) (xs : List α) (s : State) (h : ∀ s x, touches M s (f s x)) :
    touches M s (xs.foldl f s) := by
  induction xs generalizing s with
  | nil => exact touches_refl s
  | cons x xs ih => exact (h s x).trans (ih _)

theorem touches_forLines {f : LineId → State → State} (h : ∀ l s, touches M s (f l s)) (s : State) :
    touches M s (forLines f s) :=
  touches_foldl _ _ _ fun s l => h l s

theorem freed_grant (c : HoldCause) (x : Line) : (x.freed c).grant = x.grant := by
  unfold Line.freed
  cases x.state <;> rfl

theorem addCause_touches (hl : M l) (c : HoldCause) (s : State) : touches M s (addCause c l s) :=
  touches_of_line hl (.of_grant (by rw [line_addCause, if_pos rfl, held_grant]))
    fun m hm => by rw [line_addCause, if_neg hm]

theorem removeCause_touches (hl : M l) (c : HoldCause) (s : State) : touches M s (removeCause c l s) :=
  touches_of_line hl (.of_grant (by rw [line_removeCause, if_pos rfl, freed_grant]))
    fun m hm => by rw [line_removeCause, if_neg hm]

theorem saveStage_updStage_touches (j k : StageKey) (f : Stage → Stage) (s : State) :
    touches M s (saveStage j (s.updStage k f)) :=
  ((updStage_keeps _ _ _).touches (by decide)).trans ((saveStage_keeps _ _).touches (by decide))

/-- A closed line's grant is ENDING, without a keepalive. -/
theorem renewed_closed (r : EndReason) (n : Nat) (x : Line) : Line.Renewed x (x.closed r n) := by
  intro g w hg live
  obtain ⟨g₀, -, rfl⟩ := Option.map_eq_some_iff.mp (show x.grant.map (Grant.toEnding r) = some g from hg)
  exact nomatch live

theorem closeLine_touches (hl : M l) (r : EndReason) (s : State) : touches M s (closeLine r l s) :=
  touches_of_line hl (by rw [line_closeLine, if_pos rfl]; exact renewed_closed _ _ _)
    fun m hm => by rw [line_closeLine, if_neg hm]

theorem withBound_touches {f : StageKey → State → State} (h : ∀ k s, touches M s (f k s)) (l : LineId) (s : State) :
    touches M s (withBound l f s) := by
  unfold withBound
  split
  · exact h _ _
  · exact touches_refl _

theorem reformCeilings_touches (hl : M l) (s : State) : touches M s (reformCeilings l s) := by
  unfold reformCeilings
  split
  · exact touches_updLine hl (.of_grant rfl)
  · exact touches_refl _

end

/-! ### A request's own checks and effect -/

/-- A request that is not taken is answered with the header alone (R170), and only lines in `M` change. -/
structure Reply.Proper (M : LineId → Prop) (s : State) (r : Reply) : Prop where
  plain : r.status = .ok ∨ r.contents = .header
  lines : touches M s r.state

section
variable {s t : State} {r : Reply} {M : LineId → Prop} {l : LineId} {A : List Part}

theorem refuse_proper (st : Status) (h : touches M s t) : (refuse st t).Proper M s := ⟨.inr rfl, h⟩

theorem refuse_proper_self (st : Status) (s : State) : (refuse st s).Proper M s := refuse_proper st (touches_refl s)

theorem accept_proper (c : Contents) (h : touches M s t) : (accept c t).Proper M s := ⟨.inl rfl, h⟩

theorem accept_proper_self (c : Contents) (s : State) : (accept c s).Proper M s := accept_proper c (touches_refl s)

theorem ite_proper {c : Prop} [Decidable c] {r' : Reply} (h : r.Proper M s) (h' : r'.Proper M s) :
    (if c then r else r').Proper M s := by
  split
  · exact h
  · exact h'

theorem unlessLocked_proper (h : r.Proper M s) : (unlessLocked s r).Proper M s := by
  exact ite_proper (refuse_proper_self _ _) h

theorem stageEdit_proper (h : r.Proper M s) : (stageEdit s r).Proper M s := by
  unfold stageEdit
  exact unlessLocked_proper (ite_proper (refuse_proper_self _ _) h)

theorem stageEditOf_proper {j : StageKey} {own : Stage → State → Reply}
    (h : ∀ x, s.stage? j = some x → (own x s).Proper M s) : (stageEditOf j own s).Proper M s := by
  unfold stageEditOf
  refine stageEdit_proper ?_
  split
  · exact h _ ‹_›
  · exact refuse_proper_self _ _

theorem decideOf_proper {a : DecideArgs} {own : Stage → State → Reply}
    (h : ∀ x, s.stage? a.key = some x → (own x s).Proper M s) : (decideOf a own s).Proper M s := by
  unfold decideOf
  refine stageEdit_proper ?_
  split
  · split
    · exact h _ ‹_›
    · exact refuse_proper_self _ _
  · exact refuse_proper_self _ _

theorem withGrant_proper {p : Port} {without : State → Reply} {own : LineId → Grant → State → Reply}
    (hw : (without s).Proper M s) (ho : ∀ l g, s.portGrant p = some l → (own l g s).Proper M s) :
    (withGrant p without own s).Proper M s := by
  unfold withGrant
  refine unlessLocked_proper ?_
  split
  · split
    · exact ho _ _ ‹_›
    · exact hw
  · exact hw

theorem lineRequest_proper {n : Nat} {own : LineId → State → Reply} (h : ∀ l, lineOf? n = some l → (own l s).Proper M s) :
    (lineRequest n own s).Proper M s := by
  unfold lineRequest
  refine unlessLocked_proper ?_
  split
  · exact h _ ‹_›
  · exact refuse_proper_self _ _

end

/-! ### The requests of the pumps -/

section
variable {s : State} {M : LineId → Prop} {l : LineId} {p : Port} {g : Grant}

theorem grantClaim_touches (hl : M l) (p : Port) (x : Stage) (s : State) : touches M s (grantClaim p l x s) := by
  refine touches_of_line hl ?_ fun m hm => by rw [line_grantClaim, if_neg hm]
  rw [line_grantClaim, if_pos rfl]
  rintro g w hg - hw
  obtain rfl : Grant.fresh p s.settings = g := Option.some.inj hg
  obtain rfl : (⟨s.settings.keepalive, 0⟩ : Timer) = w := Option.some.inj hw
  exact .inl rfl

theorem claimStage_proper (hl : M l) (p : Port) (x : Stage) (s : State) : (claimStage p l x s).Proper M s := by
  have tooThick : (claimTooThick x.key s).Proper M s :=
    refuse_proper _ (touches_of_lines fun m => by rw [line_formMixOrder, line_updStage])
  unfold claimStage
  iterate 4 refine ite_proper (refuse_proper_self _ _) ?_
  exact ite_proper tooThick (accept_proper _ (grantClaim_touches hl p x s))

theorem claimReply_proper {a : ClaimArgs} (hM : ∀ l, lineOf? a.line = some l → M l) (p : Port) (s : State) :
    (claimReply p a s).Proper M s := by
  unfold claimReply
  refine unlessLocked_proper (ite_proper (refuse_proper_self _ _) (ite_proper (refuse_proper_self _ _) ?_))
  unfold claimGrant
  split
  · exact ite_proper (accept_proper_self _ _) (refuse_proper_self _ _)
  · split
    case h_1 l _ found _ => exact ite_proper (claimStage_proper (hM l found) _ _ _) (refuse_proper_self _ _)
    case h_2 => exact refuse_proper_self _ _

theorem takeStart_renewed (x : Line) : Line.Renewed x x.takeStart := .of_grant takeStart_binding.2

/-- A grant changed in other fields than its phase and its keepalive. -/
theorem renewed_map {f : Grant → Grant} {x y : Line} (hy : y.grant = x.grant.map f)
    (hf : ∀ g, (f g).phase = g.phase ∧ (f g).keepalive = g.keepalive) : Line.Renewed x y := by
  intro g w hg live hw
  obtain ⟨g₀, hg₀, rfl⟩ := Option.map_eq_some_iff.mp (hy ▸ hg)
  exact .inr ⟨g₀, hg₀, (hf g₀).1 ▸ live, (hf g₀).2 ▸ hw⟩

theorem startReply_proper (hl : M l) (g : Grant) (s : State) : (startReply l g s).Proper M s := by
  unfold startReply
  split
  · refine accept_proper _ ?_
    unfold startArmed
    refine (touches_setLine hl ?_).trans (withBound_touches (fun k s => touches_of_lines fun _ => line_updStage _ _ _ _) _ _)
    exact (renewed_map (f := Grant.started) rfl fun _ => ⟨rfl, rfl⟩).trans (takeStart_renewed _)
  · exact accept_proper_self _ _
  · exact accept_proper _ (touches_updLine hl (takeStart_renewed _))
  all_goals exact refuse_proper_self _ _

theorem pauseReply_proper (hl : M l) (g : Grant) (s : State) : (pauseReply l g s).Proper M s := by
  unfold pauseReply
  split
  case h_1 | h_2 | h_3 => exact accept_proper _ (addCause_touches hl _ _)
  all_goals exact refuse_proper_self _ _

theorem pumpReport_proper (hl : M l) (a : PumpStatusArgs) (g : Grant) (s : State) : (pumpReport a l g s).Proper M s :=
  ite_proper (accept_proper _ (touches_updLine hl (renewed_map rfl fun _ => ⟨rfl, rfl⟩))) (refuse_proper_self _ _)

theorem pumpStatusWithout_proper (p : Port) (a : PumpStatusArgs) (s : State) : (pumpStatusWithout p a s).Proper M s := by
  unfold pumpStatusWithout
  split
  · exact ite_proper (accept_proper _ (touches_of_lines fun _ => rfl)) (refuse_proper_self _ _)
  · exact refuse_proper_self _ _

theorem releaseLive_touches (hl : M l) (g : Grant) (s : State) : touches M s (releaseLive l g s) := by
  unfold releaseLive
  refine (closeLine_touches hl .released s).trans (withBound_touches (fun k s => ?_) _ _)
  by_cases hs : g.startTaken = true
  · rw [if_pos hs]
    exact (suspendStage_keeps _ _ _ _).touches (by decide)
  · rw [if_neg hs]
    exact (returnToReady_keeps _ _).touches (by decide)

theorem releaseReply_proper (hl : M l) (g : Grant) (s : State) : (releaseReply l g s).Proper M s := by
  unfold releaseReply
  split
  · exact accept_proper _ (releaseLive_touches hl g s)
  · exact ite_proper (refuse_proper_self _ _) (accept_proper_self _ _)

theorem releaseWithout_proper (p : Port) (s : State) : (releaseWithout p s).Proper M s :=
  refuse_proper _ (touches_of_lines fun _ => rfl)

end

/-! ### The readings -/

section
variable {M : LineId → Prop} (s : State)

theorem stageReadReply_proper (a : StageReadArgs) : (stageReadReply a s).Proper M s := by
  unfold stageReadReply
  split
  · split
    · exact accept_proper_self _ _
    · exact refuse_proper_self _ _
  · exact refuse_proper_self _ _

theorem lineReadReply_proper (n : Nat) : (lineReadReply n s).Proper M s := by
  unfold lineReadReply
  split
  · exact accept_proper_self _ _
  · exact refuse_proper_self _ _

theorem alertMaskReply_proper (p : Port) (m : Nat) : (alertMaskReply p m s).Proper M s :=
  ite_proper (accept_proper _ (touches_of_lines fun _ => rfl)) (refuse_proper_self _ _)

theorem readRecordsReply_proper (p : Port) : (readRecordsReply p s).Proper M s := by
  unfold readRecordsReply
  split
  · exact ite_proper (accept_proper _ (touches_of_lines fun _ => rfl)) (refuse_proper_self _ _)
  · exact refuse_proper_self _ _

theorem rangeReply_proper {α : Type} (xs : List α) (contents : Nat → List α → Contents) (a : RangeArgs) :
    (rangeReply xs contents a s).Proper M s :=
  ite_proper (accept_proper_self _ _) (refuse_proper_self _ _)

end

/-! ### The stage edits -/

section
variable {s : State} {M : LineId → Prop}

theorem stageWriteReply_proper (a : StageWriteArgs) (s : State) : (stageWriteReply a s).Proper M s := by
  unfold stageWriteReply
  refine stageEdit_proper ?_
  split
  · exact refuse_proper_self _ _
  split
  · exact ite_proper (accept_proper _ ((storeStage_keeps _ _).touches (by decide))) (refuse_proper_self _ _)
  · exact ite_proper (refuse_proper_self _ _) (accept_proper _ ((storeStage_keeps _ _).touches (by decide)))

theorem stageReleaseOwn_proper (x : Stage) (s : State) : (stageReleaseOwn x s).Proper M s :=
  ite_proper (refuse_proper_self _ _)
    (ite_proper (accept_proper _ (saveStage_updStage_touches _ _ _ _))
      (refuse_proper_self _ _))

theorem stageWithdrawOwn_proper (x : Stage) (s : State) : (stageWithdrawOwn x s).Proper M s := by
  unfold stageWithdrawOwn
  split
  case h_1 | h_2 =>
    exact accept_proper _ ((saveStage_updStage_touches _ _ _ _).then_lines
      fun l => line_formMixOrder _ l)
  all_goals exact refuse_proper_self _ _

theorem stageDeleteOwn_proper (x : Stage) (s : State) : (stageDeleteOwn x s).Proper M s := by
  unfold stageDeleteOwn
  split
  case h_1 | h_2 | h_3 =>
    exact ite_proper (refuse_proper_self _ _) (accept_proper _ ((deleteStage_keeps _ _).touches (by decide)))
  all_goals exact refuse_proper_self _ _

theorem removeDecided_touches {l : LineId} (hl : M l) (d : PendingDecision) (s : State) :
    touches M s (removeDecided d l s) := by
  unfold removeDecided
  have fractured : touches M s (if d.fracture then removeCause .fracture l s else s) := by
    split
    · exact removeCause_touches hl _ _
    · exact touches_refl _
  dsimp only
  split
  · exact fractured.trans (removeCause_touches hl _ _)
  · exact fractured

/-- What carries a stage is a matter of the lines' states and bindings. -/
theorem carrier?_congr {s t : State} (h : ∀ l, (t.line l).state = (s.line l).state ∧ (t.line l).stage = (s.line l).stage)
    (k : StageKey) : t.carrier? k = s.carrier? k := by
  simp only [State.carrier?, h]

theorem carrier?_lowerPMax (k j : StageKey) (new : Option Nat) (s : State) :
    (lowerPMax k new s).carrier? j = s.carrier? j := by
  refine carrier?_congr (fun m => ?_) j
  have reformed (l : LineId) (u : State) : ((reformCeilings l u).line m).state = (u.line m).state ∧
      ((reformCeilings l u).line m).stage = (u.line m).stage := by
    unfold reformCeilings
    split
    · rw [line_updLine]
      split
      · subst m; exact ⟨rfl, rfl⟩
      · exact ⟨rfl, rfl⟩
    · exact ⟨rfl, rfl⟩
  unfold lowerPMax
  split
  · dsimp only
    split
    · exact reformed _ _
    · exact ⟨rfl, rfl⟩
  · exact ⟨rfl, rfl⟩

theorem lowerPMax_touches {k : StageKey} (hM : ∀ l, s.carrier? k = some l → M l) (new : Option Nat) :
    touches M s (lowerPMax k new s) := by
  unfold lowerPMax
  split
  · dsimp only
    split
    case h_1 l found =>
      exact ((updStage_keeps _ _ _).touches (by decide)).trans (reformCeilings_touches (hM l found) _)
    case h_2 => exact (updStage_keeps _ _ _).touches (by decide)
  · exact touches_refl _

theorem continueStage_touches {x : Stage} (hM : ∀ l, s.carrier? x.key = some l → M l) (new : Option Nat) :
    touches M s (continueStage x new s) := by
  unfold continueStage
  have decided : touches M s (match (lowerPMax x.key new s).carrier? x.key with
      | some l => removeDecided x.decision l (lowerPMax x.key new s)
      | none => lowerPMax x.key new s) := by
    split
    case h_1 l found =>
      rw [carrier?_lowerPMax] at found
      exact (lowerPMax_touches hM new).trans (removeDecided_touches (hM l found) _ _)
    case h_2 => exact lowerPMax_touches hM new
  exact (decided.trans ((updStage_keeps _ _ _).touches (by decide))).trans ((saveStage_keeps _ _).touches (by decide))

theorem decideContinueOwn_proper {x : Stage} (hM : ∀ l, s.carrier? x.key = some l → M l) (a : DecideArgs) :
    (decideContinueOwn a x s).Proper M s :=
  ite_proper (ite_proper (accept_proper _ (continueStage_touches hM _)) (refuse_proper_self _ _))
    (refuse_proper_self _ _)

theorem endByConsole_touches {x : Stage} (hM : ∀ l, s.carrier? x.key = some l → M l) (status : StageStatus)
    (cause : EndCause) (reason : EndReason) : touches M s (endByConsole x status cause reason s) := by
  have ended (l : Option LineId) (v : Option Computed) : touches M s
      (if status = .complete then completeStage l x.key cause v s else finishStage l x.key status cause v s) := by
    split
    · exact (completeStage_keeps _ _ _ _ _).touches (by decide)
    · exact (finishStage_keeps _ _ _ _ _ _).touches (by decide)
  unfold endByConsole
  dsimp only
  split
  case h_1 l found =>
    have carries : s.carrier? x.key = some l := by
      split at found
      · exact found
      · cases found
    exact (ended _ _).trans (closeLine_touches (hM l carries) _ _)
  case h_2 => exact (ended _ _).then_lines fun l => line_formMixOrder _ l

theorem decideCloseOwn_proper {x : Stage} (hM : ∀ l, s.carrier? x.key = some l → M l) :
    (decideCloseOwn x s).Proper M s :=
  ite_proper (accept_proper _ (endByConsole_touches hM _ _ _)) (refuse_proper_self _ _)

theorem decideAbandonOwn_proper {x : Stage} (hM : ∀ l, s.carrier? x.key = some l → M l) :
    (decideAbandonOwn x s).Proper M s :=
  ite_proper (accept_proper _ (endByConsole_touches hM _ _ _)) (refuse_proper_self _ _)

theorem decideResumeOwn_proper (x : Stage) (s : State) : (decideResumeOwn x s).Proper M s :=
  ite_proper (accept_proper _ ((saveStage_updStage_touches _ _ _ _).then_lines
    fun l => line_formMixOrder _ l)) (refuse_proper_self _ _)

end

/-! ### The line requests -/

section
variable {s : State} {M : LineId → Prop} {l : LineId}

theorem configure_grant (c : LineSettings) (x : Line) : (x.configure c).grant = x.grant := by
  unfold Line.configure
  dsimp only
  split
  · rfl
  · split <;> rfl

theorem lineConfigReply_proper {a : LineConfigArgs} (hM : ∀ l, lineOf? a.line = some l → M l) (s : State) :
    (lineConfigReply a s).Proper M s := by
  unfold lineConfigReply
  refine unlessLocked_proper ?_
  split
  case h_1 => exact refuse_proper_self _ _
  case h_2 l c found =>
    have line : lineOf? a.line = some l := by
      unfold LineConfigArgs.settings? at found
      split at found
      · split at found
        · obtain ⟨rfl, -⟩ := Prod.mk.inj (Option.some.inj found)
          assumption
        · cases found
      · cases found
    have taken : (accept .header (writeThrough (.line l c) (s.updLine l (Line.configure c)))).Proper M s :=
      accept_proper _ ((touches_updLine (hM l line) (.of_grant (configure_grant c _))).trans
        ((writeThrough_keeps _ _).touches (by decide)))
    split
    case h_1 | h_2 => exact taken
    all_goals exact refuse_proper_self _ _

theorem lineWatchReply_proper {a : LineWatchArgs} (hM : ∀ l, lineOf? a.line = some l → M l) (s : State) :
    (lineWatchReply a s).Proper M s := by
  unfold lineWatchReply
  refine unlessLocked_proper ?_
  split
  case h_1 => exact refuse_proper_self _ _
  case h_2 l w found =>
    have line : lineOf? a.line = some l := by
      unfold LineWatchArgs.watch? at found
      split at found
      · split at found
        · obtain ⟨rfl, -⟩ := Prod.mk.inj (Option.some.inj found)
          assumption
        · cases found
      · cases found
    exact ite_proper (accept_proper _ (touches_updLine (hM l line) (.of_grant rfl))) (refuse_proper_self _ _)

theorem lineUnwatchOwn_proper (hl : M l) (s : State) : (lineUnwatchOwn l s).Proper M s :=
  ite_proper (accept_proper _ (touches_updLine hl (.of_grant rfl))) (refuse_proper_self _ _)

theorem lineIsolateOwn_proper (hl : M l) (s : State) : (lineIsolateOwn l s).Proper M s := by
  unfold lineIsolateOwn
  split
  case h_1 | h_2 => exact accept_proper _ (touches_updLine hl (.of_grant rfl))
  all_goals exact refuse_proper_self _ _

theorem lineReturnOwn_proper (hl : M l) (s : State) : (lineReturnOwn l s).Proper M s :=
  ite_proper (accept_proper _ (touches_setLine hl (.of_grant rfl))) (refuse_proper_self _ _)

end

/-! ### What a change of the tank does to one line (R127, R132), and what a RESET does -/

section
variable {M : LineId → Prop} {l : LineId}

theorem decideMixLag_touches (hl : M l) (s : State) : touches M s (decideMixLag l s) := by
  have set : touches M s (s.setLine l { s.line l with mixLag := (s.line l).lagging }) :=
    touches_setLine hl (.of_grant rfl)
  unfold decideMixLag
  dsimp only
  split
  · exact set.then_lines fun m => line_postLine _ _ _ _ m
  · exact set

theorem setEffective_touches (hl : M l) (cls : Nat) (s : State) : touches M s (setEffective l cls s) := by
  unfold setEffective
  split
  case h_1 c _ =>
    split
    · exact touches_refl s
    · have changed : touches M s (addProgress l (Progress.raiseClass cls) (s.updLine l (fun x =>
          { x with classes := some { c with effective := cls, thickening := 0, pendingVolume := 0, pRef := none } }))) :=
        (touches_updLine hl (.of_grant rfl)).trans ((addProgress_keeps l _ _).touches (by decide))
      exact changed.trans (decideMixLag_touches hl _)
  case h_2 => exact touches_refl s

theorem appendTransit_touches (hl : M l) (cls : Nat) (s : State) : touches M s (appendTransit cls l s) := by
  unfold appendTransit
  dsimp only
  split
  · split
    · exact touches_updLine hl (.of_grant rfl)
    · exact ((touches_updLine hl (.of_grant rfl)).trans (setEffective_touches hl _ _)).trans
        (touches_updLine hl (.of_grant rfl))
  · exact touches_updLine hl (.of_grant rfl)

theorem cutGrant_touches (hl : M l) (r : EndReason) (s : State) : touches M s (cutGrant r l s) := by
  refine touches_of_line hl ?_ fun m hm => by rw [line_cutGrant, if_neg hm]
  rw [line_cutGrant, if_pos rfl]
  exact .of_none rfl

theorem resetLine_touches (hl : M l) (s : State) : touches M s (resetLine l s) := by
  have started : touches M s ((cutGrant .reset l s).updLine l (Line.toStartCheck s.settings.travelTime)) :=
    (cutGrant_touches hl _ s).trans (touches_updLine hl (.of_grant rfl))
  unfold resetLine
  split
  · exact touches_refl s
  · dsimp only
    split
    · exact started.trans ((suspendStage_keeps _ _ _ _).touches (by decide))
    · exact started

end

/-! ### Requests that reach every line -/

section
variable {M : LineId → Prop} (hM : ∀ l, M l) (s : State)
include hM

theorem holdAllReply_proper : (holdAllReply s).Proper M s := by
  refine unlessLocked_proper (ite_proper (accept_proper_self _ _) (accept_proper _ ?_))
  exact ((setHoldAll_keeps true s).touches (by decide)).trans
    (touches_forLines (fun l s => addCause_touches (hM l) _ s) _)

theorem releaseAllReply_proper : (releaseAllReply s).Proper M s := by
  refine unlessLocked_proper (ite_proper (accept_proper _ ?_) (accept_proper_self _ _))
  exact ((setHoldAll_keeps false s).touches (by decide)).trans
    (touches_forLines (fun l s => removeCause_touches (hM l) _ s) _)

theorem decideAged_touches : touches M s (decideAged s) := by
  unfold decideAged
  split
  · refine touches.trans ?_ (touches_forLines (fun l s => addCause_touches (hM l) _ s) _)
    exact touches.trans (t := s.updGrout fun g => { g with aged := true }) (touches_of_lines fun _ => rfl)
      ((postPart_keeps _ _ _).touches (by decide))
  · split
    · exact touches.trans (t := s.updGrout fun g => { g with aged := false }) (touches_of_lines fun _ => rfl)
        (touches_forLines (fun l s => removeCause_touches (hM l) _ s) _)
    · exact touches_refl s

theorem takeBatch_touches (a : BatchArgs) : touches M s (takeBatch a s) := by
  have filled (before n : Nat) (b : Batch) :
      touches M s (tankClassFrom before ((batchAlerts a.cls n s).updGrout (Grout.addBatch b))) := by
    refine (((batchAlerts_keeps a.cls n s).touches (by decide)).trans
      ((addBatch_keeps b (batchAlerts a.cls n s)).touches (by decide))).trans ?_
    unfold tankClassFrom
    split
    · exact touches_refl _
    · refine touches_forLines (fun l s => ?_) _
      split
      · exact appendTransit_touches (hM l) _ _
      · exact touches_refl _
  unfold takeBatch
  dsimp only
  split
  · exact (filled _ _ _).trans (decideAged_touches hM _)
  · exact filled _ _ _

theorem batchReportReply_proper (a : BatchArgs) : (batchReportReply a s).Proper M s :=
  unlessLocked_proper (ite_proper (refuse_proper_self _ _) (ite_proper (refuse_proper_self _ _)
    (accept_proper _ (takeBatch_touches hM s a))))

theorem tankDumpReply_proper : (tankDumpReply s).Proper M s :=
  unlessLocked_proper (accept_proper _
    (((setBatches_keeps _ s (by intro; rfl)).touches (by decide)).trans (decideAged_touches hM _)))

theorem upliftClearReply_proper : (upliftClearReply s).Proper M s := by
  refine unlessLocked_proper (ite_proper (accept_proper_self _ _) (ite_proper (accept_proper _ ?_)
    (refuse_proper_self _ _)))
  exact ((setUpliftStop_keeps false s).touches (by decide)).trans
    (touches_forLines (fun l s => removeCause_touches (hM l) _ s) _)

theorem warmReset_touches : touches M s (warmReset s) := by
  have emptied : touches M s (emptyQueues (s.updStop fun x => { x with lockdown := false })) :=
    touches.trans (t := s.updStop fun x => { x with lockdown := false }) (touches_of_lines fun _ => rfl)
      ((emptyQueues_keeps _).touches (by decide))
  unfold warmReset
  dsimp only
  generalize emptyQueues _ = u at emptied ⊢
  have restarted : touches M u (forLines resetLine { u with exercise := 0, holdAll := false }) :=
    touches.trans (t := { u with exercise := 0, holdAll := false }) (touches_of_lines fun _ => rfl)
      (touches_forLines (fun l s => resetLine_touches (hM l) s) _)
  generalize forLines resetLine _ = v at restarted ⊢
  have settled : touches M v (settleStartCheck (v.updStop fun x => { x with startCheck := true })) :=
    touches.trans (t := v.updStop fun x => { x with startCheck := true }) (touches_of_lines fun _ => rfl)
      ((settleStartCheck_keeps _).touches (by decide))
  exact ((emptied.trans restarted).trans settled).then_lines fun l => line_formMixOrder _ l

theorem resetReply_proper (force : Nat) : (resetReply force s).Proper M s :=
  ite_proper (refuse_proper_self _ _) (ite_proper (refuse_proper_self _ _) (accept_proper _ (warmReset_touches hM s)))

theorem partConfigReply_proper (a : PartConfigArgs) : (partConfigReply a s).Proper M s := by
  refine ⟨?_, (partConfigReply_keeps a s).touches_all hM (by decide)⟩
  unfold partConfigReply unlessLocked
  split
  · exact .inr rfl
  split
  · exact .inr rfl
  · split
    · exact .inr rfl
    · exact .inl rfl

theorem clearCountersReply_proper (n : Nat) : (clearCountersReply n s).Proper M s := by
  refine ⟨?_, (clearCountersReply_keeps n s).touches_all hM (by decide)⟩
  unfold clearCountersReply unlessLocked
  split
  · exact .inr rfl
  split
  · exact .inl rfl
  · split
    · exact .inl rfl
    · exact .inr rfl

end

/-! ### Requests on the part that change no line -/

section
variable {M : LineId → Prop} (s : State)

theorem upliftZeroReply_proper : (upliftZeroReply s).Proper M s :=
  unlessLocked_proper (ite_proper (refuse_proper_self _ _)
    (accept_proper _ (((zeroGauges_keeps s).touches (by decide)).trans ((formWarn_keeps _).touches (by decide)))))

theorem readerEnableReply_proper (a : ReaderArgs) : (readerEnableReply a s).Proper M s := by
  refine unlessLocked_proper (ite_proper (accept_proper _ ?_) (refuse_proper_self _ _))
  exact touches.trans (t := s.updRecord (Records.switchReader a.reader (a.enable == 1))) (touches_of_lines fun _ => rfl)
    ((writeThrough_keeps _ _).touches (by decide))

theorem clearLatchesReply_proper (n : Nat) : (clearLatchesReply n s).Proper M s := by
  refine unlessLocked_proper (ite_proper (accept_proper _ (touches_of_lines fun _ => rfl)) ?_)
  split
  · exact accept_proper _ (touches_of_lines fun _ => rfl)
  · exact refuse_proper_self _ _

theorem setTimeReply_proper (n : Nat) : (setTimeReply n s).Proper M s :=
  unlessLocked_proper (accept_proper _ (touches_of_lines fun _ => rfl))

theorem exerciseStepReply_proper : (exerciseStepReply s).Proper M s := by
  refine unlessLocked_proper (ite_proper (refuse_proper_self _ _) (accept_proper _ ?_))
  exact (advanceExercise_keeps s).touches (by decide)

end

end Sys2Proof.Machine
end

section
/-! PROOFS. Every request as its row of section 10.4: how it runs, its body, its reply. -/

namespace Sys2Proof.Machine

/-! ### The row of a request -/

/-- A line that a command may change beyond its keepalive. -/
def mayTouch (s : State) (c : Instr) (l : LineId) : Prop := ∀ ls, touchedLines s c = some ls → l ∈ ls

/-- The kinds that are taken in LOCKDOWN (R149). -/
def takenInLockdown : List RequestKind :=
  [.status, .stageRead, .lineRead, .readRecords, .readCompletions, .readFaults, .readConnections, .readAlerts,
   .alertMask, .reset]

/-- No receiver and no answer differs, and no mask but the port's (R154, R168). -/
def samePorts (p : Port) (t s : State) : Prop :=
  ∀ q, (t.port q).linkPart = (s.port q).linkPart ∧ (q ≠ p → (t.port q).mask = (s.port q).mask)

/-- The command is a request of a kind from a port, with body `b` and own checks and effect `own`. -/
structure Row (c : Instr) (p : Port) (k : RequestKind) (tag : Byte) {α : Type} (b : Body α)
    (own : α → State → Reply) : Prop where
  run : ∀ s, exec c s = request k p tag b own s
  framed : c.wf = true → (c.carried = k.bodyLength ↔ ∃ a, b = .args a)
  proper : ∀ a, b = .args a → ∀ s, (own a s).Proper (mayTouch s c) s
  locked : k ∉ takenInLockdown → ∀ a s, s.stop.lockdown = true → own a s = refuse .locked s
  ports : ∀ a s, samePorts p (own a s).state s

/-- It is such a request, of one body and one effect. -/
def IsRow (c : Instr) (p : Port) (k : RequestKind) (tag : Byte) : Prop :=
  ∃ (α : Type) (b : Body α) (own : α → State → Reply), Row c p k tag b own

section
variable {s : State} {c : Instr} {p : Port} {k : RequestKind} {tag : Byte} {l : LineId}

theorem keeps.samePorts {B : List Part} {t : State} (h : keeps B s t) (links : .links ∉ B) (masks : .masks ∉ B) :
    samePorts p t s :=
  fun q => ⟨h.2 .links links q, fun _ => h.2 .masks masks q⟩

theorem ports_of_keeps {B : List Part} {α : Type} {own : α → State → Reply} (h : ∀ a u, keeps B u (own a u).state)
    (links : .links ∉ B) (masks : .masks ∉ B) (a : α) (u : State) :
    samePorts p (own a u).state u :=
  (h a u).samePorts links masks

theorem samePorts_refl (p : Port) (u : State) : samePorts p u u := fun _ => ⟨rfl, fun _ => rfl⟩

theorem samePorts_updPort {f : PortRecord → PortRecord} (h : ∀ x, (f x).linkPart = x.linkPart) (u : State) :
    samePorts p (u.updPort p f) u := by
  intro q
  rw [port_updPort]
  split
  · subst q
    exact ⟨h _, fun hq => absurd rfl hq⟩
  · exact ⟨rfl, fun _ => rfl⟩

theorem alertMaskReply_ports (u : State) (p : Port) (m : Nat) : samePorts p (alertMaskReply p m u).state u := by
  unfold alertMaskReply
  split
  · exact samePorts_updPort (f := fun x => { x with mask := BitVec.ofNat 32 m }) (fun _ => rfl) u
  · exact samePorts_refl p u

theorem mayTouch_all (h : touchedLines s c = none) (l : LineId) : mayTouch s c l := fun ls hls => by simp [h] at hls

theorem mayTouch_one {o : Option LineId} (h : touchedLines s c = some o.toList) (hl : o = some l) : mayTouch s c l := by
  intro ls hls
  obtain rfl := Option.some.inj (h.symm.trans hls)
  simpa using hl

theorem RoundTrip.args_iff {α : Type} {ok : α → Bool} {write : α → List Byte} {read : List Byte → α}
    (trip : RoundTrip k ok write read) {b : Body α} (hwf : b.wf k ok = true) :
    (b.bytes write).length = k.bodyLength ↔ ∃ a, b = .args a := by
  cases b with
  | args a => exact iff_of_true (trip.length a hwf) ⟨a, rfl⟩
  | wrongLength bytes =>
    refine iff_of_false ?_ fun ⟨_, h⟩ => nomatch h
    simp only [Body.wf, Bool.and_eq_true, bne_iff_ne] at hwf
    exact hwf.2

/-- STAGE_DECIDE's body in the row of CONTINUE, and in a row of one action. -/
theorem args_iff_of_wfContinue {b : Body DecideArgs} (hwf : b.wfContinue = true) :
    (b.bytes encodeDecide).length = RequestKind.stageDecide.bodyLength ↔ ∃ a, b = .args a := by
  cases b with
  | args a => exact iff_of_true rfl ⟨a, rfl⟩
  | wrongLength bytes => exact roundTrip_decide.args_iff (b := .wrongLength bytes) hwf

theorem args_iff_of_wfDecide {code : Nat} {b : Body DecideArgs} (hwf : b.wfDecide code = true) :
    (b.bytes encodeDecide).length = RequestKind.stageDecide.bodyLength ↔ ∃ a, b = .args a := by
  obtain ⟨a, rfl, -⟩ := wfDecide_iff.mp hwf
  exact iff_of_true rfl ⟨a, rfl⟩

theorem isRow_of {q : Port} {j : RequestKind} {t : Byte} {α : Type} {b : Body α} {own : α → State → Reply}
    (hk : some (q, j, t) = some (p, k, tag)) (h : Row c q j t b own) : IsRow c p k tag := by
  cases hk
  exact ⟨α, b, own, h⟩

/-- A kind that is taken in LOCKDOWN owes nothing there. -/
theorem taken_locked {P : Prop} (h : k ∈ takenInLockdown) : k ∉ takenInLockdown → P := fun h' => absurd h h'

/-- A stage decision reaches the line that carries the stage it names. -/
theorem mayTouch_carrier {a : DecideArgs} {x : Stage} (hx : s.stage? a.key = some x)
    (h : touchedLines s c = some (s.carrier? a.key).toList) (l : LineId) (hl : s.carrier? x.key = some l) :
    mayTouch s c l :=
  mayTouch_one h (key_of_lookupStage hx ▸ hl)

/-- Every command with a request kind is such a request, but for the frames of a kind that section 10.4 does not
list (R170). -/
theorem isRow_of_kind (hk : c.kind? = some (p, k, tag)) (hu : ∀ q n t b, c ≠ .unknownKind q n t b) :
    IsRow c p k tag := by
  cases c with
  | claim q t b =>
    exact isRow_of hk ⟨fun _ => rfl, fun h => roundTrip_claim.args_iff h,
      fun a hb s => by subst hb; exact claimReply_proper (fun _ => mayTouch_one rfl) q s,
      fun _ _ _ h => unlessLocked_locked _ h,
      ports_of_keeps (claimReply_keeps q) (by decide) (by decide)⟩
  | start q t b =>
    exact isRow_of hk ⟨fun _ => rfl, fun h => (roundTrip_unit rfl).args_iff h,
      fun _ _ s => withGrant_proper (refuse_proper_self _ _) fun l g hl =>
        startReply_proper (mayTouch_one rfl hl) g s,
      fun _ _ _ h => unlessLocked_locked _ h,
      ports_of_keeps (B := [.lines, .stages]) (fun _ => withGrant_frame
          (fun u => refuse_keeps [] _ u) startReply_keeps (by decide) (by decide)) (by decide) (by decide)⟩
  | pause q t b =>
    exact isRow_of hk ⟨fun _ => rfl, fun h => (roundTrip_unit rfl).args_iff h,
      fun _ _ s => withGrant_proper (refuse_proper_self _ _) fun l g hl =>
        pauseReply_proper (mayTouch_one rfl hl) g s,
      fun _ _ _ h => unlessLocked_locked _ h,
      ports_of_keeps (B := [.lines]) (fun _ => withGrant_frame
          (fun u => refuse_keeps [] _ u) pauseReply_keeps (by decide) (by decide)) (by decide) (by decide)⟩
  | pumpStatus q t b =>
    exact isRow_of hk ⟨fun _ => rfl, fun h => roundTrip_pumpStatus.args_iff h,
      fun a _ s => withGrant_proper (pumpStatusWithout_proper q a s) fun l g hl =>
        pumpReport_proper (mayTouch_one rfl hl) a g s,
      fun _ _ _ h => unlessLocked_locked _ h,
      ports_of_keeps (B := [.lines, .cuts]) (fun a => withGrant_frame (pumpStatusWithout_keeps q a)
          (pumpReport_keeps a) (by decide) (by decide)) (by decide) (by decide)⟩
  | release q t b =>
    exact isRow_of hk ⟨fun _ => rfl, fun h => (roundTrip_unit rfl).args_iff h,
      fun _ _ s => withGrant_proper (releaseWithout_proper q s) fun l g hl =>
        releaseReply_proper (mayTouch_one rfl hl) g s,
      fun _ _ _ h => unlessLocked_locked _ h,
      ports_of_keeps (B := [.lines, .cuts, .stages, .writes, .mixOrder, .queues])
          (fun _ => withGrant_frame (releaseWithout_keeps q) releaseReply_keeps (by decide) (by decide)) (by decide) (by decide)⟩
  | status q t b =>
    exact isRow_of hk ⟨fun _ => rfl, fun h => (roundTrip_unit rfl).args_iff h,
      fun _ _ s => accept_proper_self _ s,
      taken_locked (by decide),
      ports_of_keeps (B := []) (fun _ u => keeps_refl [] u) (by decide) (by decide)⟩
  | stageRead q t b =>
    exact isRow_of hk ⟨fun _ => rfl, fun h => roundTrip_stageRead.args_iff h,
      fun a _ s => stageReadReply_proper s a,
      taken_locked (by decide),
      ports_of_keeps (stageReadReply_keeps []) (by decide) (by decide)⟩
  | lineRead q t b =>
    exact isRow_of hk ⟨fun _ => rfl, fun h => (roundTrip_byte rfl).args_iff h,
      fun n _ s => lineReadReply_proper s n,
      taken_locked (by decide),
      ports_of_keeps (lineReadReply_keeps []) (by decide) (by decide)⟩
  | readAlerts q t b =>
    exact isRow_of hk ⟨fun _ => rfl, fun h => (roundTrip_unit rfl).args_iff h,
      fun _ _ s => accept_proper _ (touches_of_lines fun _ => rfl),
      taken_locked (by decide),
      ports_of_keeps (fun _ => readAlertsReply_keeps q) (by decide) (by decide)⟩
  | alertMask q t b =>
    exact isRow_of hk ⟨fun _ => rfl, fun h => (roundTrip_word rfl).args_iff h,
      fun m _ s => alertMaskReply_proper s q m,
      taken_locked (by decide),
      fun m u => alertMaskReply_ports u q m⟩
  | stageWrite q t b =>
    exact isRow_of hk ⟨fun _ => rfl, fun h => roundTrip_stageWrite.args_iff h,
      fun a _ s => stageWriteReply_proper a s,
      fun _ _ _ h => unlessLocked_locked _ h,
      ports_of_keeps (stageWriteReply_keeps) (by decide) (by decide)⟩
  | stageRelease q t b =>
    exact isRow_of hk ⟨fun _ => rfl, fun h => (roundTrip_key rfl).args_iff h,
      fun _ _ s => stageEditOf_proper fun x _ => stageReleaseOwn_proper x s,
      fun _ _ _ h => unlessLocked_locked _ h,
      ports_of_keeps (fun k u => stageEditOf_keeps k _ u (fun x => stageReleaseOwn_keeps x u)) (by decide) (by decide)⟩
  | stageWithdraw q t b =>
    exact isRow_of hk ⟨fun _ => rfl, fun h => (roundTrip_key rfl).args_iff h,
      fun _ _ s => stageEditOf_proper fun x _ => stageWithdrawOwn_proper x s,
      fun _ _ _ h => unlessLocked_locked _ h,
      ports_of_keeps (fun k u => stageEditOf_keeps k _ u (fun x => stageWithdrawOwn_keeps x u)) (by decide) (by decide)⟩
  | stageDelete q t b =>
    exact isRow_of hk ⟨fun _ => rfl, fun h => (roundTrip_key rfl).args_iff h,
      fun _ _ s => stageEditOf_proper fun x _ => stageDeleteOwn_proper x s,
      fun _ _ _ h => unlessLocked_locked _ h,
      ports_of_keeps (fun k u => stageEditOf_keeps k _ u (fun x => stageDeleteOwn_keeps x u)) (by decide) (by decide)⟩
  | stageDecideContinue q t b =>
    exact isRow_of hk ⟨fun _ => rfl, args_iff_of_wfContinue,
      fun a hb s => by subst hb; exact decideOf_proper fun x hx =>
        decideContinueOwn_proper (mayTouch_carrier hx rfl) a,
      fun _ _ _ h => unlessLocked_locked _ h,
      ports_of_keeps (fun a u => decideOf_keeps a _ u (fun x => decideContinueOwn_keeps a x u)) (by decide) (by decide)⟩
  | stageDecideClose q t b =>
    exact isRow_of hk ⟨fun _ => rfl, args_iff_of_wfDecide,
      fun a hb s => by subst hb; exact decideOf_proper fun x hx =>
        decideCloseOwn_proper (mayTouch_carrier hx rfl),
      fun _ _ _ h => unlessLocked_locked _ h,
      ports_of_keeps (fun a u => decideOf_keeps a _ u (fun x => decideCloseOwn_keeps x u)) (by decide) (by decide)⟩
  | stageDecideAbandon q t b =>
    exact isRow_of hk ⟨fun _ => rfl, args_iff_of_wfDecide,
      fun a hb s => by subst hb; exact decideOf_proper fun x hx =>
        decideAbandonOwn_proper (mayTouch_carrier hx rfl),
      fun _ _ _ h => unlessLocked_locked _ h,
      ports_of_keeps (fun a u => decideOf_keeps a _ u (fun x => decideAbandonOwn_keeps x u)) (by decide) (by decide)⟩
  | stageDecideResume q t b =>
    exact isRow_of hk ⟨fun _ => rfl, args_iff_of_wfDecide,
      fun _ _ s => decideOf_proper fun x _ => decideResumeOwn_proper x s,
      fun _ _ _ h => unlessLocked_locked _ h,
      ports_of_keeps (fun a u => decideOf_keeps a _ u (fun x => decideResumeOwn_keeps x u)) (by decide) (by decide)⟩
  | lineConfig q t b =>
    exact isRow_of hk ⟨fun _ => rfl, fun h => roundTrip_lineConfig.args_iff h,
      fun a hb s => by subst hb; exact lineConfigReply_proper (fun _ => mayTouch_one rfl) s,
      fun _ _ _ h => unlessLocked_locked _ h,
      ports_of_keeps (lineConfigReply_keeps) (by decide) (by decide)⟩
  | lineWatch q t b =>
    exact isRow_of hk ⟨fun _ => rfl, fun h => roundTrip_lineWatch.args_iff h,
      fun a hb s => by subst hb; exact lineWatchReply_proper (fun _ => mayTouch_one rfl) s,
      fun _ _ _ h => unlessLocked_locked _ h,
      ports_of_keeps (lineWatchReply_keeps) (by decide) (by decide)⟩
  | lineUnwatch q t b =>
    exact isRow_of hk ⟨fun _ => rfl, fun h => (roundTrip_byte rfl).args_iff h,
      fun a hb s => by subst hb; exact lineRequest_proper fun l hl =>
        lineUnwatchOwn_proper (mayTouch_one rfl hl) s,
      fun _ _ _ h => unlessLocked_locked _ h,
      ports_of_keeps (fun n u => lineRequest_keeps n _ u (fun l => lineUnwatchOwn_keeps l u)) (by decide) (by decide)⟩
  | lineIsolate q t b =>
    exact isRow_of hk ⟨fun _ => rfl, fun h => (roundTrip_byte rfl).args_iff h,
      fun a hb s => by subst hb; exact lineRequest_proper fun l hl =>
        lineIsolateOwn_proper (mayTouch_one rfl hl) s,
      fun _ _ _ h => unlessLocked_locked _ h,
      ports_of_keeps (fun n u => lineRequest_keeps n _ u (fun l => lineIsolateOwn_keeps l u)) (by decide) (by decide)⟩
  | lineReturn q t b =>
    exact isRow_of hk ⟨fun _ => rfl, fun h => (roundTrip_byte rfl).args_iff h,
      fun a hb s => by subst hb; exact lineRequest_proper fun l hl =>
        lineReturnOwn_proper (mayTouch_one rfl hl) s,
      fun _ _ _ h => unlessLocked_locked _ h,
      ports_of_keeps (fun n u => lineRequest_keeps n _ u (fun l => lineReturnOwn_keeps l u)) (by decide) (by decide)⟩
  | holdAll q t b =>
    exact isRow_of hk ⟨fun _ => rfl, fun h => (roundTrip_unit rfl).args_iff h,
      fun _ _ s => holdAllReply_proper (mayTouch_all rfl) s,
      fun _ _ _ h => unlessLocked_locked _ h,
      ports_of_keeps (fun _ => holdAllReply_keeps) (by decide) (by decide)⟩
  | releaseAll q t b =>
    exact isRow_of hk ⟨fun _ => rfl, fun h => (roundTrip_unit rfl).args_iff h,
      fun _ _ s => releaseAllReply_proper (mayTouch_all rfl) s,
      fun _ _ _ h => unlessLocked_locked _ h,
      ports_of_keeps (fun _ => releaseAllReply_keeps) (by decide) (by decide)⟩
  | batchReport q t b =>
    exact isRow_of hk ⟨fun _ => rfl, fun h => roundTrip_batch.args_iff h,
      fun a _ s => batchReportReply_proper (mayTouch_all rfl) s a,
      fun _ _ _ h => unlessLocked_locked _ h,
      ports_of_keeps (batchReportReply_keeps) (by decide) (by decide)⟩
  | tankDump q t b =>
    exact isRow_of hk ⟨fun _ => rfl, fun h => (roundTrip_unit rfl).args_iff h,
      fun _ _ s => tankDumpReply_proper (mayTouch_all rfl) s,
      fun _ _ _ h => unlessLocked_locked _ h,
      ports_of_keeps (fun _ => tankDumpReply_keeps) (by decide) (by decide)⟩
  | upliftZero q t b =>
    exact isRow_of hk ⟨fun _ => rfl, fun h => (roundTrip_unit rfl).args_iff h,
      fun _ _ s => upliftZeroReply_proper s,
      fun _ _ _ h => unlessLocked_locked _ h,
      ports_of_keeps (fun _ => upliftZeroReply_keeps) (by decide) (by decide)⟩
  | upliftClear q t b =>
    exact isRow_of hk ⟨fun _ => rfl, fun h => (roundTrip_unit rfl).args_iff h,
      fun _ _ s => upliftClearReply_proper (mayTouch_all rfl) s,
      fun _ _ _ h => unlessLocked_locked _ h,
      ports_of_keeps (fun _ => upliftClearReply_keeps) (by decide) (by decide)⟩
  | partConfig q t b =>
    exact isRow_of hk ⟨fun _ => rfl, fun h => roundTrip_partConfig.args_iff h,
      fun a _ s => partConfigReply_proper (mayTouch_all rfl) s a,
      fun _ _ _ h => unlessLocked_locked _ h,
      ports_of_keeps (partConfigReply_keeps) (by decide) (by decide)⟩
  | readerEnable q t b =>
    exact isRow_of hk ⟨fun _ => rfl, fun h => roundTrip_reader.args_iff h,
      fun a _ s => readerEnableReply_proper s a,
      fun _ _ _ h => unlessLocked_locked _ h,
      ports_of_keeps (readerEnableReply_keeps) (by decide) (by decide)⟩
  | readRecords q t b =>
    exact isRow_of hk ⟨fun _ => rfl, fun h => (roundTrip_unit rfl).args_iff h,
      fun _ _ s => readRecordsReply_proper s q,
      taken_locked (by decide),
      ports_of_keeps (fun _ => readRecordsReply_keeps q) (by decide) (by decide)⟩
  | readCompletions q t b =>
    exact isRow_of hk ⟨fun _ => rfl, fun h => (roundTrip_range rfl).args_iff h,
      fun a _ s => rangeReply_proper s _ _ a,
      taken_locked (by decide),
      ports_of_keeps (fun a u => rangeReply_keeps [] _ _ a u) (by decide) (by decide)⟩
  | readFaults q t b =>
    exact isRow_of hk ⟨fun _ => rfl, fun h => (roundTrip_range rfl).args_iff h,
      fun a _ s => rangeReply_proper s _ _ a,
      taken_locked (by decide),
      ports_of_keeps (fun a u => rangeReply_keeps [] _ _ a u) (by decide) (by decide)⟩
  | readConnections q t b =>
    exact isRow_of hk ⟨fun _ => rfl, fun h => (roundTrip_range rfl).args_iff h,
      fun a _ s => rangeReply_proper s _ _ a,
      taken_locked (by decide),
      ports_of_keeps (fun a u => rangeReply_keeps [] _ _ a u) (by decide) (by decide)⟩
  | clearCounters q t b =>
    exact isRow_of hk ⟨fun _ => rfl, fun h => (roundTrip_byte rfl).args_iff h,
      fun n _ s => clearCountersReply_proper (mayTouch_all rfl) s n,
      fun _ _ _ h => unlessLocked_locked _ h,
      ports_of_keeps (clearCountersReply_keeps) (by decide) (by decide)⟩
  | clearLatches q t b =>
    exact isRow_of hk ⟨fun _ => rfl, fun h => (roundTrip_byte rfl).args_iff h,
      fun n _ s => clearLatchesReply_proper s n,
      fun _ _ _ h => unlessLocked_locked _ h,
      ports_of_keeps (clearLatchesReply_keeps) (by decide) (by decide)⟩
  | setTime q t b =>
    exact isRow_of hk ⟨fun _ => rfl, fun h => (roundTrip_word rfl).args_iff h,
      fun n _ s => setTimeReply_proper s n,
      fun _ _ _ h => unlessLocked_locked _ h,
      ports_of_keeps (setTimeReply_keeps) (by decide) (by decide)⟩
  | exerciseStep q t b =>
    exact isRow_of hk ⟨fun _ => rfl, fun h => (roundTrip_unit rfl).args_iff h,
      fun _ _ s => exerciseStepReply_proper s,
      fun _ _ _ h => unlessLocked_locked _ h,
      ports_of_keeps (fun _ => exerciseStepReply_keeps) (by decide) (by decide)⟩
  | reset q t b =>
    exact isRow_of hk ⟨fun _ => rfl, fun h => (roundTrip_byte rfl).args_iff h,
      fun n _ s => resetReply_proper (mayTouch_all rfl) s n,
      taken_locked (by decide),
      ports_of_keeps (resetReply_keeps) (by decide) (by decide)⟩
  | unknownKind q n t b => exact absurd rfl (hu q n t b)
  | _ => cases hk

end

/-! ### What becomes of a request (R168 to R170) -/

section
variable {s t : State} {c : Instr} {p : Port} {k : RequestKind} {tag : Byte} {l : LineId}

@[simp] theorem touchedLines_heard : touchedLines (heard p s) c = touchedLines s c := by
  unfold touchedLines
  simp only [heard_portGrant, heard_carrier?]

theorem mayTouch_heard : mayTouch (heard p s) c = mayTouch s c := by
  funext l
  simp only [mayTouch, touchedLines_heard]

/-- What a request's own part owes: to the answer, the lines, the ports. -/
structure Reply.Served (c : Instr) (p : Port) (s : State) (r : Reply) : Prop where
  proper : r.Proper (mayTouch s c) (heard p s)
  ports : samePorts p r.state (heard p s)

theorem refuse_served (st : Status) : (refuse st (heard p s)).Served c p s :=
  ⟨refuse_proper_self _ _, samePorts_refl p _⟩

/-- What becomes of a request: it is ignored, it is an overrun, or it is answered. -/
theorem request_outcome (hk : c.kind? = some (p, k, tag)) (run : exec c s = .next t) :
    t = s ∨ t = countOverrun p s ∨ ∃ r : Reply, t = respond p k.code tag r ∧ r.Served c p s := by
  by_cases hu : ∀ q n g b, c ≠ .unknownKind q n g b
  · obtain ⟨α, b, own, row⟩ := isRow_of_kind hk hu
    rcases request_cases ((row.run s).symm.trans run) with rfl | rfl | ⟨r, rfl, ⟨st, rfl⟩ | ⟨a, hb, -, rfl⟩⟩
    · exact .inl rfl
    · exact .inr (.inl rfl)
    · exact .inr (.inr ⟨_, rfl, refuse_served st⟩)
    · exact .inr (.inr ⟨_, rfl, mayTouch_heard (p := p) ▸ row.proper a hb _, row.ports a _⟩)
  · push Not at hu
    obtain ⟨q, n, g, b, rfl⟩ := hu
    have known : (RequestKind.ofCode? n).isNone = false := by
      cases h : RequestKind.ofCode? n with
      | none => simp [Instr.kind?, encodeRequest, h] at hk
      | some j => rfl
    exact .inl (Host.Outcome.next.inj (run.symm.trans (congrArg Host.Outcome.next (if_neg (by simp [known])))))

/-- A listening port takes a well-formed request and answers it. -/
theorem request_answered (hc : c.wf = true) (hk : c.kind? = some (p, k, tag)) (hl : listening s p) :
    ∃ r : Reply, exec c s = .next (respond p k.code tag r) ∧ r.Served c p s := by
  obtain ⟨α, b, own, row⟩ := isRow_of_kind hk (ne_unknownKind_of_wf hc hk)
  refine ⟨_, (row.run s).trans (request_listening k tag b own hl), ?_⟩
  split
  · split
    · exact ⟨mayTouch_heard (p := p) ▸ row.proper _ rfl _, row.ports _ _⟩
    · exact refuse_served _
  · exact refuse_served _

theorem line_respond (n g : Byte) (r : Reply) (l : LineId) : (respond p n g r).line l = r.state.line l := rfl

theorem line_countOverrun (l : LineId) : (countOverrun p s).line l = s.line l :=
  (countOverrun_keeps p s).line (by decide) (by decide) (by decide) l

/-- Taking a request changes a line's keepalive at most, and that only on the line its port holds. -/
theorem heard_line_apart (l : LineId) :
    ((heard p s).line l).apartFromKeepalive = (s.line l).apartFromKeepalive ∧
    (s.portGrant p ≠ some l → (heard p s).line l = s.line l) := by
  rw [heard_line]
  constructor
  · split
    · unfold Line.apartFromKeepalive
      simp only [Option.map_map]
      congr 2
      funext g
      simp only [Function.comp_apply]
      split <;> rfl
    · rfl
  · exact fun h => if_neg h

/-- The keepalive of the LIVE grant that the port owns starts again as its request is taken (R50). -/
theorem heard_keepalive {g : Grant} {w : Timer} (hl : s.portGrant p = some l)
    (hg : ((heard p s).line l).grant = some g) (live : g.phase = .live) (hw : g.keepalive = some w) : w.elapsed = 0 := by
  rw [heard_line, if_pos hl] at hg
  obtain ⟨g₀, -, rfl⟩ := Option.map_eq_some_iff.mp hg
  by_cases h : g₀.phase = .live
  · simp only [h, if_true] at hw
    obtain ⟨w₀, -, rfl⟩ := Option.map_eq_some_iff.mp hw
    rfl
  · rw [if_neg h] at live
    exact absurd live h

theorem answerKind_code (k : RequestKind) : answerKind k.code = k.code + 0x80 := by cases k <;> rfl

/-! ### O7 -/

/-- Settles O7: a request that is taken is answered whatever its row, and no row lets a keepalive run on
(`Line.Renewed`); a frame that is not taken reaches the port alone. -/
theorem takenRequestIsAnsweredAndRestartsTheKeepalive : Obligations.TakenRequestIsAnsweredAndRestartsTheKeepalive := by
  unfold Obligations.TakenRequestIsAnsweredAndRestartsTheKeepalive
  refine ⟨fun c s p k tag hc hk hl => ?_, fun c s t p l hc hf hn run => ?_, fun s t p l run => ?_⟩
  · obtain ⟨r, run, served⟩ := request_answered hc hk hl
    have receiver : (r.state.port p).receiver = .answering := by
      have same : (r.state.port p).receiver = ((heard p s).port p).receiver :=
        (congrArg PortRecord.receiver (served.ports p).1 :)
      rw [same, heard_port, if_pos rfl]
    refine ⟨_, _, run, ?_, ?_, congrArg PortRecord.answer (port_updPort_self _ _ _), answerKind_code k, rfl, ?_, ?_⟩
    · exact (congrArg PortRecord.receiver (port_updPort_self _ _ _)).trans receiver
    · exact congrArg PortRecord.sending (port_updPort_self _ _ _)
    · exact fun refused => served.proper.plain.resolve_left refused
    · intro l g w hl hg live hw
      rw [line_respond] at hg
      rcases served.proper.lines l with same | ⟨-, renewed⟩
      · exact heard_keepalive hl (same ▸ hg) live hw
      · rcases renewed g w hg live hw with zero | ⟨g₀, hg₀, live₀, hw₀⟩
        · exact zero
        · exact heard_keepalive hl hg₀ live₀ hw₀
  · obtain ⟨act, ran⟩ := exec_frame hc hf
    obtain rfl := Host.Outcome.next.inj ((ran s).symm.trans run)
    cases h : (s.port p).receiver with
    | awaitStart => exact absurd (.inl h) hn
    | receiving => exact absurd (.inr h) hn
    | answering => rw [brokenFrame_answering h, line_countOverrun]
    | discarding => rw [brokenFrame_discarding h]
  · obtain rfl := Host.Outcome.next.inj run
    exact (brokenFrame_keeps p _ s (countCrc_keeps p s)).line (by decide) (by decide) (by decide) l

/-! ### O8 -/

/-- Settles O8: a frame of an unlisted kind is refused as such; a listed kind's role and length are `request`'s own
checks, and LOCKED comes before the row's (`isRow_of_kind`). -/
theorem requestChecksComeInOrder : Obligations.RequestChecksComeInOrder := by
  unfold Obligations.RequestChecksComeInOrder
  refine ⟨fun s p kind tag body hl unlisted => ?_, fun c s p k tag hc hk hl => ?_, fun k p => ?_⟩
  · have noKind : RequestKind.ofCode? kind = none := by
      simpa [RequestKind.ofCode?] using fun k _ => unlisted k
    refine ⟨_, (congrArg Host.Outcome.next (if_pos (by simp [noKind]))).trans
      (congrArg Host.Outcome.next (receive_listening _ hl)), rfl, rfl, rfl, rfl⟩
  · obtain ⟨α, b, own, row⟩ := isRow_of_kind hk (ne_unknownKind_of_wf hc hk)
    have run := (row.run s).trans (request_listening k tag b own hl)
    refine ⟨fun forbidden => ?_, fun permitted length => ?_, fun permitted length lockdown locks => ?_⟩
    · rw [forbidden] at run
      exact run
    · rw [permitted] at run
      cases b with
      | args a => exact absurd ((row.framed hc).mpr ⟨a, rfl⟩) length
      | wrongLength bytes => exact run
    · obtain ⟨a, rfl⟩ := (row.framed hc).mp length
      rw [permitted] at run
      have refused : own a (heard p s) = refuse .locked (heard p s) :=
        row.locked locks a _ (by rw [heard_stop]; exact lockdown)
      exact run.trans (congrArg (fun r => Host.Outcome.next (respond p k.code tag r)) refused)
  · cases k <;> simp [RequestKind.permits]

/-! ### O4 -/

/-- No other port's receiver, answer or mask differs. -/
def sameOtherPorts (p : Port) (t s : State) : Prop :=
  ∀ q, q ≠ p → (t.port q).linkPart = (s.port q).linkPart ∧ (t.port q).mask = (s.port q).mask

theorem sameOtherPorts_refl (p : Port) (s : State) : sameOtherPorts p s s := fun _ _ => ⟨rfl, rfl⟩

theorem sameOtherPorts.trans {u : State} (h : sameOtherPorts p u t) (h' : sameOtherPorts p t s) :
    sameOtherPorts p u s :=
  fun q hq => ⟨(h q hq).1.trans (h' q hq).1, (h q hq).2.trans (h' q hq).2⟩

theorem samePorts.others (h : samePorts p t s) : sameOtherPorts p t s := fun q hq => ⟨(h q).1, (h q).2 hq⟩

theorem sameOtherPorts_updPort (f : PortRecord → PortRecord) (s : State) : sameOtherPorts p (s.updPort p f) s := by
  intro q hq
  rw [port_updPort, if_neg hq]
  exact ⟨rfl, rfl⟩

theorem sameOtherPorts_postSaturated (y : Bool) (d : Int) (f : PortRecord → PortRecord) (s : State) :
    sameOtherPorts p (postSaturated y d (s.updPort p f)) s :=
  ((postSaturated_keeps y d _).samePorts (p := p) (by decide) (by decide)).others.trans (sameOtherPorts_updPort f s)

theorem sameOtherPorts_heard (p : Port) (s : State) : sameOtherPorts p (heard p s) s := by
  intro q hq
  rw [heard_port, if_neg hq]
  exact ⟨rfl, rfl⟩

theorem sameOtherPorts_brokenFrame {act : State → State} (h : sameOtherPorts p (act s) s) :
    sameOtherPorts p (brokenFrame p act s) s := by
  unfold brokenFrame
  split
  · exact h
  · exact h
  · exact sameOtherPorts_postSaturated _ _ _ s
  · exact sameOtherPorts_refl p s

/-- A frame at a port reaches no other port's receiver, answer or mask. -/
theorem exec_sameOtherPorts (hf : c.frameOn? = some p) (run : exec c s = .next t) : sameOtherPorts p t s := by
  cases hk : c.kind? with
  | some kind =>
    obtain ⟨q, k, tag⟩ := kind
    obtain rfl : q = p := Option.some.inj ((frameOn?_of_kind hk).symm.trans hf)
    rcases request_outcome hk run with rfl | rfl | ⟨r, rfl, served⟩
    · exact sameOtherPorts_refl _ _
    · exact sameOtherPorts_postSaturated _ _ _ s
    · exact ((sameOtherPorts_updPort _ _).trans served.ports.others).trans (sameOtherPorts_heard _ s)
  | none =>
    cases c
    case crcError | framingError | frameGapAbort =>
      cases hf
      obtain rfl := Host.Outcome.next.inj run
      exact sameOtherPorts_brokenFrame (sameOtherPorts_postSaturated _ _ _ s)
    case overrun =>
      cases hf
      obtain rfl := Host.Outcome.next.inj run
      split
      · exact sameOtherPorts_postSaturated _ _ _ s
      all_goals exact sameOtherPorts_refl p s
    case startByteReceived =>
      cases hf
      obtain rfl := Host.Outcome.next.inj run
      split
      · exact sameOtherPorts_updPort _ s
      · exact sameOtherPorts_postSaturated _ _ _ s
      all_goals exact sameOtherPorts_refl p s
    case unknownKind q kind g b =>
      cases hf
      obtain rfl := Host.Outcome.next.inj run
      split
      · rw [receive_eq_brokenFrame]
        exact sameOtherPorts_brokenFrame ((sameOtherPorts_updPort _ (heard _ s)).trans (sameOtherPorts_heard _ s))
      · exact sameOtherPorts_refl _ s
    case answerSent | discardSilenceEnd | lineSampleEvent | flowPulse | gaugeSampleEvent | levelSampleEvent | estopSample
        | clockSecond | valveTravelTimeElapsed | holdTimeout | acceptWindowExpiry | keepaliveExpiry | recordInterval
        | levelComparison | groutAgeLimitReached | storeWriteFailed | powerOn | storeWriteCompleted =>
      exact nomatch hf
    all_goals exact absurd hk (Option.some_ne_none _)

end

section
variable {s t : State} {c : Instr} {p : Port} {l : LineId}

/-- A command leaves a line as it is, but for the keepalive that its own request starts again. -/
def spares (c : Instr) (l : LineId) (s t : State) : Prop :=
  (t.line l).apartFromKeepalive = (s.line l).apartFromKeepalive ∧
  ((∀ p, c.frameOn? = some p → s.portGrant p ≠ some l) → t.line l = s.line l)

theorem spares_of_line (h : t.line l = s.line l) : spares c l s t := ⟨congrArg _ h, fun _ => h⟩

theorem spares_of_footprint (run : exec c s = .next t)
    (h : .lines ∉ footprint c ∧ .lineSettings ∉ footprint c ∧ .meters ∉ footprint c) : spares c l s t :=
  spares_of_line ((everyCommandKeepsItsFrame c s t run).line h.1 h.2.1 h.2.2 l)

/-- A request spares the lines that its row does not list. -/
theorem request_spares {p : Port} {k : RequestKind} {tag : Byte} {ls : List LineId} (hk : c.kind? = some (p, k, tag))
    (run : exec c s = .next t) (hls : touchedLines s c = some ls) (hl : l ∉ ls) : spares c l s t := by
  rcases request_outcome hk run with rfl | rfl | ⟨r, rfl, served⟩
  · exact spares_of_line rfl
  · exact spares_of_line (line_countOverrun l)
  · have untouched : r.state.line l = (heard p s).line l :=
      (served.proper.lines l).resolve_right fun h => hl (h.1 ls hls)
    obtain ⟨apart, same⟩ := heard_line_apart (p := p) (s := s) l
    exact ⟨(congrArg _ untouched).trans apart,
      fun other => untouched.trans (same (other p (frameOn?_of_kind hk)))⟩

theorem unknownKind_spares {q : Port} {n g : Byte} {b : List Byte} (run : exec (.unknownKind q n g b) s = .next t) :
    spares (.unknownKind q n g b) l s t := by
  obtain rfl := Host.Outcome.next.inj run
  split
  · unfold receive
    split
    case h_1 | h_2 =>
      obtain ⟨apart, same⟩ := heard_line_apart (p := q) (s := s) l
      exact ⟨apart, fun other => same (other q rfl)⟩
    case h_3 => exact spares_of_line (line_countOverrun l)
    case h_4 => exact spares_of_line rfl
  · exact spares_of_line rfl

/-! The timers of a line -/

section
variable {m : LineId}

theorem touches.spares_other (h : touches (Eq m) s t) (hl : l ∉ [m]) : spares c l s t :=
  spares_of_line ((h l).resolve_right fun h => hl (List.mem_singleton.mpr h.1.symm))

theorem timeoutHold_touches (m : LineId) (s : State) : touches (Eq m) s (timeoutHold m s) :=
  ((closeLine_touches rfl _ s).trans
    (withBound_touches (fun _ _ => (suspendStage_keeps _ _ _ _).touches (by decide)) m _)).trans
    ((enterFault_keeps _ _ _ _ _).touches (by decide))

theorem expireKeepalive_touches (m : LineId) (g : Grant) (s : State) :
    touches (Eq m) s (expireKeepalive m g s) := by
  have ended (k : StageKey) (u : State) : touches (Eq m) u
      ((if g.startTaken then suspendStage (some m) k .keepaliveLost else returnToReady k) u) := by
    split
    · exact (suspendStage_keeps _ _ _ _).touches (by decide)
    · exact (returnToReady_keeps _ _).touches (by decide)
  exact (((closeLine_touches rfl .keepaliveLost s).trans (withBound_touches ended m _)).then_lines
    fun l => line_postLine _ _ _ _ l).trans ((enterFault_keeps _ _ _ _ _).touches (by decide))

theorem writeRecord_touches (m : LineId) (k : StageKey) (s : State) : touches (Eq m) s (writeRecord m k s) := by
  unfold writeRecord
  have appended (e : InjectionRecord) :
      touches (Eq m) s (appendRecord e (s.updLine m fun x => { x with recordTimer := some 0 })) :=
    (touches_updLine rfl (.of_grant rfl)).trans ((appendRecord_keeps _ _).touches (by decide))
  dsimp only
  split
  · split
    · exact (appended _).trans ((saveStage_keeps _ _).touches (by decide))
    · exact appended _
  · exact appended _

end

theorem exec_spares {ls : List LineId} (run : exec c s = .next t) (hls : touchedLines s c = some ls) (hl : l ∉ ls) :
    spares c l s t := by
  cases hk : c.kind? with
  | some kind => exact request_spares hk run hls hl
  | none =>
    cases c
    case unknownKind => exact unknownKind_spares run
    case crcError | framingError | frameGapAbort | overrun | answerSent | discardSilenceEnd | startByteReceived
        | levelSampleEvent | levelComparison | storeWriteFailed | storeWriteCompleted =>
      exact spares_of_footprint run (by dsimp only [footprint]; decide)
    case valveTravelTimeElapsed m =>
      cases hls
      obtain rfl := Host.Outcome.next.inj run
      exact touches.spares_other (touches_updLine rfl (.of_grant rfl)) hl
    case holdTimeout m =>
      cases hls
      obtain rfl := Host.Outcome.next.inj run
      split
      · exact (timeoutHold_touches m s).spares_other hl
      · exact spares_of_line rfl
    case acceptWindowExpiry m =>
      cases hls
      obtain rfl := Host.Outcome.next.inj run
      split
      · exact ((closeLine_touches rfl _ s).trans
          (withBound_touches (fun _ _ => (returnToReady_keeps _ _).touches (by decide)) m _)).spares_other hl
      · exact spares_of_line rfl
    case keepaliveExpiry m =>
      cases hls
      obtain rfl := Host.Outcome.next.inj run
      split
      · exact (expireKeepalive_touches m _ s).spares_other hl
      · exact spares_of_line rfl
    case recordInterval m =>
      cases hls
      obtain rfl := Host.Outcome.next.inj run
      split
      · exact (withBound_touches (writeRecord_touches m) m s).spares_other hl
      · exact spares_of_line rfl
    case lineSampleEvent | flowPulse | gaugeSampleEvent | estopSample | clockSecond | groutAgeLimitReached | powerOn =>
      exact nomatch hls
    all_goals exact absurd hk (Option.some_ne_none _)

/-- Settles O4: a request by its row (`isRow_of_kind`), a broken frame by its footprint, a line's timer by the line it
names. -/
theorem lineCommandsAndRequestsKeepOtherLinesAndLinks : Obligations.LineCommandsAndRequestsKeepOtherLinesAndLinks := by
  unfold Obligations.LineCommandsAndRequestsKeepOtherLinesAndLinks
  exact ⟨fun c s t ls run hls l hl => exec_spares run hls hl,
    fun c s t p q run hf hq => exec_sameOtherPorts hf run q hq⟩

end

end Sys2Proof.Machine
end

section
/-! PROOFS. POWER_ON: the lines, the tank and the stops built afresh (O5), the store loaded (O6). -/

namespace Sys2Proof.Machine

section
variable {a b : Bool} {n : Nat} {s t u : State} {A : List Part}

/-- The fault entries and alerts of power-on, the ACTIVE stages suspended: what runs before the start check and
UPLIFT_WARN are settled. -/
def powerEntries (a b : Bool) (n : Nat) (s : State) : State :=
  let k := b && s.clock.valid
  let s := freshPart a k n s
  let s := if k then s else enterFault .rtcInvalid (.value 0) none .record s
  let s := if a then s else reportStoreFault (.value 0) none s
  s.activeKeys.foldl (fun s k => losePower k s) s

theorem powerUp_eq : powerUp a b n s = formWarn (settleStartCheck (powerEntries a b n s)) := rfl

theorem powerEntries_keeps :
    keeps [.queues, .faults, .writes, .stages] (freshPart a (b && s.clock.valid) n s) (powerEntries a b n s) := by
  have clock (k : Bool) (u : State) : keeps [.faults, .writes] u
      (if k then u else enterFault .rtcInvalid (.value 0) none .record u) := by
    split
    · exact keeps_refl _ _
    · exact enterFault_keeps _ _ _ _ _
  have store (u : State) : keeps [.queues, .faults, .writes] u
      (if a then u else reportStoreFault (.value 0) none u) := by
    split
    · exact keeps_refl _ _
    · exact reportStoreFault_keeps _ _ _
  unfold powerEntries
  dsimp only
  refine (foldl_keeps _ _ _ (fun u k => losePower_keeps k u)).after (by decide) ?_
  exact (store _).after (by decide) ((clock _ _).mono (by decide))

/-! ### A whole unit kept -/

theorem StopUnit.eq_of_parts {x y : StopUnit} (warn : x.warn = y.warn ∧ x.degraded = y.degraded)
    (uplift : x.upliftStop = y.upliftStop)
    (estop : x.estop = y.estop ∧ x.openCount = y.openCount ∧ x.closedCount = y.closedCount)
    (check : x.startCheck = y.startCheck ∧ x.checkDone = y.checkDone) (lockdown : x.lockdown = y.lockdown) :
    x = y := by
  cases x; cases y
  simp_all

theorem keeps.stop (h : keeps A s t)
    (hA : ∀ q ∈ [Part.warn, .upliftStop, .estop, .startCheck, .lockdown], q ∉ A) : t.stop = s.stop := by
  simp only [List.forall_mem_cons] at hA
  obtain ⟨warn, uplift, estop, check, lockdown, -⟩ := hA
  exact StopUnit.eq_of_parts (h.2 .warn warn) (h.2 .upliftStop uplift) (h.2 .estop estop) (h.2 .startCheck check)
    (h.2 .lockdown lockdown)

theorem Grout.eq_of_parts {x y : Grout} (batches : x.batches = y.batches ∧ x.nextBatch = y.nextBatch)
    (aged : x.aged = y.aged) (account : x.unaccounted = y.unaccounted ∧ x.noGrout = y.noGrout)
    (order : x.mixOrder = y.mixOrder)
    (comparison : x.mismatch = y.mismatch ∧ x.matched = y.matched ∧ x.levelMismatch = y.levelMismatch ∧
      x.difference = y.difference) (period : x.levelPeriod = y.levelPeriod) : x = y := by
  cases x; cases y
  simp_all

theorem keeps.grout (h : keeps A s t)
    (hA : ∀ q ∈ [Part.batches, .aged, .account, .mixOrder, .comparison, .levelPeriod], q ∉ A) :
    t.grout = s.grout := by
  simp only [List.forall_mem_cons] at hA
  obtain ⟨batches, aged, account, order, comparison, period, -⟩ := hA
  exact Grout.eq_of_parts (h.2 .batches batches) (h.2 .aged aged) (h.2 .account account) (h.2 .mixOrder order)
    (h.2 .comparison comparison) (h.2 .levelPeriod period)

/-! ### UPLIFT_WARN and the start check at power-on (R140, R144, R151) -/

theorem stop_formWarn (s : State) : (formWarn s).stop =
    { s.stop with warn := gaugeIds.any s.gaugeWarns || s.forcedWarn, degraded := s.forcedWarn } := by
  unfold formWarn
  dsimp only
  split
  · exact (postPart_keeps _ _ _).stop (by decide)
  · rfl

/-- No gauge is judged while none is VALID, and fewer than two judged gauges force the warning (R140). -/
theorem forcedWarn_of_invalid (h : ∀ g, (s.gauge g).channel.isValid = false) : s.forcedWarn = true := by
  have none : gaugeIds.filter s.judgedNow = [] := by
    simp [State.judgedNow, h]
  simp [State.forcedWarn, none]

theorem stop_settleStartCheck (h : s.stop.startCheck = true) :
    (settleStartCheck s).stop = { s.stop with
      startCheck := s.anyLine (fun x => x.startCheck),
      checkDone := s.stop.checkDone || !s.anyLine (fun x => x.startCheck) } := by
  unfold settleStartCheck
  cases checks : s.anyLine (fun x => x.startCheck)
  · simp [h, State.updStop]
  · cases unit : s.stop
    simp_all

theorem gauge_freshPart (k : Bool) (g : GaugeId) : ((freshPart a k n s).gauge g).channel.isValid = false := by
  have fresh (on : Bool) : (Gauge.atPowerOn on).channel.isValid = false := by cases on <;> rfl
  fin_cases g <;> exact fresh _

/-- The stops and flags of the part as it starts: UPLIFT_WARN forced, the start check begun if a line has one. -/
theorem stop_powerUp : (powerUp a b n s).stop =
    { StopUnit.fresh with startCheck := (powerUp a b n s).anyLine (fun x => x.startCheck),
                          checkDone := !(powerUp a b n s).anyLine (fun x => x.startCheck) } := by
  have begun : (powerEntries a b n s).stop = { StopUnit.fresh with warn := false, degraded := false } :=
    powerEntries_keeps.stop (by decide)
  have settled := (settleStartCheck_keeps (powerEntries a b n s))
  have gauges : (settleStartCheck (powerEntries a b n s)).gauges = (freshPart a (b && s.clock.valid) n s).gauges :=
    (settled.2 .gauges (by decide)).trans (powerEntries_keeps.2 .gauges (by decide))
  have forced : (settleStartCheck (powerEntries a b n s)).forcedWarn = true :=
    forcedWarn_of_invalid fun g => by
      rw [State.gauge, gauges]
      exact gauge_freshPart _ g
  have lines (q : Line → Bool) : (powerUp a b n s).anyLine q = (powerEntries a b n s).anyLine q := by
    unfold State.anyLine
    congr 1
    funext l
    rw [powerUp_eq, (formWarn_keeps _).line (by decide) (by decide) (by decide),
        settled.line (by decide) (by decide) (by decide)]
  rw [lines, powerUp_eq, stop_formWarn, stop_settleStartCheck (by rw [begun]; rfl), forced, begun]
  simp [StopUnit.fresh]

theorem startCheck_powerUp : (powerUp a b n s).anyLine (fun x => x.startCheck) = true ↔
    ∃ l : LineId, ((s.store.nv.lines.get l).getD LineSettings.default).present = true := by
  have line (l : LineId) : ((powerUp a b n s).line l).startCheck =
      ((s.store.nv.lines.get l).getD LineSettings.default).present := by
    rw [line_powerUp]
    unfold Line.atPowerOn
    dsimp only
    split <;> simp_all [Line.fresh]
  simp only [State.anyLine, List.any_eq_true, mem_lineIds, true_and, line]

/-- A line built afresh, as its settings say (R27, R46, R82). -/
theorem atPowerOn_facts (c : Option LineSettings) (travelTime : Nat) :
    let d := c.getD LineSettings.default
    let x := Line.atPowerOn c travelTime
    x.settings = d ∧ x.command = .closed ∧ x.causes = [] ∧ x.invalid = 0 ∧ x.stage = none ∧ x.owner = none ∧
    x.holdTimer = none ∧ x.watch = none ∧ x.values = none ∧ x.classes = none ∧ x.transit = [] ∧ x.decision = none ∧
    x.recordTimer = none ∧ x.window = [] ∧ x.ring = [] ∧
    (d.present = true → x.state = .closing ∧ x.startCheck = true ∧ x.isolation = none ∧
      x.travel = some ⟨.closed, travelTime, 0⟩ ∧
      x.pressure = ⟨.suspect, 0, 0, true, none, ⟨0, false⟩⟩ ∧ x.flow = ⟨.suspect, 0, 0, true, none, ⟨0, false⟩⟩) ∧
    (d.present = false → x.state = .isolated ∧ x.startCheck = false ∧ x.isolation = some .notPresent ∧
      x.travel = none ∧
      x.pressure = ⟨.off, 0, 0, true, none, ⟨0, false⟩⟩ ∧ x.flow = ⟨.off, 0, 0, true, none, ⟨0, false⟩⟩) := by
  dsimp only
  unfold Line.atPowerOn
  dsimp only
  cases h : (c.getD LineSettings.default).present
  · rw [if_neg (by simp)]
    simp [Line.fresh, Line.owner, Channel.fresh, Channel.switchOff, Counter.zero]
  · rw [if_pos rfl]
    simp [Line.fresh, Line.owner, Channel.fresh, Counter.zero]

/-- Settles O5: what POWER_ON builds afresh, and what its entries and alerts keep (`powerUp_after`, `stop_powerUp`). -/
theorem powerOnBuildsTheLinesAfresh : Obligations.PowerOnBuildsTheLinesAfresh := by
  unfold Obligations.PowerOnBuildsTheLinesAfresh
  intro a b n s
  have kept := powerUp_after a b n s
  have settings : (powerUp a b n s).settings = s.store.nv.part.getD PartSettings.default := kept.2 .settings (by decide)
  have exercise : (powerUp a b n s).exercise = 0 := kept.2 .exercise (by decide)
  have check : (powerUp a b n s).stop.startCheck = (powerUp a b n s).anyLine (fun x => x.startCheck) :=
    congrArg StopUnit.startCheck stop_powerUp
  refine ⟨_, rfl, settings, fun l => ?_, check ▸ startCheck_powerUp, kept.2 .holdAll (by decide), exercise, ?_⟩
  · dsimp only
    rw [line_powerUp, settings]
    exact atPowerOn_facts _ _
  · have grout : (powerUp a b n s).grout = Grout.fresh := kept.grout (by decide)
    rw [State.permitClosed, exercise, grout, stop_powerUp]
    simp [StopUnit.fresh, Grout.fresh]

end

/-! ### The stages that were ACTIVE (R25) -/

section
variable {s t u : State} {k : StageKey}

/-- A stage suspended if it is ACTIVE (R14). -/
def Stage.stopped (c : EndCause) (x : Stage) : Stage := if x.status = .active then x.suspendedBy c else x

/-- A stage at power-on: one stored as ACTIVE is SUSPENDED (R25). -/
abbrev Stage.powered (x : Stage) : Stage := x.stopped .powerLoss

theorem key_stopped (c : EndCause) (x : Stage) : (x.stopped c).key = x.key := by
  unfold Stage.stopped
  split <;> rfl

theorem powered_powered (x : Stage) : x.powered.powered = x.powered := by
  unfold Stage.powered Stage.stopped Stage.suspendedBy
  split <;> simp_all

theorem stage_suspendStage (l : Option LineId) (k j : StageKey) (c : EndCause) (s : State) :
    (suspendStage l k c s).stage? j = if j = k then (s.stage? k).map (Stage.stopped c) else s.stage? j := by
  cases found : s.stage? k with
  | none =>
    have same : suspendStage l k c s = s := by simp only [suspendStage, found]
    rw [same]
    split <;> simp_all
  | some x =>
    by_cases active : x.status = .active
    · rw [(suspendStage_active l c found active).stage (by decide), stage_saveStage,
        stage_updStage _ k j (Stage.suspendedBy c) (fun _ => rfl), found]
      simp [Stage.stopped, active]
    · rw [suspendStage_of_ne l c found active]
      split
      · subst j
        simp [found, Stage.stopped, active]
      · rfl

theorem stage_losePower (k j : StageKey) (s : State) :
    (losePower k s).stage? j = if j = k then (s.stage? k).map Stage.powered else s.stage? j := by
  have same (i : StageKey) : (enterFault .powerLoss .absent (some (.stage k)) .suspend s).stage? i = s.stage? i :=
    (enterFault_keeps _ _ _ _ _).stage (by decide) i
  rw [losePower, stage_suspendStage, same, same]

theorem stage_losePowers (ks : List StageKey) (j : StageKey) (s : State) :
    (ks.foldl (fun s k => losePower k s) s).stage? j =
      if j ∈ ks then (s.stage? j).map Stage.powered else s.stage? j := by
  induction ks generalizing s with
  | nil => simp
  | cons k ks ih =>
    rw [List.foldl_cons, ih, stage_losePower]
    by_cases same : j = k
    · subst j
      simp only [List.mem_cons, true_or, if_true, Option.map_map]
      have twice : Stage.powered ∘ Stage.powered = Stage.powered := funext powered_powered
      split <;> simp [twice]
    · simp [same]

theorem stage_powerEntries (a b : Bool) (n : Nat) (s : State) (j : StageKey) :
    (powerEntries a b n s).stage? j = (lookupStage j s.store.nv.stages).map Stage.powered := by
  unfold powerEntries
  dsimp only
  generalize hu : (if a = true then _ else reportStoreFault (.value 0) none _) = u
  have stages : u.store.stages = s.store.nv.stages := by
    rw [← hu]
    split <;> split
    · rfl
    · exact (enterFault_keeps _ _ _ _ _).2 .stages (by decide)
    · exact (reportStoreFault_keeps _ _ _).2 .stages (by decide)
    · exact ((reportStoreFault_keeps _ _ _).2 .stages (by decide)).trans
        ((enterFault_keeps _ _ _ _ _).2 .stages (by decide))
  have lookup : u.stage? j = lookupStage j s.store.nv.stages := by rw [State.stage?, stages]
  rw [stage_losePowers, lookup]
  by_cases active : u.activeAt j
  · rw [if_pos (mem_activeKeys active)]
  · cases found : lookupStage j s.store.nv.stages with
    | none => simp
    | some x =>
      have idle : x.status ≠ .active := fun h => active ⟨x, lookup.trans found, h⟩
      simp [Stage.stopped, idle]

/-! ### Latched flags (R163) -/

theorem latched_enterFault (f : FaultCode) (d : FaultDetail) (l : Option FaultLocation) (c : Consequence) (s : State) :
    (enterFault f d l c s).record.latched =
      if s.record.latched.contains f then s.record.latched else s.record.latched ++ [f] := by
  unfold enterFault writeThrough
  dsimp only
  split <;> rfl

theorem mem_latched_enterFault {f g : FaultCode} (d : FaultDetail) (l : Option FaultLocation) (c : Consequence)
    (s : State) : g ∈ (enterFault f d l c s).record.latched ↔ g = f ∨ g ∈ s.record.latched := by
  rw [latched_enterFault]
  split
  case isTrue present =>
    have : f ∈ s.record.latched := by simpa using present
    constructor
    · exact .inr
    · rintro (rfl | h)
      · exact this
      · exact h
  case isFalse => simp [or_comm]

theorem latched_losePower {f : FaultCode} (h : f ∈ s.record.latched) : f ∈ (losePower k s).record.latched := by
  obtain ⟨-, -, latched⟩ := (suspendStage_keeps none k .powerLoss (enterFault .powerLoss .absent (some (.stage k))
    .suspend s)).2 .faults (by decide)
  unfold losePower
  rw [latched]
  exact (mem_latched_enterFault _ _ _ _).2 (.inr h)

theorem latched_losePowers {f : FaultCode} (ks : List StageKey) (h : f ∈ s.record.latched) :
    f ∈ (ks.foldl (fun s k => losePower k s) s).record.latched := by
  induction ks generalizing s with
  | nil => exact h
  | cons k ks ih => exact ih (latched_losePower h)

theorem latched_reportStoreFault {f : FaultCode} (d : FaultDetail) (l : Option FaultLocation) (s : State) :
    f ∈ (reportStoreFault d l s).record.latched ↔ f = .storeWrite ∨ f ∈ s.record.latched := by
  obtain ⟨-, -, latched⟩ := (postPart_keeps .storeFault none s).2 .faults (by decide)
  unfold reportStoreFault
  rw [mem_latched_enterFault, latched]

theorem latched_powerUp (a b : Bool) (n : Nat) (s : State) :
    (a = false → .storeWrite ∈ (powerUp a b n s).record.latched) ∧
    ((b && s.clock.valid) = false → .rtcInvalid ∈ (powerUp a b n s).record.latched) := by
  have settled : (powerUp a b n s).record.latched = (powerEntries a b n s).record.latched := by
    obtain ⟨-, -, warned⟩ := (formWarn_keeps (settleStartCheck (powerEntries a b n s))).2 .faults (by decide)
    obtain ⟨-, -, checked⟩ := (settleStartCheck_keeps (powerEntries a b n s)).2 .faults (by decide)
    exact warned.trans checked
  rw [settled]
  unfold powerEntries
  refine ⟨fun store => latched_losePowers _ ?_, fun clock => latched_losePowers _ ?_⟩
  · have failed : ¬ a = true := by simp [store]
    rw [if_neg failed]
    exact (latched_reportStoreFault _ _ _).2 (.inl rfl)
  · have entered (u : State) : .rtcInvalid ∈ (enterFault .rtcInvalid (.value 0) none .record u).record.latched :=
      (mem_latched_enterFault _ _ _ _).2 (.inl rfl)
    have lost : ¬ (b && s.clock.valid) = true := by simp [clock]
    rw [if_neg lost]
    split
    · exact entered _
    · exact (latched_reportStoreFault _ _ _).2 (.inr (entered _))

/-! ### O6 -/

/-- A power-on with nothing to report makes no fault entry. -/
theorem powerEntries_quiet (n : Nat) (valid : s.clock.valid = true) (none : ∀ x ∈ s.store.nv.stages, x.status ≠ .active) :
    powerEntries true true n s = freshPart true true n s := by
  have keys : (freshPart true true n s).activeKeys = [] := by
    simpa [State.activeKeys, freshPart] using none
  simp [powerEntries, valid, keys]

/-- Power-on of the part as delivered, evaluated. -/
theorem powerUp_reset : powerUp true true 0 State.reset = State.reset := by decide +kernel

/-- Settles O6: what POWER_ON loads (`freshPart`), and what its entries and alerts keep (`powerUp_after`) and add. -/
theorem powerOnLoadsTheStore : Obligations.PowerOnLoadsTheStore := by
  unfold Obligations.PowerOnLoadsTheStore
  refine ⟨fun a b n s => ?_, congrArg Host.Outcome.next powerUp_reset⟩
  have kept := powerUp_after a b n s
  have clock : (powerUp a b n s).clock = s.clock.atPowerOn (b && s.clock.valid) n := kept.2 .clock (by decide)
  obtain ⟨latchedStore, latchedClock⟩ := latched_powerUp a b n s
  obtain ⟨records, nextRecord, readerC0, readerC1⟩ : _ ∧ _ ∧ _ ∧ _ := kept.2 .recordQueue (by decide)
  refine ⟨_, rfl, fun k => ?_, kept.2 .storeFault (by decide), kept.2 .nvCopy (by decide),
    kept.2 .completions (by decide), records, nextRecord, readerC0, readerC1, ?_, latchedStore,
    congrArg Clock.partSeconds clock, congrArg Clock.pendingTime clock, congrArg Clock.valid clock, ?_, ?_,
    kept.2 .connections (by decide), fun p => ?_⟩
  · rw [powerUp_eq, (formWarn_keeps _).stage (by decide), (settleStartCheck_keeps _).stage (by decide),
      stage_powerEntries]
    rfl
  · rintro rfl rfl valid none
    obtain ⟨faults, -, latched⟩ := (formWarn_keeps (settleStartCheck (powerEntries true true n s))).2 .faults
        (by decide)
    obtain ⟨faults', -, latched'⟩ := (settleStartCheck_keeps (powerEntries true true n s)).2 .faults (by decide)
    rw [powerUp_eq, faults, faults', latched, latched', powerEntries_quiet n valid none]
    exact ⟨rfl, rfl⟩
  · intro valid
    have kept : (b && s.clock.valid) = true := (congrArg Clock.valid clock).symm.trans valid
    rw [clock, kept]
    rfl
  · intro invalid
    have lost : (b && s.clock.valid) = false := (congrArg Clock.valid clock).symm.trans invalid
    refine ⟨?_, latchedClock lost⟩
    rw [clock, lost]
    rfl
  · have links := kept.link (by decide) p
    have counts := kept.portCounts (by decide) p
    rw [port_freshPart] at links counts
    have cut : ((powerUp a b n s).port p).cut = none := by
      rw [kept.2 .cuts (by decide) p, port_freshPart]
      rfl
    exact ⟨(congrArg PortRecord.receiver links :), cut, (congrArg PortRecord.answer links :),
      (congrArg PortRecord.crc counts :), (congrArg PortRecord.framing counts :),
      (congrArg PortRecord.overrun counts :)⟩

end

end Sys2Proof.Machine
end

section
/-! PROOFS. The stage edits: STAGE_WRITE, STAGE_RELEASE, STAGE_WITHDRAW, STAGE_DELETE and STAGE_DECIDE RESUME (R2 to R8, R19). -/

namespace Sys2Proof.Machine

section
variable {s t u v : State} {p : Port} {k : RequestKind} {key : StageKey} {x : Stage} {A : List Part}

/-! ### Taking a stage edit (R3) -/

theorem stageEdit_ready (ready : editReady s p) (r : Reply) : stageEdit (heard p s) r = r := by
  obtain ⟨⟨-, -, unlocked⟩, sound⟩ := ready
  have free : (heard p s).stop.lockdown = false := by rw [heard_stop]; exact unlocked
  have fault : ¬ (heard p s).store.fault = true := by rw [heard_store, sound]; decide
  rw [stageEdit, unlessLocked_free _ free, if_neg fault]

theorem stageEdit_storeFault (unlocked : s.stop.lockdown = false) (fault : s.store.fault = true) (r : Reply) :
    stageEdit (heard p s) r = refuse .storeFault (heard p s) := by
  have free : (heard p s).stop.lockdown = false := by rw [heard_stop]; exact unlocked
  rw [stageEdit, unlessLocked_free _ free, if_pos (by rw [heard_store]; exact fault)]

/-- A stage edit from a console, in a part that takes it, as its own checks answer it. -/
theorem request_edit {α : Type} (hk : k.permits p = p.isConsole) (tag : Byte) (a : α) (own : α → State → Reply)
    (ready : editReady s p) :
    request k p tag (.args a) (fun a u => stageEdit u (own a u)) s =
      .next (respond p k.code tag (own a (heard p s))) := by
  obtain ⟨console, listens, -⟩ := ready.1
  rw [request_console hk tag a _ console listens, stageEdit_ready ready]

theorem request_editOf (hk : k.permits p = p.isConsole) (tag : Byte) (own : Stage → State → Reply)
    (ready : editReady s p) (found : s.stage? key = some x) :
    request k p tag (.args key) (fun j => stageEditOf j own) s =
      .next (respond p k.code tag (own x (heard p s))) := by
  refine (request_edit hk tag key _ ready).trans ?_
  simp only [heard_stage?, found]

theorem request_editOf_absent (hk : k.permits p = p.isConsole) (tag : Byte) (own : Stage → State → Reply)
    (ready : editReady s p) (absent : s.stage? key = none) :
    request k p tag (.args key) (fun j => stageEditOf j own) s =
      .next (respond p k.code tag (refuse .badArgument (heard p s))) := by
  refine (request_edit hk tag key _ ready).trans ?_
  simp only [heard_stage?, absent]

theorem request_decide (tag : Byte) (own : DecideArgs → Stage → State → Reply) (ready : editReady s p) {a : DecideArgs}
    (found : s.stage? a.key = some x) (ok : a.ok = true) :
    request .stageDecide p tag (.args a) (fun a => decideOf a (own a)) s =
      .next (respond p RequestKind.stageDecide.code tag (own a x (heard p s))) := by
  refine (request_edit rfl tag a _ ready).trans ?_
  simp only [heard_stage?, found, ok, if_true]

theorem request_decide_refused (tag : Byte) (own : DecideArgs → Stage → State → Reply) (ready : editReady s p)
    {a : DecideArgs} (bad : s.stage? a.key = none ∨ a.ok = false) :
    request .stageDecide p tag (.args a) (fun a => decideOf a (own a)) s =
      .next (respond p RequestKind.stageDecide.code tag (refuse .badArgument (heard p s))) := by
  refine (request_edit rfl tag a _ ready).trans ?_
  simp only [heard_stage?]
  cases found : s.stage? a.key with
  | none => rfl
  | some x =>
    have notOk : ¬ a.ok = true := by simp [bad.resolve_left (by simp [found])]
    simp only [if_neg notOk]

/-! ### What a taken edit leaves (R3, R23) -/

theorem editDone_found (found : v.stage? key = some x) :
    editDone key v = accept (.stageStatus (some x.status)) v := by
  rw [editDone, found, Option.map_some]

theorem sameOtherStages_heard : sameOtherStages key (heard p s) v ↔ sameOtherStages key s v := by
  simp only [sameOtherStages, heard_stage?]

/-- A stage changed and written through, and other parts after it. -/
theorem stage_changed {f : Stage → Stage} (hf : ∀ x, (f x).key = x.key) (found : s.stage? key = some x)
    (kept : keeps A (saveStage key ((heard p s).updStage key f)) v)
    (hA : .stages ∉ A ∧ .writes ∉ A) :
    v.stage? key = some (f x) ∧ sameOtherStages key s v ∧ v.store.writes = begun s (.stage (f x).stored) := by
  obtain ⟨others, changed, written⟩ := stages_saved hf ((heard_stage? p s key).trans found)
    (keeps_refl [.queues] (saveStage key ((heard p s).updStage key f)))
  rw [sameOtherStages_heard] at others
  refine ⟨(kept.stage hA.1 key).trans changed, fun j hj => (kept.stage hA.1 j).trans (others j hj), ?_⟩
  exact (kept.2 .writes hA.2).trans (written.trans (begun_heard p s _))

/-- Such an edit, answered with the stage's new status (R3). -/
theorem edit_answered {c : Instr} {tag : Byte} {f : Stage → Stage} (hf : ∀ x, (f x).key = x.key)
    (found : s.stage? key = some x) (run : exec c s = .next (respond p k.code tag (editDone key v)))
    (kept : keeps A (saveStage key ((heard p s).updStage key f)) v)
    (hA : .stages ∉ A ∧ .writes ∉ A) :
    exec c s = .next (answering p k tag .ok (.stageStatus (some (f x).status)) v) ∧
    v.stage? key = some (f x) ∧ sameOtherStages key s v ∧ v.store.writes = begun s (.stage (f x).stored) := by
  obtain ⟨changed, others, written⟩ := stage_changed hf found kept hA
  rw [editDone_found changed] at run
  exact ⟨run, changed, others, written⟩

end

/-! ### O18 -/

section
variable {s : State} {p : Port}

theorem decideArgs_ok_iff (a : DecideArgs) :
    a.ok = true ↔ a.action ≤ 3 ∧ a.given ≤ 1 ∧ (a.given = 0 ∨ a.action = 0) := by
  simp [DecideArgs.ok, isFlag, and_assoc]

/-- A console's request that its own checks refuse. -/
theorem request_refused {α : Type} {k : RequestKind} (hk : k.permits p = p.isConsole) (tag : Byte) (a : α)
    (own : α → State → Reply) (ready : consoleReady s p) {st : Status}
    (h : own a (heard p s) = refuse st (heard p s)) :
    request k p tag (.args a) own s = .next (answering p k tag st .header (heard p s)) := by
  obtain ⟨console, listens, -⟩ := ready
  rw [request_console hk tag a _ console listens, h]
  rfl

theorem edit_storeFault {c : Instr} {k : RequestKind} {tag : Byte} (hc : c.wf = true)
    (hk : c.kind? = some (p, k, tag)) (length : c.carried = k.bodyLength) (ready : consoleReady s p)
    (fault : s.store.fault = true)
    (edit : k ∈ [RequestKind.stageWrite, .stageRelease, .stageWithdraw, .stageDecide, .stageDelete]) :
    refuses c s p k tag .storeFault := by
  have faulty (r : Reply) : stageEdit (heard p s) r = refuse .storeFault (heard p s) :=
    stageEdit_storeFault ready.2.2 fault r
  cases c
  case stageWrite q t b =>
    cases hk
    obtain ⟨a, rfl⟩ := (roundTrip_stageWrite.args_iff hc).mp length
    exact request_refused (k := .stageWrite) rfl tag a stageWriteReply ready (faulty _)
  case stageRelease q t b =>
    cases hk
    obtain ⟨a, rfl⟩ := ((roundTrip_key rfl).args_iff hc).mp length
    exact request_refused (k := .stageRelease) rfl tag a (fun j => stageEditOf j stageReleaseOwn) ready (faulty _)
  case stageWithdraw q t b =>
    cases hk
    obtain ⟨a, rfl⟩ := ((roundTrip_key rfl).args_iff hc).mp length
    exact request_refused (k := .stageWithdraw) rfl tag a (fun j => stageEditOf j stageWithdrawOwn) ready (faulty _)
  case stageDelete q t b =>
    cases hk
    obtain ⟨a, rfl⟩ := ((roundTrip_key rfl).args_iff hc).mp length
    exact request_refused (k := .stageDelete) rfl tag a (fun j => stageEditOf j stageDeleteOwn) ready (faulty _)
  case stageDecideContinue q t b =>
    cases hk
    obtain ⟨a, rfl⟩ := (args_iff_of_wfContinue hc).mp length
    exact request_refused (k := .stageDecide) rfl tag a (fun a => decideOf a (decideContinueOwn a)) ready (faulty _)
  case stageDecideClose q t b =>
    cases hk
    obtain ⟨a, rfl⟩ := (args_iff_of_wfDecide hc).mp length
    exact request_refused (k := .stageDecide) rfl tag a (fun a => decideOf a decideCloseOwn) ready (faulty _)
  case stageDecideAbandon q t b =>
    cases hk
    obtain ⟨a, rfl⟩ := (args_iff_of_wfDecide hc).mp length
    exact request_refused (k := .stageDecide) rfl tag a (fun a => decideOf a decideAbandonOwn) ready (faulty _)
  case stageDecideResume q t b =>
    cases hk
    obtain ⟨a, rfl⟩ := (args_iff_of_wfDecide hc).mp length
    exact request_refused (k := .stageDecide) rfl tag a (fun a => decideOf a decideResumeOwn) ready (faulty _)
  case unknownKind q n t b => exact absurd rfl (ne_unknownKind_of_wf hc hk q n t b)
  all_goals cases hk <;> simp at edit

/-- Settles O18: the checks that come before a stage edit's own, in their order (R3). -/
theorem stageEditChecksComeFirst : Obligations.StageEditChecksComeFirst := by
  unfold Obligations.StageEditChecksComeFirst
  refine ⟨fun c s p k tag hc hk length ready fault edit => edit_storeFault hc hk length ready fault edit,
    fun s p tag key ready absent => ⟨?_, ?_, ?_⟩, fun s p tag a ready bad => ?_⟩
  · exact request_editOf_absent rfl tag _ ready absent
  · exact request_editOf_absent rfl tag _ ready absent
  · exact request_editOf_absent rfl tag _ ready absent
  · have refused : s.stage? a.key = none ∨ a.ok = false := by
      rw [← Bool.not_eq_true, decideArgs_ok_iff]
      refine bad.imp_right ?_
      rintro (h | h | ⟨h, h'⟩) <;> omega
    exact ⟨request_decide_refused tag decideContinueOwn ready refused,
      request_decide_refused tag (fun _ => decideCloseOwn) ready refused,
      request_decide_refused tag (fun _ => decideAbandonOwn) ready refused,
      request_decide_refused tag (fun _ => decideResumeOwn) ready refused⟩

end

/-! ### O19: STAGE_WRITE (R2, R4, R5) -/

section
variable {s v : State} {p : Port} {x : Stage}

/-- The ranges of a STAGE_WRITE (R2). -/
def writeInRange (a : StageWriteArgs) : Prop :=
  let keyOk (k : StageKey) : Prop := 1 ≤ k.hole ∧ k.hole ≤ 9999 ∧ 1 ≤ k.stage ∧ k.stage ≤ 20
  let neighbours := a.neighbourSlots.take a.neighbourCount
  let prereqs := a.prereqSlots.take a.prereqCount
  a.clear ≤ 1 ∧ keyOk a.key ∧ 1 ≤ a.order ∧ a.order ≤ 4 ∧ a.top ≤ 20000 ∧ a.bottom ≤ 20000 ∧
  a.top + 50 ≤ a.bottom ∧ a.bottom ≤ a.top + 1500 ∧ 50 ≤ a.pMax ∧ a.pMax ≤ 12000 ∧ 10 ≤ a.vMax ∧ a.vMax ≤ 30000 ∧
  10000 ≤ a.jMax ∧ a.jMax ≤ 999999 ∧ 1 ≤ a.qRef ∧ a.qRef ≤ 100 ∧ 60 ≤ a.tRef ∧ a.tRef ≤ 1800 ∧ 1 ≤ a.band ∧
  a.band ≤ 20 ∧ 1 ≤ a.margin ∧ a.margin ≤ 20 ∧ 5 ≤ a.fractureDrop ∧ a.fractureDrop ≤ 50 ∧ 10 ≤ a.fractureRise ∧
  a.fractureRise ≤ 200 ∧ 1 ≤ a.startClass ∧ a.startClass ≤ 6 ∧ 50 ≤ a.thickStep ∧ a.thickStep ≤ 5000 ∧
  10 ≤ a.riseThreshold ∧ a.riseThreshold ≤ 2000 ∧ a.policy ≤ 1 ∧ a.overridden ≤ 1 ∧
  a.neighbourCount ≤ 4 ∧ (∀ n ∈ neighbours, 1 ≤ n ∧ n ≤ 9999 ∧ n ≠ a.key.hole) ∧ neighbours.Nodup ∧
  a.prereqCount ≤ 4 ∧ (∀ k ∈ prereqs, keyOk k ∧ k ≠ a.key) ∧ prereqs.Nodup

/-- The fields that such a request carries. -/
def writeFields (a : StageWriteArgs) : StageFields :=
  ⟨a.key, a.order, a.top, a.bottom, a.pMax, a.vMax, a.jMax, a.qRef, a.tRef, a.band, a.margin, a.fractureDrop,
   a.fractureRise, a.startClass, a.thickStep, a.riseThreshold, if a.policy = 0 then .hold else .note,
   a.neighbourSlots.take a.neighbourCount, a.prereqSlots.take a.prereqCount, a.overridden == 1⟩

theorem valid_iff (k : StageKey) : k.valid = true ↔ 1 ≤ k.hole ∧ k.hole ≤ 9999 ∧ 1 ≤ k.stage ∧ k.stage ≤ 20 := by
  simp [StageKey.valid, within, and_assoc]

theorem notMem_iff_forall_ne {α : Type} {k : α} {xs : List α} : k ∉ xs ↔ ∀ x ∈ xs, x ≠ k :=
  ⟨fun h _ hx e => h (e ▸ hx), fun h hk => h k hk rfl⟩

theorem listsOk_iff (a : StageWriteArgs) : a.listsOk = true ↔
    (a.neighbourCount ≤ 4 ∧ (∀ n ∈ a.neighbours, 1 ≤ n ∧ n ≤ 9999 ∧ n ≠ a.key.hole) ∧ a.neighbours.Nodup) ∧
    (a.prereqCount ≤ 4 ∧ (∀ k ∈ a.prereqs, k.valid = true ∧ k ≠ a.key) ∧ a.prereqs.Nodup) := by
  simp only [StageWriteArgs.listsOk, distinct, within, Bool.and_eq_true, decide_eq_true_eq, List.all_eq_true,
    Bool.not_eq_true', List.contains_eq_mem, decide_eq_false_iff_not, notMem_iff_forall_ne, forall_and]
  constructor
  · rintro ⟨⟨⟨⟨⟨⟨⟨count, low, high⟩, nodup⟩, other⟩, count'⟩, valid⟩, nodup'⟩, other'⟩
    exact ⟨⟨count, ⟨low, high, other⟩, nodup⟩, count', ⟨valid, other'⟩, nodup'⟩
  · rintro ⟨⟨count, ⟨low, high, other⟩, nodup⟩, count', ⟨valid, other'⟩, nodup'⟩
    exact ⟨⟨⟨⟨⟨⟨⟨count, low, high⟩, nodup⟩, other⟩, count'⟩, valid⟩, nodup'⟩, other'⟩

theorem scalarsOk_and_listsOk_iff (a : StageWriteArgs) : (a.scalarsOk && a.listsOk) = true ↔ writeInRange a := by
  rw [Bool.and_eq_true, listsOk_iff]
  simp only [StageWriteArgs.scalarsOk, StageWriteArgs.neighbours, StageWriteArgs.prereqs, within, isFlag,
    Bool.and_eq_true, decide_eq_true_eq, valid_iff, writeInRange, Nat.zero_le, true_and, and_assoc]

theorem fields?_of_inRange {a : StageWriteArgs} (h : writeInRange a) : a.fields? = some (writeFields a) :=
  if_pos ((scalarsOk_and_listsOk_iff a).mpr h)

theorem fields?_of_not_inRange {a : StageWriteArgs} (h : ¬ writeInRange a) : a.fields? = none :=
  if_neg (mt (scalarsOk_and_listsOk_iff a).mp h)

theorem exec_stageWrite (ready : editReady s p) (tag : Byte) (a : StageWriteArgs) :
    exec (.stageWrite p tag (.args a)) s =
      .next (respond p RequestKind.stageWrite.code tag (stageWriteReply a (heard p s))) :=
  request_console rfl tag a stageWriteReply ready.1.1 ready.1.2.1

theorem writes_writeThrough (w : StoreWrite) (s : State) : (writeThrough w s).store.writes = begun s w := by
  unfold writeThrough begun
  split <;> rfl

/-- A record put into the table and written through (R4, R5). -/
theorem storeStage_stored (x : Stage) (s : State) :
    (storeStage x s).stage? x.key = some x ∧ sameOtherStages x.key s (storeStage x s) ∧
    (storeStage x s).store.writes = begun s (.stage x.stored) ∧
    (storeStage x s).store.stages = insertStage x s.store.stages := by
  have found : (s.setStages (insertStage x s.store.stages)).stage? x.key = some x := by
    rw [stage_setStages, lookupStage_insertStage, if_pos rfl]
  refine ⟨by rw [stage_storeStage, if_pos rfl], fun j hj => by rw [stage_storeStage, if_neg hj],
    (writes_saveStage found).trans rfl, (saveStage_keeps _ _).2 .stages (by decide)⟩

theorem length_insertStage_of_absent {xs : List Stage} (h : lookupStage x.key xs = none) :
    (insertStage x xs).length = xs.length + 1 := by
  induction xs with
  | nil => rfl
  | cons y ys ih =>
    rw [lookupStage_cons] at h
    split at h
    case isTrue => cases h
    case isFalse differs =>
      rw [insertStage, if_neg differs]
      split
      · rfl
      · simp [ih h]

theorem key_rewrite (f : StageFields) (b : Bool) (x : Stage) : (x.rewrite f b).key = f.key := by
  unfold Stage.rewrite
  split <;> rfl

/-- Settles O19: by the ranges, then by the record that the table holds of the key (R2 to R5). -/
theorem stageWriteAddsOrRewritesADraft : Obligations.StageWriteAddsOrRewritesADraft := by
  unfold Obligations.StageWriteAddsOrRewritesADraft
  intro s p tag a ready _ _ c keyOk neighbours prereqs inRange fields
  have run := exec_stageWrite ready tag a
  rw [stageWriteReply, stageEdit_ready ready] at run
  simp only [heard_stage?, heard_store] at run
  have stored (x : Stage) (hx : x.key = a.key) : (storeStage x (heard p s)).stage? a.key = some x ∧
      sameOtherStages a.key s (storeStage x (heard p s)) ∧
      (storeStage x (heard p s)).store.writes = begun s (.stage x.stored) ∧
      (storeStage x (heard p s)).store.stages = insertStage x s.store.stages := by
    obtain ⟨found, others, written, table⟩ := storeStage_stored x (heard p s)
    rw [hx] at found others
    exact ⟨found, sameOtherStages_heard.mp others, written.trans (begun_heard p s _), table.trans (by rw [heard_store])⟩
  refine ⟨fun out => ?_, fun ok absent full => ?_, fun ok absent room => ?_, fun x ok found notDraft => ?_,
    fun x ok found draft => ?_⟩
  · simp only [fields?_of_not_inRange out] at run
    exact run
  · simp only [fields?_of_inRange ok, show s.stage? (writeFields a).key = none from absent, if_pos full] at run
    exact run
  · have key : (Stage.fresh (writeFields a)).key = a.key := rfl
    obtain ⟨found, others, written, table⟩ := stored (Stage.fresh (writeFields a)) key
    simp only [fields?_of_inRange ok, show s.stage? (writeFields a).key = none from absent, if_neg (Nat.not_le.mpr room)] at run
    rw [show (writeFields a).key = a.key from rfl, editDone_found found] at run
    refine ⟨_, run, found, others, ?_, written⟩
    rw [table, length_insertStage_of_absent (x := Stage.fresh (writeFields a)) absent]
  · simp only [fields?_of_inRange ok, show s.stage? (writeFields a).key = some x from found, if_neg notDraft] at run
    exact run
  · obtain ⟨found', others, written, -⟩ := stored (x.rewrite (writeFields a) (a.clear == 1)) (key_rewrite _ _ _)
    simp only [fields?_of_inRange ok, show s.stage? (writeFields a).key = some x from found, if_pos draft] at run
    rw [show (writeFields a).key = a.key from rfl, editDone_found found'] at run
    have same : x.rewrite (writeFields a) (a.clear == 1) =
        if a.clear = 1 then { x with fields := (writeFields a), progress := none, startTime := none, endTime := none }
        else { x with fields := (writeFields a) } := by
      unfold Stage.rewrite
      simp only [beq_iff_eq]
    have status : (x.rewrite (writeFields a) (a.clear == 1)).status = .draft := by
      rw [same]
      split <;> exact draft
    rw [status] at run
    exact ⟨_, run, same ▸ found', others, same ▸ written⟩

end

/-! ### O20: STAGE_RELEASE, STAGE_WITHDRAW and RESUME (R6, R7, R19) -/

section
variable {s v : State} {p : Port} {k : StageKey} {x : Stage}

theorem allComplete_iff (keys : List StageKey) :
    s.allComplete keys = true ↔ ∀ q ∈ keys, ∃ y, s.stage? q = some y ∧ y.status = .complete := by
  simp only [State.allComplete, List.all_eq_true]
  refine forall₂_congr fun q _ => ?_
  cases s.stage? q <;> simp

theorem releasedStatus_heard (f : StageFields) : (heard p s).releasedStatus f = s.releasedStatus f := by
  have all : (heard p s).allComplete f.prereqs = s.allComplete f.prereqs := by
    rw [Bool.eq_iff_iff, allComplete_iff, allComplete_iff]
    simp only [heard_stage?]
  rw [State.releasedStatus, State.releasedStatus, all]

/-- A released stage is READY when it is free, and BLOCKED when it is not (R6). -/
theorem releasedStatus_cases (f : StageFields) {st : StageStatus}
    (h : (f.overridden = true ∨ ∀ q ∈ f.prereqs, ∃ y, s.stage? q = some y ∧ y.status = .complete) ∧ st = .ready ∨
      ¬ (f.overridden = true ∨ ∀ q ∈ f.prereqs, ∃ y, s.stage? q = some y ∧ y.status = .complete) ∧ st = .blocked) :
    s.releasedStatus f = st := by
  rw [← allComplete_iff, ← Bool.or_eq_true] at h
  unfold State.releasedStatus
  rcases h with ⟨free, rfl⟩ | ⟨bound, rfl⟩
  · exact if_pos free
  · exact if_neg bound

theorem stageReleaseOwn_prereq_absent (draft : x.status = .draft) {q : StageKey} (hq : q ∈ x.fields.prereqs)
    (absent : s.stage? q = none) : stageReleaseOwn x s = refuse .badArgument s := by
  have missing : ¬ x.fields.prereqs.all (fun k => (s.stage? k).isSome) = true := by
    simp only [List.all_eq_true, not_forall]
    exact ⟨q, hq, by simp [absent]⟩
  rw [stageReleaseOwn, if_neg (not_not.mpr draft), if_neg missing]

theorem stageReleaseOwn_taken (draft : x.status = .draft) (found : ∀ q ∈ x.fields.prereqs, s.stage? q ≠ none) :
    stageReleaseOwn x s = editDone x.key (saveStage x.key
      (s.updStage x.key (fun y => { y with status := s.releasedStatus x.fields }))) := by
  have all : x.fields.prereqs.all (fun k => (s.stage? k).isSome) = true := by
    simp only [List.all_eq_true, Option.isSome_iff_ne_none]
    exact found
  rw [stageReleaseOwn, if_neg (not_not.mpr draft), if_pos all]

theorem stageWithdrawOwn_taken (status : x.status ∈ [StageStatus.ready, .blocked]) :
    stageWithdrawOwn x s = editDone x.key (formMixOrder
      (saveStage x.key (s.updStage x.key (fun x => { x with status := .draft, waiting := false })))) := by
  unfold stageWithdrawOwn
  cases h : x.status <;> simp_all

theorem stageWithdrawOwn_refused (status : x.status ∉ [StageStatus.ready, .blocked]) :
    stageWithdrawOwn x s = refuse .wrongState s := by
  unfold stageWithdrawOwn
  cases h : x.status <;> simp_all

/-- Settles O20: each of the three edits by the stage's status. -/
theorem stageReleaseWithdrawAndResume : Obligations.StageReleaseWithdrawAndResume := by
  unfold Obligations.StageReleaseWithdrawAndResume
  refine ⟨fun s p tag k x ready found => ?_, fun s p tag k x ready found => ?_,
    fun s p tag a x ready found action given => ?_⟩
  · obtain rfl := key_of_lookupStage found
    have run : exec (.stageRelease p tag (.args x.key)) s = _ := request_editOf rfl tag stageReleaseOwn ready found
    refine ⟨fun notDraft => ?_, fun draft ⟨q, hq, absent⟩ => ?_, fun st draft present hst => ?_⟩
    · rw [stageReleaseOwn, if_pos notDraft] at run
      exact run
    · rw [stageReleaseOwn_prereq_absent draft hq ((heard_stage? p s q).trans absent)] at run
      exact run
    · rw [stageReleaseOwn_taken draft (fun q hq => by rw [heard_stage?]; exact present q hq), releasedStatus_heard,
        releasedStatus_cases _ hst] at run
      obtain ⟨answered, changed, others, written⟩ :=
        edit_answered (f := fun y => { y with status := st }) (fun _ => rfl) found run (keeps_refl [] _) (by decide)
      have kept : keeps [.links, .lines, .stages, .writes] s
          (saveStage x.key ((heard p s).updStage x.key fun y => { y with status := st })) :=
        (saveStage_keeps _ _).after (by decide) ((updStage_keeps _ _ _).after (by decide)
          ((heard_keeps p s).mono (by decide)))
      exact ⟨_, answered, changed, others, written, kept.2 .mixOrder (by decide),
        fun q => (congrArg PortRecord.queue (kept.2 .queues (by decide) q) :)⟩
  · obtain rfl := key_of_lookupStage found
    have run : exec (.stageWithdraw p tag (.args x.key)) s = _ := request_editOf rfl tag stageWithdrawOwn ready found
    refine ⟨fun status => ?_, fun status => ?_⟩
    · rw [stageWithdrawOwn_refused status] at run
      exact run
    · rw [stageWithdrawOwn_taken status] at run
      obtain ⟨answered, changed, others, written⟩ :=
        edit_answered (f := fun y => { y with status := .draft, waiting := false }) (fun _ => rfl) found run
          (formMixOrder_keeps _) (by decide)
      exact ⟨_, answered, changed, others, written, mixOrder_formMixOrder _⟩
  · have ok : a.ok = true := (decideArgs_ok_iff a).mpr (by omega)
    have run : exec (.stageDecideResume p tag (.args a)) s = _ :=
      request_decide tag (fun _ => decideResumeOwn) ready found ok
    have key : x.key = a.key := key_of_lookupStage found
    refine ⟨fun other => ?_, fun suspended => ?_⟩
    · rw [decideResumeOwn, if_neg other] at run
      exact run
    · rw [decideResumeOwn, if_pos suspended, key] at run
      obtain ⟨answered, changed, others, written⟩ :=
        edit_answered (f := fun y => { y with status := .ready, endCause := none, waiting := false }) (fun _ => rfl)
          found run (formMixOrder_keeps _) (by decide)
      exact ⟨_, answered, changed, others, written, mixOrder_formMixOrder _⟩

/-! ### O21: STAGE_DELETE (R8) -/

theorem inUse_iff : s.inUse k = true ↔ ∃ y ∈ s.store.stages, y.status ≠ .draft ∧ k ∈ y.fields.prereqs := by
  simp [State.inUse]

theorem inUse_heard : (heard p s).inUse k = s.inUse k := by
  simp only [State.inUse, heard_store]

theorem stageDeleteOwn_refused (status : x.status ∉ [StageStatus.draft, .complete, .abandoned]) :
    stageDeleteOwn x s = refuse .wrongState s := by
  unfold stageDeleteOwn
  cases h : x.status <;> simp_all

theorem stageDeleteOwn_taken (status : x.status ∈ [StageStatus.draft, .complete, .abandoned]) :
    stageDeleteOwn x s =
      if s.inUse x.key then refuse .inUse s else editDone x.key (deleteStage x.key s) := by
  unfold stageDeleteOwn
  cases h : x.status <;> simp_all

/-- What a deletion leaves of the table, the completion list and the store. -/
theorem deleteStage_deleted (k : StageKey) (s : State) :
    (deleteStage k s).store.stages = s.store.stages.filter (fun y => y.key ≠ k) ∧
    (deleteStage k s).stage? k = none ∧ sameOtherStages k s (deleteStage k s) ∧
    (deleteStage k s).record.completions = s.record.completions.filter (fun m => m.key ≠ k) ∧
    (deleteStage k s).store.writes = begun s (.stageRemoved k) := by
  have removed : (removeSummary k (s.setStages (removeStage k s.store.stages))).store.stages =
      removeStage k s.store.stages := rfl
  have stages : (deleteStage k s).store.stages = removeStage k s.store.stages :=
    ((formMixOrder_keeps _).2 .stages (by decide)).trans ((writeThrough_keeps _ _).2 .stages (by decide))
  have lookup (j : StageKey) : (deleteStage k s).stage? j = if j = k then none else s.stage? j := by
    rw [State.stage?, stages, lookupStage_removeStage]
    rfl
  have completions : (deleteStage k s).record.completions = dropSummary k s.record.completions :=
    ((formMixOrder_keeps _).2 .completions (by decide)).trans ((writeThrough_keeps _ _).2 .completions (by decide))
  refine ⟨stages.trans ?_, by rw [lookup, if_pos rfl], fun j hj => by rw [lookup, if_neg hj], completions.trans ?_, ?_⟩
  · simp [removeStage, bne, beq_eq_decide]
  · simp [dropSummary, bne, beq_eq_decide]
  · exact ((formMixOrder_keeps _).2 .writes (by decide)).trans (writes_writeThrough _ _)

/-- Settles O21: by the stage's status and its use among the prerequisites. -/
theorem stageDeleteRemovesUnusedStages : Obligations.StageDeleteRemovesUnusedStages := by
  unfold Obligations.StageDeleteRemovesUnusedStages
  intro s p tag k x ready found c ended used
  obtain rfl := key_of_lookupStage found
  have run : exec (.stageDelete p tag (.args x.key)) s = _ := request_editOf rfl tag stageDeleteOwn ready found
  refine ⟨fun live => ?_, fun status uses => ?_, fun status unused => ?_⟩
  · rw [stageDeleteOwn_refused live] at run
    exact run
  · rw [stageDeleteOwn_taken status, inUse_heard, if_pos (inUse_iff.mpr uses)] at run
    exact run
  · rw [stageDeleteOwn_taken status, inUse_heard, if_neg (mt inUse_iff.mp unused)] at run
    obtain ⟨stages, gone, others, completions, written⟩ := deleteStage_deleted x.key (heard p s)
    rw [editDone, gone] at run
    rw [heard_store] at stages
    rw [heard_record] at completions
    exact ⟨_, run, stages, gone, sameOtherStages_heard.mp others, completions, written.trans (begun_heard p s _),
      mixOrder_formMixOrder _⟩

end

end Sys2Proof.Machine
end

section
/-! PROOFS. STAGE_DECIDE: CONTINUE, CLOSE and ABANDON (R13, R16 to R18). -/

namespace Sys2Proof.Machine

section
variable {s v : State} {p : Port} {k : StageKey} {x : Stage} {l m : LineId}

/-! ### O22: CONTINUE (R16, R101) -/

theorem carrier?_spec (h : s.carrier? k = some l) : (s.line l).state.live = true ∧ (s.line l).stage = some k := by
  simpa using List.find?_some h

theorem line_removeDecided (d : PendingDecision) (l m : LineId) (s : State) :
    (removeDecided d l s).line m =
      if m = l then
        let z := if d.fracture = true then (s.line l).freed .fracture else s.line l
        if d.connection = true then z.freed .connection else z
      else s.line m := by
  unfold removeDecided
  cases d.fracture <;> cases d.connection <;> by_cases hm : m = l <;> simp [hm, line_removeCause]

/-- The ceilings of a line formed again, as its stage's record stands (R101). -/
theorem line_reformCeilings (hl : (s.line l).stage = some k) (found : s.stage? k = some x) (m : LineId) :
    (reformCeilings l s).line m =
      if m = l then { s.line l with
        values := (s.line l).values.map
          (Computed.withCeilings s.stop.warn s.settings.derate (s.line l).inForce.range x.fields) }
      else s.line m := by
  have bound : s.boundStage l = some x := by rw [State.boundStage, hl]; exact found
  rw [reformCeilings, bound]
  exact line_updLine _ _ _ _

/-- P_max as a CONTINUE leaves it (R16). -/
def loweredFields (new : Option Nat) (f : StageFields) : StageFields :=
  match new with
  | some v => { f with pMax := v }
  | none => f

theorem stage_lowerPMax (new : Option Nat) (j : StageKey) (s : State) :
    (lowerPMax k new s).stage? j =
      if j = k then (s.stage? k).map (fun y => { y with fields := loweredFields new y.fields }) else s.stage? j := by
  cases new with
  | none =>
    simp only [lowerPMax, loweredFields]
    split
    · subst j; simp
    · rfl
  | some n =>
    have lowered : (s.updStage k fun y => { y with fields := { y.fields with pMax := n } }).stage? j =
        if j = k then (s.stage? k).map (fun y => { y with fields := { y.fields with pMax := n } }) else s.stage? j :=
      stage_updStage s k j _ (fun _ => rfl)
    unfold lowerPMax
    dsimp only
    split
    · exact ((reformCeilings_keeps _ _).stage (by decide) j).trans lowered
    · exact lowered

theorem line_lowerPMax (carries : s.carrier? k = some l) (found : s.stage? k = some x) (new : Option Nat)
    (m : LineId) :
    (lowerPMax k new s).line m =
      if m = l ∧ new.isSome = true then { s.line l with
        values := (s.line l).values.map (Computed.withCeilings s.stop.warn s.settings.derate (s.line l).inForce.range
          (loweredFields new x.fields)) }
      else s.line m := by
  cases new with
  | none => simp [lowerPMax]
  | some n =>
    have carries' (f : Stage → Stage) : (s.updStage k f).carrier? k = some l := carries
    unfold lowerPMax
    simp only [carries', Option.isSome_some, and_true]
    have found' : (s.updStage k (fun y => { y with fields := loweredFields (some n) y.fields })).stage? k =
        some { x with fields := loweredFields (some n) x.fields } :=
      (stage_updStage s k k (fun y => { y with fields := loweredFields (some n) y.fields }) fun _ => rfl).trans
        (by simp [found])
    exact line_reformCeilings (carrier?_spec (carries' _)).2 found' m

theorem line_lowerPMax_uncarried (free : s.carrier? k = none) (new : Option Nat) (m : LineId) :
    (lowerPMax k new s).line m = s.line m := by
  cases new with
  | none => rfl
  | some n =>
    have free' (f : Stage → Stage) : (s.updStage k f).carrier? k = none := free
    unfold lowerPMax
    simp only [free']
    rfl

/-- A CONTINUE taken, but for the pending decision itself and the write. -/
def decided (x : Stage) (new : Option Nat) (s : State) : State :=
  match s.carrier? x.key with
  | some l => removeDecided x.decision l (lowerPMax x.key new s)
  | none => lowerPMax x.key new s

theorem continueStage_eq (x : Stage) (new : Option Nat) (s : State) :
    continueStage x new s = saveStage x.key ((decided x new s).updStage x.key (fun x => { x with decision := noDecision })) := by
  unfold continueStage decided
  dsimp only
  cases found : s.carrier? x.key <;> simp only [carrier?_lowerPMax, found] <;> rfl

theorem decided_keeps (x : Stage) (new : Option Nat) (s : State) :
    keeps [.lines, .queues] (lowerPMax x.key new s) (decided x new s) := by
  unfold decided
  cases s.carrier? x.key with
  | none => exact keeps_refl _ _
  | some l => exact removeDecided_keeps _ _ _

/-- The stage and its write once a CONTINUE is taken (R16). -/
theorem continueStage_stage (found : s.stage? x.key = some x) (new : Option Nat) :
    let y : Stage := { x with fields := loweredFields new x.fields, decision := ⟨false, false⟩ }
    (continueStage x new s).stage? x.key = some y ∧ sameOtherStages x.key s (continueStage x new s) ∧
    (continueStage x new s).store.writes = begun s (.stage y.stored) := by
  have stage (j : StageKey) : (decided x new s).stage? j = if j = x.key then
      some { x with fields := loweredFields new x.fields } else s.stage? j := by
    rw [(decided_keeps x new s).stage (by decide), stage_lowerPMax, found]
    rfl
  obtain ⟨others, changed, written⟩ := stages_saved (f := fun x => { x with decision := noDecision }) (fun _ => rfl)
    ((stage x.key).trans (if_pos rfl)) (keeps_refl [.queues] _)
  rw [← continueStage_eq] at others changed written
  have stores : keeps [.stages, .lines, .queues] s (decided x new s) :=
    (decided_keeps x new s).after (by decide) ((lowerPMax_keeps _ _ _).mono (by decide))
  refine ⟨changed, fun j hj => (others j hj).trans ((stage j).trans (if_neg hj)), written.trans ?_⟩
  exact stores.begun (by decide) (by decide) _

/-- The line that carries the stage once a CONTINUE is taken, and the others (R16, R101). -/
theorem line_continueStage (carries : s.carrier? x.key = some l) (found : s.stage? x.key = some x) (new : Option Nat)
    (m : LineId) :
    (continueStage x new s).line m =
      if m = l then
        let z := s.line l
        let reform := Computed.withCeilings s.stop.warn s.settings.derate z.inForce.range (loweredFields new x.fields)
        let z : Line := if new.isSome = true then { z with values := z.values.map reform } else z
        let z := if x.decision.fracture = true then z.freed .fracture else z
        if x.decision.connection = true then z.freed .connection else z
      else s.line m := by
  have same : (continueStage x new s).line m = (decided x new s).line m := by
    rw [continueStage_eq, (saveStage_keeps _ _).line (by decide) (by decide) (by decide), line_updStage]
  have lowered := line_lowerPMax carries found new
  rw [same, decided, carries]
  dsimp only
  rw [line_removeDecided, lowered, lowered]
  by_cases hm : m = l
  · subst m; simp
  · simp [hm]

theorem line_continueStage_uncarried (free : s.carrier? x.key = none) (new : Option Nat) (m : LineId) :
    (continueStage x new s).line m = s.line m := by
  rw [continueStage_eq, (saveStage_keeps _ _).line (by decide) (by decide) (by decide), line_updStage, decided, free]
  exact line_lowerPMax_uncarried free new m

theorem newPMax_cases {a : DecideArgs} (given : a.given ≤ 1) :
    a.given = 1 ∧ a.newPMax = some a.pMax ∨ a.given = 0 ∧ a.newPMax = none := by
  unfold DecideArgs.newPMax
  rcases Nat.le_one_iff_eq_zero_or_eq_one.mp given with h | h <;> simp [h]

theorem pMaxOk_iff {a : DecideArgs} (given : a.given ≤ 1) (n : Nat) :
    pMaxOk n a.newPMax = true ↔ (a.given = 1 → 50 ≤ a.pMax ∧ a.pMax < n) := by
  rcases newPMax_cases given with ⟨h, e⟩ | ⟨h, e⟩ <;> simp [h, e, pMaxOk]

theorem isPending_iff (d : PendingDecision) : d.isPending = true ↔ d.fracture = true ∨ d.connection = true := by
  simp [PendingDecision.isPending]

/-- Settles O22: by the pending decision and the new P_max; the carrying line by `line_continueStage`. -/
theorem continueTakesTheDecision : Obligations.ContinueTakesTheDecision := by
  unfold Obligations.ContinueTakesTheDecision
  intro s p tag a x ready found action given c pending pMaxOk'
  have ok : a.ok = true := (decideArgs_ok_iff a).mpr (by omega)
  have key : x.key = a.key := key_of_lookupStage found
  have run : exec (.stageDecideContinue p tag (.args a)) s = _ := request_decide tag decideContinueOwn ready found ok
  have isPending : pending ↔ x.status = .active ∧ x.decision.isPending = true := by rw [isPending_iff]
  unfold decideContinueOwn at run
  refine ⟨fun idle => ?_, fun waits bad => ?_, fun waits good => ?_⟩
  · rw [if_neg (mt isPending.mpr idle)] at run
    exact run
  · rw [if_pos (isPending.mp waits), if_neg (mt (pMaxOk_iff given _).mp bad)] at run
    exact run
  · rw [if_pos (isPending.mp waits), if_pos ((pMaxOk_iff given _).mpr good)] at run
    have found' : (heard p s).stage? x.key = some x := by rw [heard_stage?, key]; exact found
    obtain ⟨changed, others, written⟩ := continueStage_stage found' a.newPMax
    rw [editDone_found changed] at run
    have fields : loweredFields a.newPMax x.fields = if a.given = 1 then { x.fields with pMax := a.pMax } else x.fields := by
      rcases newPMax_cases given with ⟨h, e⟩ | ⟨h, e⟩ <;> simp [h, e, loweredFields]
    have isNew : a.newPMax.isSome = true ↔ a.given = 1 := by
      rcases newPMax_cases given with ⟨h, e⟩ | ⟨h, e⟩ <;> simp [h, e]
    rw [begun_heard] at written
    rw [key] at changed others
    rw [fields] at changed written
    refine ⟨_, ?_, changed, sameOtherStages_heard.mp others, written, fun l carries => ?_, fun none l => ?_⟩
    · rw [waits.1] at run
      exact run
    · have carries' : (heard p s).carrier? x.key = some l := by rw [heard_carrier?, key]; exact carries
      have line := line_continueStage carries' found' a.newPMax
      refine ⟨fun m hm => (line m).trans (if_neg hm), (line l).trans ((if_pos rfl).trans ?_)⟩
      simp only [isNew, fields, heard_stop, heard_settings]
    · exact line_continueStage_uncarried (by rw [heard_carrier?, key]; exact none) _ l

end

/-! ### The BLOCKED stages that a completion frees (R10) -/

section
variable {s t v : State} {k : StageKey} {x z : Stage}

/-- A BLOCKED stage whose prerequisites are all COMPLETE. -/
def freeable (s : State) (z : Stage) : Bool := z.status == .blocked && s.allComplete z.fields.prereqs

/-- A stage as an examination leaves it (R10). -/
def examined (s : State) (z : Stage) : Stage := if freeable s z = true then { z with status := .ready } else z

theorem freeable_iff : freeable s z = true ↔ z.status = .blocked ∧ s.allComplete z.fields.prereqs = true := by
  simp [freeable]

theorem examined_of_freeable (h : freeable s z = true) : examined s z = { z with status := .ready } := if_pos h

theorem examined_of_not (h : ¬ freeable s z = true) : examined s z = z := if_neg h

theorem examined_complete : (examined s z).status = .complete ↔ z.status = .complete := by
  by_cases h : freeable s z = true
  · simp [examined_of_freeable h, (freeable_iff.mp h).1]
  · rw [examined_of_not h]

theorem examineBlocked_of_freeable (found : s.stage? k = some z) (h : freeable s z = true) :
    keeps [.queues] (saveStage k (s.updStage k (fun x => { x with status := .ready }))) (examineBlocked k s) := by
  unfold examineBlocked
  simp only [found]
  rw [if_pos (freeable_iff.mp h)]
  exact post_keeps _ _ _

theorem examineBlocked_of_not (found : s.stage? k = some z) (h : ¬ freeable s z = true) : examineBlocked k s = s := by
  unfold examineBlocked
  simp only [found]
  exact if_neg (mt freeable_iff.mpr h)

theorem examineBlocked_absent (absent : s.stage? k = none) : examineBlocked k s = s := by
  simp only [examineBlocked, absent]

theorem stage_examineBlocked (k j : StageKey) (s : State) :
    (examineBlocked k s).stage? j = if j = k then (s.stage? k).map (examined s) else s.stage? j := by
  cases found : s.stage? k with
  | none =>
    rw [examineBlocked_absent found]
    split <;> simp_all
  | some z =>
    by_cases h : freeable s z = true
    · rw [(examineBlocked_of_freeable found h).stage (by decide), stage_saveStage,
        stage_updStage _ k j (fun x => { x with status := .ready }) (fun _ => rfl), found]
      simp [examined_of_freeable h]
    · rw [examineBlocked_of_not found h]
      split
      · subst j
        simp [found, examined_of_not h]
      · rfl

theorem allComplete_congr (h : ∀ q, ((t.stage? q).map (fun y => decide (y.status = .complete))) =
    (s.stage? q).map (fun y => decide (y.status = .complete))) (keys : List StageKey) :
    t.allComplete keys = s.allComplete keys := by
  rw [Bool.eq_iff_iff, allComplete_iff, allComplete_iff]
  refine forall₂_congr fun q _ => ?_
  have hq := h q
  cases ht : t.stage? q <;> cases hs : s.stage? q <;> simp_all

theorem allComplete_examineBlocked (k : StageKey) (s : State) (keys : List StageKey) :
    (examineBlocked k s).allComplete keys = s.allComplete keys := by
  refine allComplete_congr (fun q => ?_) keys
  rw [stage_examineBlocked]
  split
  · subst q
    rw [Option.map_map]
    congr 1
    funext z
    simp [examined_complete]
  · rfl

theorem freeable_examineBlocked : freeable (examineBlocked k s) z = freeable s z := by
  rw [freeable, freeable, allComplete_examineBlocked]

theorem examined_examineBlocked : examined (examineBlocked k s) = examined s := by
  funext z
  rw [examined, examined, freeable_examineBlocked]

theorem not_freeable_examined : ¬ freeable s (examined s z) = true := by
  by_cases h : freeable s z = true
  · rw [examined_of_freeable h]
    exact fun h' => nomatch (freeable_iff.mp h').1
  · rw [examined_of_not h]
    exact h

theorem examined_examined : examined s (examined s z) = examined s z := examined_of_not not_freeable_examined

/-- The writes that an examination begins (R10, R23). -/
theorem writes_examineBlocked (sound : s.store.fault = false) (k : StageKey) :
    ∃ more, (examineBlocked k s).store.writes = s.store.writes ++ more ∧
      ∀ w, w ∈ more ↔ ∃ z, s.stage? k = some z ∧ freeable s z = true ∧ w = .stage { z with status := .ready }.stored := by
  cases found : s.stage? k with
  | none => exact ⟨[], by rw [examineBlocked_absent found, List.append_nil], by simp⟩
  | some z =>
    by_cases h : freeable s z = true
    · obtain ⟨-, -, written⟩ := stages_saved (f := fun x => { x with status := .ready }) (fun _ => rfl) found
        (examineBlocked_of_freeable found h)
      refine ⟨_, written.trans (if_neg (by simp [sound])), fun w => ?_⟩
      simp [h]
    · exact ⟨[], by rw [examineBlocked_of_not found h, List.append_nil], by simp [h]⟩

theorem fault_examineBlocked (k : StageKey) (s : State) : (examineBlocked k s).store.fault = s.store.fault :=
  (examineBlocked_keeps k s).2 .storeFault (by decide)

/-- A list of stages examined in turn. -/
theorem stage_examineAll (ds : List StageKey) (j : StageKey) (s : State) :
    (ds.foldl (fun s d => examineBlocked d s) s).stage? j =
      if j ∈ ds then (s.stage? j).map (examined s) else s.stage? j := by
  induction ds generalizing s with
  | nil => simp
  | cons d ds ih =>
    rw [List.foldl_cons, ih, stage_examineBlocked, examined_examineBlocked]
    by_cases same : j = d
    · subst j
      simp only [List.mem_cons, true_or, if_true, Option.map_map]
      have twice : examined s ∘ examined s = examined s := funext fun _ => examined_examined
      split <;> simp [twice]
    · simp [same]

theorem writes_examineAll (ds : List StageKey) (sound : s.store.fault = false) :
    ∃ more, (ds.foldl (fun s d => examineBlocked d s) s).store.writes = s.store.writes ++ more ∧
      ∀ w, w ∈ more ↔ ∃ j z, j ∈ ds ∧ s.stage? j = some z ∧ freeable s z = true ∧
        w = .stage { z with status := .ready }.stored := by
  induction ds generalizing s with
  | nil => exact ⟨[], by simp, by simp⟩
  | cons d ds ih =>
    obtain ⟨first, begun, inFirst⟩ := writes_examineBlocked sound d
    obtain ⟨rest, followed, inRest⟩ := ih ((fault_examineBlocked d s).trans sound)
    refine ⟨first ++ rest, by rw [List.foldl_cons, followed, begun, List.append_assoc], fun w => ?_⟩
    rw [List.mem_append, inFirst, inRest]
    constructor
    · rintro (⟨z, found, h, rfl⟩ | ⟨j, z, hj, found, h, rfl⟩)
      · exact ⟨d, z, List.mem_cons_self, found, h, rfl⟩
      · rw [freeable_examineBlocked] at h
        rw [stage_examineBlocked] at found
        split at found
        · obtain ⟨z', -, rfl⟩ := Option.map_eq_some_iff.mp found
          exact absurd h not_freeable_examined
        · exact ⟨j, z, List.mem_cons_of_mem _ hj, found, h, rfl⟩
    · rintro ⟨j, z, hj, found, h, rfl⟩
      by_cases same : j = d
      · subst j
        exact .inl ⟨z, found, h, rfl⟩
      · refine .inr ⟨j, z, (List.mem_cons.mp hj).resolve_left same, ?_, (congrArg (· = true) freeable_examineBlocked).mpr h, rfl⟩
        rw [stage_examineBlocked, if_neg same]
        exact found

end

/-! ### O23: CLOSE and ABANDON (R13, R17, R18) -/

section
variable {s t v : State} {p : Port} {k : StageKey} {x : Stage} {st : StageStatus} {cause : EndCause}
  {values : Option Computed} {A : List Part}

/-- The completion of a stage frees another: BLOCKED on it, and on no stage that is not COMPLETE (R10). -/
def frees (s : State) (k : StageKey) (st : StageStatus) (j : StageKey) (w : Stage) : Prop :=
  j ≠ k ∧ s.stage? j = some w ∧ st = .complete ∧ w.status = .blocked ∧ k ∈ w.fields.prereqs ∧
  ∀ q ∈ w.fields.prereqs, q = k ∨ ∃ z, s.stage? q = some z ∧ z.status = .complete

/-- What the end of a stage leaves of the table and the completion list (R13, R161). -/
structure EndedTable (s : State) (x : Stage) (st : StageStatus) (cause : EndCause) (values : Option Computed)
    (v : State) : Prop where
  self : v.stage? x.key = some (x.endedBy st cause s.clock.site)
  freed : ∀ j w, frees s x.key st j w → v.stage? j = some { w with status := .ready }
  others : ∀ j w, j ≠ x.key → s.stage? j = some w → ¬ frees s x.key st j w → v.stage? j = some w
  completions : v.record.completions =
    s.record.completions.filter (fun n => n.key ≠ x.key) ++ [summaryOf x cause s.clock.site values]

/-- What it leaves of them and of the store (R23). -/
structure Ended (s : State) (x : Stage) (st : StageStatus) (cause : EndCause) (values : Option Computed) (v : State) :
    Prop extends EndedTable s x st cause values v where
  writes : ∃ more, v.store.writes = s.store.writes ++
      [.stage (x.endedBy st cause s.clock.site).stored, .summary (summaryOf x cause s.clock.site values)] ++ more ∧
    ∀ w, w ∈ more ↔ ∃ j z, frees s x.key st j z ∧ w = .stage { z with status := .ready }.stored

theorem Ended.keeps (h : Ended s x st cause values t) (kept : Machine.keeps A t v)
    (hA : .stages ∉ A ∧ .writes ∉ A ∧ .completions ∉ A) : Ended s x st cause values v where
  self := (kept.stage hA.1 _).trans h.self
  freed j w hw := (kept.stage hA.1 j).trans (h.freed j w hw)
  others j w hj hw hf := (kept.stage hA.1 j).trans (h.others j w hj hw hf)
  completions := (kept.2 .completions hA.2.2).trans h.completions
  writes := by
    obtain ⟨more, writes, mem⟩ := h.writes
    exact ⟨more, (kept.2 .writes hA.2.1).trans writes, mem⟩

/-- A stage finished is posted with its summary (R13). -/
theorem finishStage_posts (l : Option LineId) (found : s.stage? x.key = some x) (st : StageStatus) (cause : EndCause)
    (values : Option Computed) :
    Machine.keeps [.queues]
      (addSummary (summaryOf x cause s.clock.site values)
        (saveStage x.key (s.updStage x.key (Stage.endedBy st cause s.clock.site))))
      (finishStage l x.key st cause values s) := by
  unfold finishStage
  simp only [found]
  exact postStage_keeps _ _ _ _ _

/-- A stage finished, whatever becomes of others (R13). -/
theorem finishStage_finished (l : Option LineId) (found : s.stage? x.key = some x)
    (st : StageStatus) (cause : EndCause) (values : Option Computed) :
    let t := finishStage l x.key st cause values s
    t.stage? x.key = some (x.endedBy st cause s.clock.site) ∧ sameOtherStages x.key s t ∧
    t.record.completions =
      s.record.completions.filter (fun n => n.key ≠ x.key) ++ [summaryOf x cause s.clock.site values] ∧
    t.store.stages = mapStage x.key (Stage.endedBy st cause s.clock.site) s.store.stages := by
  have saved := keeps_refl [.queues]
    (saveStage x.key (s.updStage x.key (Stage.endedBy st cause s.clock.site)))
  obtain ⟨others, changed, -⟩ := stages_saved (f := Stage.endedBy st cause s.clock.site) (fun _ => rfl) found saved
  have posted := finishStage_posts l found st cause values
  have added := addSummary_keeps (summaryOf x cause s.clock.site values)
    (saveStage x.key (s.updStage x.key (Stage.endedBy st cause s.clock.site)))
  have stored : Machine.keeps [.writes] (s.updStage x.key (Stage.endedBy st cause s.clock.site)) _ := saveStage_keeps x.key _
  refine ⟨(posted.stage (by decide) _).trans ((added.stage (by decide) _).trans changed),
    fun j hj => (posted.stage (by decide) j).trans ((added.stage (by decide) j).trans (others j hj)), ?_, ?_⟩
  · refine (posted.2 .completions (by decide)).trans (((writeThrough_keeps _ _).2 .completions (by decide)).trans ?_)
    have before : (saveStage x.key (s.updStage x.key (Stage.endedBy st cause s.clock.site))).record.completions =
        s.record.completions := stored.2 .completions (by decide)
    simp [State.updRecord, putSummary, dropSummary, before, key_summaryOf, bne, beq_eq_decide]
  · exact (posted.2 .stages (by decide)).trans ((added.2 .stages (by decide)).trans (stored.2 .stages (by decide)))

/-- The writes that its end begins (R23). -/
theorem writes_finishStage (l : Option LineId) (found : s.stage? x.key = some x) (sound : s.store.fault = false)
    (st : StageStatus) (cause : EndCause) (values : Option Computed) :
    (finishStage l x.key st cause values s).store.writes = s.store.writes ++
      [.stage (x.endedBy st cause s.clock.site).stored, .summary (summaryOf x cause s.clock.site values)] := by
  have saved := keeps_refl [.queues]
    (saveStage x.key (s.updStage x.key (Stage.endedBy st cause s.clock.site)))
  obtain ⟨-, -, written⟩ := stages_saved (f := Stage.endedBy st cause s.clock.site) (fun _ => rfl) found saved
  have stored : Machine.keeps [.writes] (s.updStage x.key (Stage.endedBy st cause s.clock.site)) _ := saveStage_keeps x.key _
  have fault (f : Records → Records) :
      ((saveStage x.key (s.updStage x.key (Stage.endedBy st cause s.clock.site))).updRecord f).store.fault = false :=
    (stored.2 .storeFault (by decide)).trans sound
  refine ((finishStage_posts l found st cause values).2 .writes (by decide)).trans ((writes_writeThrough _ _).trans ?_)
  refine (if_neg (by rw [fault]; decide)).trans ?_
  refine (congrArg (· ++ _) (written.trans (if_neg (by simp [sound])))).trans ?_
  simp

theorem finishStage_ended (l : Option LineId) (found : s.stage? x.key = some x) (sound : s.store.fault = false)
    (hst : st ≠ .complete) : Ended s x st cause values (finishStage l x.key st cause values s) := by
  obtain ⟨self, others, completions, -⟩ := finishStage_finished l found st cause values
  have writes := writes_finishStage l found sound st cause values
  have none (j : StageKey) (w : Stage) : ¬ frees s x.key st j w := fun h => hst h.2.2.1
  exact ⟨⟨self, fun j w h => absurd h (none j w), fun j w hj hw _ => (others j hj).trans hw, completions⟩, [],
    by rw [List.append_nil]; exact writes, fun w => by simp [none]⟩

/-- The stages that an end of a stage examines (R10). -/
def dependants (k : StageKey) (t : State) : List StageKey :=
  (t.store.stages.filter (fun y => y.status == .blocked && y.fields.prereqs.contains k)).map Stage.key

theorem examineDependants_eq : examineDependants k t = (dependants k t).foldl (fun s d => examineBlocked d s) t := rfl

/-- The stages that a completion frees, among those that it examines once the stage itself is COMPLETE. -/
theorem frees_iff_examined (order : inKeyOrder s.store.stages)
    (self : t.stage? x.key = some (x.endedBy .complete cause s.clock.site)) (others : sameOtherStages x.key s t)
    (stages : t.store.stages = mapStage x.key (Stage.endedBy .complete cause s.clock.site) s.store.stages)
    {j : StageKey} {w : Stage} :
    (j ∈ dependants x.key t ∧ t.stage? j = some w ∧ freeable t w = true) ↔ frees s x.key .complete j w := by
  have ordered : inKeyOrder t.store.stages := by
    rw [inKeyOrder_iff, stages, map_key_mapStage x.key (Stage.endedBy .complete cause s.clock.site) (fun _ => rfl), ← inKeyOrder_iff]
    exact order
  have complete (q : StageKey) : (∃ y, t.stage? q = some y ∧ y.status = .complete) ↔
      q = x.key ∨ ∃ y, s.stage? q = some y ∧ y.status = .complete := by
    by_cases same : q = x.key
    · subst q
      exact iff_of_true ⟨_, self, rfl⟩ (.inl rfl)
    · rw [others q same]
      simp [same]
  have allComplete : freeable t w = true ↔ w.status = .blocked ∧
      ∀ q ∈ w.fields.prereqs, q = x.key ∨ ∃ z, s.stage? q = some z ∧ z.status = .complete := by
    rw [freeable_iff, allComplete_iff]
    simp only [complete]
  constructor
  · rintro ⟨listed, foundT, free⟩
    obtain ⟨blocked, all⟩ := allComplete.mp free
    obtain ⟨y, inTable, key⟩ := List.mem_map.mp listed
    obtain ⟨inTable, named⟩ := List.mem_filter.mp inTable
    have same : y = w := by
      have := lookupStage_of_mem ordered inTable
      rw [key] at this
      exact Option.some.inj (this.symm.trans foundT)
    subst same
    have hj : j ≠ x.key := by
      rintro rfl
      rw [self] at foundT
      obtain rfl := Option.some.inj foundT
      cases blocked
    simp only [Bool.and_eq_true, List.contains_eq_mem, decide_eq_true_eq] at named
    exact ⟨hj, (others j hj).symm.trans foundT, rfl, blocked, named.2, all⟩
  · rintro ⟨hj, foundS, -, blocked, names, all⟩
    have foundT : t.stage? j = some w := (others j hj).trans foundS
    refine ⟨List.mem_map.mpr ⟨w, List.mem_filter.mpr ⟨List.mem_of_find?_eq_some foundT, ?_⟩,
      key_of_lookupStage foundT⟩, foundT, allComplete.mpr ⟨blocked, all⟩⟩
    simp [blocked, names]

/-- A stage COMPLETE, and the stages that it frees READY (R10, R13). -/
theorem completeStage_table (l : Option LineId) (found : s.stage? x.key = some x) (order : inKeyOrder s.store.stages) :
    EndedTable s x .complete cause values (completeStage l x.key cause values s) := by
  obtain ⟨self, others, completions, stages⟩ := finishStage_finished l found .complete cause values
  unfold completeStage
  generalize finishStage l x.key .complete cause values s = t at self others completions stages ⊢
  have examines {j : StageKey} {w : Stage} := frees_iff_examined order self others stages (j := j) (w := w)
  rw [examineDependants_eq]
  generalize dependants x.key t = ds at examines ⊢
  have stage := stage_examineAll ds (s := t)
  have kept : Machine.keeps [.stages, .writes, .queues] t (ds.foldl (fun s d => examineBlocked d s) t) :=
    foldl_keeps _ _ _ fun s d => examineBlocked_keeps d s
  have spared {j : StageKey} {w : Stage} (hw : t.stage? j = some w) (hf : ¬ frees s x.key .complete j w) :
      (ds.foldl (fun s d => examineBlocked d s) t).stage? j = some w := by
    rw [stage, hw]
    by_cases listed : j ∈ ds
    · have notFree : ¬ freeable t w = true := fun h => hf (examines.mp ⟨listed, hw, h⟩)
      simp [listed, examined_of_not notFree]
    · simp [listed]
  refine ⟨spared self fun h => h.1 rfl, fun j w h => ?_, fun j w hj hw hf => spared ((others j hj).trans hw) hf,
    (kept.2 .completions (by decide)).trans completions⟩
  obtain ⟨listed, foundT, free⟩ := examines.mpr h
  rw [stage, if_pos listed, foundT, Option.map_some, examined_of_freeable free]

theorem completeStage_ended (l : Option LineId) (found : s.stage? x.key = some x) (sound : s.store.fault = false)
    (order : inKeyOrder s.store.stages) :
    Ended s x .complete cause values (completeStage l x.key cause values s) := by
  refine ⟨completeStage_table l found order, ?_⟩
  obtain ⟨self, others, -, stages⟩ := finishStage_finished l found .complete cause values
  have writes := writes_finishStage l found sound .complete cause values
  have fault : (finishStage l x.key .complete cause values s).store.fault = false :=
    ((finishStage_keeps _ _ _ _ _ _).2 .storeFault (by decide)).trans sound
  unfold completeStage
  generalize finishStage l x.key .complete cause values s = t at self others writes stages fault ⊢
  have examines {j : StageKey} {w : Stage} := frees_iff_examined order self others stages (j := j) (w := w)
  rw [examineDependants_eq]
  generalize dependants x.key t = ds at examines ⊢
  obtain ⟨more, written, inMore⟩ := writes_examineAll ds fault
  refine ⟨more, by rw [written, writes], fun w => ?_⟩
  rw [inMore]
  refine exists₂_congr fun j z => ?_
  rw [← examines]
  tauto

end

section
variable {s v : State} {p : Port} {x : Stage} {st : StageStatus} {cause : EndCause} {reason : EndReason}

/-- The summary of an ended stage, written out (R102, R161). -/
theorem summaryOf_eq (x : Stage) (cause : EndCause) (n : Nat) (values : Option Computed) :
    let total (f : Progress → Nat) : Nat := (x.progress.map f).getD 0
    summaryOf x cause n values =
      ⟨x.key, cause, x.startTime.getD 0, n, total Progress.v,
       total Progress.v / (x.fields.bottom - x.fields.top), total Progress.maxPe, total Progress.maxClass,
       (values.map Computed.ce).getD 0, (values.map Computed.j).getD 0, total Progress.overpressure,
       total Progress.connection, total Progress.unmetered, total Progress.injecting, total Progress.holding⟩ := by
  unfold summaryOf
  cases x.progress <;> cases values <;> simp [Stage.length]

theorem mayEnd_iff (x : Stage) : x.mayEnd = true ↔ x.status = .suspended ∨
    (x.status = .active ∧ (x.decision.fracture = true ∨ x.decision.connection = true)) := by
  simp [Stage.mayEnd, PendingDecision.isPending]

theorem Ended.of_heard {values : Option Computed} (h : Ended (heard p s) x st cause values v) :
    Ended s x st cause values v := by
  have same (j : StageKey) (w : Stage) : frees (heard p s) x.key st j w ↔ frees s x.key st j w := by
    simp only [frees, heard_stage?]
  obtain ⟨⟨self, freed, others, completions⟩, more, writes, inMore⟩ := h
  simp only [heard_clock, heard_record, heard_store, heard_stage?, same] at self freed others completions writes inMore
  exact ⟨⟨self, freed, others, completions⟩, more, writes, inMore⟩

/-- An end by a console, but for the line and the mix order (R17, R18). -/
def finished (x : Stage) (st : StageStatus) (cause : EndCause) (l : Option LineId) (values : Option Computed)
    (s : State) : State :=
  if st = .complete then completeStage l x.key cause values s else finishStage l x.key st cause values s

theorem finished_ended (l : Option LineId) (values : Option Computed) (found : s.stage? x.key = some x)
    (sound : s.store.fault = false) (order : inKeyOrder s.store.stages) :
    Ended s x st cause values (finished x st cause l values s) := by
  by_cases complete : st = .complete
  · subst complete
    rw [finished, if_pos rfl]
    exact completeStage_ended l found sound order
  · rw [finished, if_neg complete]
    exact finishStage_ended l found sound complete

theorem finished_keeps (l : Option LineId) (values : Option Computed) (s : State) :
    keeps [.stages, .writes, .completions, .queues] s (finished x st cause l values s) := by
  unfold finished
  split
  · exact completeStage_keeps _ _ _ _ _
  · exact (finishStage_keeps _ _ _ _ _ _).mono (by decide)

theorem endByConsole_carried {l : LineId} (active : x.status = .active) (carries : s.carrier? x.key = some l) :
    endByConsole x st cause reason s =
      closeLine reason l (finished x st cause (some l) (s.line l).values s) := by
  unfold endByConsole
  simp only [active, if_true, carries]
  rfl

theorem endByConsole_uncarried (free : x.status ≠ .active ∨ s.carrier? x.key = none) :
    endByConsole x st cause reason s = formMixOrder (finished x st cause none none s) := by
  unfold endByConsole
  rcases free with h | h
  · simp only [h, if_false]
    rfl
  · simp only [h, ite_self]
    rfl

/-- The stage, the summary and the mix order once a console ends a stage; `values` are those of its line. -/
theorem endByConsole_ended (found : s.stage? x.key = some x) (sound : s.store.fault = false)
    (order : inKeyOrder s.store.stages) :
    (∃ values, Ended s x st cause values (endByConsole x st cause reason s)) ∧
    (endByConsole x st cause reason s).grout.mixOrder = lowestClass (endByConsole x st cause reason s).orderInputs := by
  by_cases free : x.status ≠ .active ∨ s.carrier? x.key = none
  · rw [endByConsole_uncarried free]
    exact ⟨⟨_, (finished_ended _ _ found sound order).keeps (formMixOrder_keeps _) (by decide)⟩,
        mixOrder_formMixOrder _⟩
  · rw [not_or, not_not] at free
    obtain ⟨l, carries⟩ := Option.ne_none_iff_exists'.mp free.2
    rw [endByConsole_carried free.1 carries]
    exact ⟨⟨_, (finished_ended _ _ found sound order).keeps (closeLine_keeps _ _ _) (by decide)⟩,
        mixOrder_formMixOrder _⟩

/-- Settles O23: CLOSE and ABANDON alike (`endByConsole`), by the stage's status and its carrier. -/
theorem closeAndAbandonEndTheStage : Obligations.CloseAndAbandonEndTheStage := by
  unfold Obligations.CloseAndAbandonEndTheStage
  intro s p tag a x ready found given order c st cause reason row pending taken total summary
  have key : x.key = a.key := key_of_lookupStage found
  have run : exec c s = .next (respond p RequestKind.stageDecide.code tag
      (if x.mayEnd then editDone x.key (endByConsole x st cause reason (heard p s))
       else refuse .wrongState (heard p s))) := by
    rcases row with ⟨action, rfl, rfl, rfl, rfl⟩ | ⟨action, rfl, rfl, rfl, rfl⟩
    · exact request_decide tag (fun _ => decideCloseOwn) ready found ((decideArgs_ok_iff a).mpr (by omega))
    · exact request_decide tag (fun _ => decideAbandonOwn) ready found ((decideArgs_ok_iff a).mpr (by omega))
  have found' : (heard p s).stage? x.key = some x := by rw [heard_stage?, key]; exact found
  have sound : (heard p s).store.fault = false := by rw [heard_store]; exact ready.2
  have order' : inKeyOrder (heard p s).store.stages := by rw [heard_store]; exact order
  refine ⟨fun live => ?_, fun ends => ?_⟩
  · rw [if_neg (mt (mayEnd_iff x).mp live)] at run
    exact run
  · obtain ⟨⟨values, ended⟩, mixOrder⟩ :=
      endByConsole_ended (st := st) (cause := cause) (reason := reason) found' sound order'
    have recorded {v : State} {values : Option Computed} (h : Ended (heard p s) x st cause values v) := h.of_heard
    obtain ⟨⟨self, freed, others, -⟩, -⟩ := recorded ended
    rw [if_pos ((mayEnd_iff x).mpr ends), editDone_found self] at run
    rw [key] at self freed others
    refine ⟨_, run, self, freed, others, fun l active carries => ?_, fun suspended => ?_, mixOrder⟩
    · have carries' : (heard p s).carrier? x.key = some l := by rw [heard_carrier?, key]; exact carries
      have lines (m : LineId) : (finished x st cause (some l) ((heard p s).line l).values (heard p s)).line m =
          (heard p s).line m := (finished_keeps _ _ _).line (by decide) (by decide) (by decide) m
      have settings : (finished x st cause (some l) ((heard p s).line l).values (heard p s)).settings = s.settings :=
        ((finished_keeps _ _ _).2 .settings (by decide)).trans (heard_settings p s)
      rw [endByConsole_carried active carries']
      refine ⟨fun m hm => by rw [line_closeLine, if_neg hm, lines], by rw [line_closeLine, if_pos rfl, lines, settings], ?_⟩
      obtain ⟨⟨-, -, -, completions⟩, writes⟩ := recorded
        ((finished_ended (some l) ((heard p s).line l).values found' sound order').keeps
            (closeLine_keeps reason l _) (by decide))
      rw [summaryOf_eq, key, heard_line_values] at completions writes
      rw [heard_line_values]
      exact ⟨completions, writes⟩
    · have free : x.status ≠ .active := by rw [suspended]; decide
      rw [endByConsole_uncarried (.inl free)]
      refine ⟨fun l => ?_, ?_⟩
      · rw [line_formMixOrder]
        exact (finished_keeps _ _ _).line (by decide) (by decide) (by decide) l
      · obtain ⟨⟨-, -, -, completions⟩, writes⟩ := recorded
          ((finished_ended none none found' sound order').keeps (formMixOrder_keeps _) (by decide))
        rw [summaryOf_eq, key] at completions writes
        exact ⟨completions, writes⟩

end

end Sys2Proof.Machine
end

section
/-! PROOFS. The line requests: LINE_CONFIG, LINE_WATCH, LINE_UNWATCH, LINE_ISOLATE, LINE_RETURN, HOLD_ALL and RELEASE_ALL (R28, R29, R43 to R45, R84). -/

namespace Sys2Proof.Machine

section
variable {s t u v : State} {p : Port} {l : LineId} {A : List Part}

/-! ### Requests on one line (R28, R44, R45) -/

theorem lineOf?_val (l : LineId) : lineOf? l.val = some l := dif_pos l.isLt

theorem lineOf?_eq_none {n : Nat} (h : 8 ≤ n) : lineOf? n = none := dif_neg (Nat.not_lt.mpr h)

/-- A request that names one line, from a console in a part that takes it. -/
theorem request_line {k : RequestKind} (hk : k.permits p = p.isConsole) (tag : Byte) (l : LineId)
    (own : LineId → State → Reply) (ready : consoleReady s p) :
    request k p tag (.args l.val) (fun n => lineRequest n own) s = .next (respond p k.code tag (own l (heard p s))) := by
  refine (request_unlocked hk tag l.val (fun n u => _) ready).trans ?_
  rw [lineOf?_val]

theorem request_line_outside {k : RequestKind} (hk : k.permits p = p.isConsole) (tag : Byte) {n : Nat} (hn : 8 ≤ n)
    (own : LineId → State → Reply) (ready : consoleReady s p) :
    request k p tag (.args n) (fun n => lineRequest n own) s =
      .next (answering p k tag .badArgument .header (heard p s)) := by
  refine (request_unlocked hk tag n (fun n u => _) ready).trans ?_
  rw [lineOf?_eq_none hn]
  rfl

/-! ### LINE_CONFIG (R28, R29, R84) -/

/-- The values of a LINE_CONFIG lie in their ranges (R28). -/
def configInRange (a : LineConfigArgs) : Prop :=
  a.present ≤ 1 ∧ 1000 ≤ a.range ∧ a.range ≤ 16000 ∧ 10 ≤ a.weight ∧ a.weight ≤ 1000 ∧ 10 ≤ a.hose ∧ a.hose ≤ 200 ∧
  a.friction ≤ 500 ∧ 20 ≤ a.watch ∧ a.watch ≤ 2000

/-- The settings a LINE_CONFIG carries. -/
def configSettings (a : LineConfigArgs) : LineSettings :=
  ⟨a.present == 1, a.range, a.weight, a.hose, a.friction, a.watch⟩

theorem config_of_inRange {a : LineConfigArgs} (h : configInRange a) (hl : a.line = l.val) :
    LineConfigArgs.settings? a = some (l, configSettings a) := by
  have ok : (isFlag a.present && within 1000 16000 a.range && within 10 1000 a.weight && within 10 200 a.hose &&
      within 0 500 a.friction && within 20 2000 a.watch) = true := by
    simpa [configInRange, isFlag, within, and_assoc] using h
  rw [LineConfigArgs.settings?, hl, lineOf?_val]
  exact if_pos ok

theorem config_of_bad {a : LineConfigArgs} (h : 8 ≤ a.line ∨ ¬ configInRange a) :
    LineConfigArgs.settings? a = none := by
  rw [LineConfigArgs.settings?]
  cases named : lineOf? a.line with
  | none => rfl
  | some l =>
    have inside : ¬ 8 ≤ a.line := fun outside => by simp [lineOf?_eq_none outside] at named
    refine if_neg fun ok => h.resolve_left inside ?_
    simpa [configInRange, isFlag, within, and_assoc] using ok

/-- LINE_CONFIG from a console in a part that takes it. -/
theorem exec_lineConfig (ready : consoleReady s p) (tag : Byte) (a : LineConfigArgs) :
    exec (.lineConfig p tag (.args a)) s =
      .next (respond p RequestKind.lineConfig.code tag (lineConfigReply a (heard p s))) := by
  obtain ⟨console, listens, -⟩ := ready
  exact request_console (k := .lineConfig) rfl tag a lineConfigReply console listens

theorem lineConfigReply_bad {a : LineConfigArgs} (free : s.stop.lockdown = false) (none : LineConfigArgs.settings? a = none) :
    lineConfigReply a s = refuse .badArgument s := by
  rw [lineConfigReply, unlessLocked_free _ free, none]

theorem lineConfigReply_busy {a : LineConfigArgs} {c : LineSettings} (free : s.stop.lockdown = false)
    (some : LineConfigArgs.settings? a = some (l, c)) (busy : (s.line l).state ∉ [LineState.idle, .isolated]) :
    lineConfigReply a s = refuse .wrongState s := by
  rw [lineConfigReply, unlessLocked_free _ free, some]
  dsimp only
  generalize (s.line l).state = st at busy
  cases st <;> simp at busy <;> rfl

theorem lineConfigReply_taken {a : LineConfigArgs} {c : LineSettings} (free : s.stop.lockdown = false)
    (some : LineConfigArgs.settings? a = some (l, c)) (still : (s.line l).state ∈ [LineState.idle, .isolated]) :
    lineConfigReply a s = accept .header (writeThrough (.line l c) (s.updLine l (Line.configure c))) := by
  rw [lineConfigReply, unlessLocked_free _ free, some]
  dsimp only
  generalize (s.line l).state = st at still
  cases st <;> simp at still <;> rfl

theorem line_writeThrough (w : StoreWrite) (m : LineId) : (writeThrough w s).line m = s.line m :=
  (writeThrough_keeps w s).line (by decide) (by decide) (by decide) m

/-! How `Line.configure` turns on Present (R29). -/

theorem configure_absent {c : LineSettings} (h : c.present = false) (x : Line) :
    Line.configure c x = Line.withdrawn { x with settings := c } := by
  simp [Line.configure, h]

theorem configure_returned {c : LineSettings} {x : Line} (h : c.present = true) (was : x.settings.present = false) :
    Line.configure c x = Line.returned { x with settings := c } := by
  simp [Line.configure, h, was]

theorem configure_present {c : LineSettings} {x : Line} (h : c.present = true) (was : x.settings.present = true) :
    Line.configure c x = { x with settings := c } := by
  simp [Line.configure, h, was]

theorem inForce_configure (c : LineSettings) (x : Line) : (Line.configure c x).inForce = x.inForce := by
  unfold Line.configure
  simp only []
  split
  · rfl
  · split <;> rfl

theorem settings_configure (c : LineSettings) (x : Line) : (Line.configure c x).settings = c := by
  unfold Line.configure
  simp only []
  split
  · rfl
  · split <;> rfl

/-- Settles O24: the settings are replaced in the one line, and Present decides which of three lines comes of it. -/
theorem lineConfigReplacesTheSettings : Obligations.LineConfigReplacesTheSettings := by
  intro s p tag a ready
  have free : (heard p s).stop.lockdown = false := by rw [heard_stop]; exact ready.2.2
  have run := exec_lineConfig ready tag a
  have sameChannels (f : Line → Channel) (hf : ∀ x g, f { x with grant := g } = f x) (l : LineId) :
      f ((heard p s).line l) = f (s.line l) := heard_line_part p s f l hf
  refine ⟨fun bad => ?_, fun l hl inRange => ⟨fun busy => ?_, fun still => ?_⟩⟩
  · exact request_refused (k := .lineConfig) rfl tag a lineConfigReply ready
      (lineConfigReply_bad free (config_of_bad bad))
  · exact request_refused (k := .lineConfig) rfl tag a lineConfigReply ready
      (lineConfigReply_busy free (config_of_inRange inRange hl) (by rw [heard_line_state]; exact busy))
  · rw [lineConfigReply_taken free (config_of_inRange inRange hl) (by rw [heard_line_state]; exact still)] at run
    have there (m : LineId) : (writeThrough (.line l (configSettings a))
        ((heard p s).updLine l (Line.configure (configSettings a)))).line m =
          if m = l then Line.configure (configSettings a) ((heard p s).line l) else (heard p s).line m :=
      (line_writeThrough _ m).trans (line_updLine _ _ _ _)
    have here := (there l).trans (if_pos rfl)
    refine ⟨_, run, fun m hm => (there m).trans (if_neg hm), ?_, ?_, ?_, fun off => ?_, fun on was => ?_, fun on was => ?_⟩
    · exact (writes_writeThrough _ _).trans (begun_heard p s _)
    · rw [here, settings_configure]; rfl
    · rw [here, inForce_configure]; exact heard_line_part p s Line.inForce l (fun _ _ => rfl)
    · have absent : (configSettings a).present = false := by simp [configSettings, off]
      rw [here, configure_absent absent]
      refine ⟨rfl, rfl, ?_, ?_, rfl, rfl⟩
      · exact congrArg Channel.switchOff (sameChannels Line.pressure (fun _ _ => rfl) l)
      · exact congrArg Channel.switchOff (sameChannels Line.flow (fun _ _ => rfl) l)
    · have present : (configSettings a).present = true := by simp [configSettings, on]
      rw [here, configure_present present (by rw [heard_line_settings]; exact was)]
      rfl
    · have present : (configSettings a).present = true := by simp [configSettings, on]
      rw [here, configure_returned present (by rw [heard_line_settings]; exact was)]
      refine ⟨heard_line_state p s l, heard_line_part p s Line.isolation l (fun _ _ => rfl), ?_, ?_⟩
      · exact congrArg Channel.switchOn (sameChannels Line.pressure (fun _ _ => rfl) l)
      · exact congrArg Channel.switchOn (sameChannels Line.flow (fun _ _ => rfl) l)

end


section
variable {s : State} {p : Port} {l : LineId}

/-! ### LINE_WATCH, LINE_UNWATCH, LINE_ISOLATE and LINE_RETURN (R44, R45) -/

def watchInRange (a : LineWatchArgs) : Prop := 1 ≤ a.hole ∧ a.hole ≤ 9999 ∧ a.stage ≤ 20

/-- The watch record a LINE_WATCH begins. -/
def watchRecord (a : LineWatchArgs) : Watch :=
  ⟨a.hole, if a.stage = 0 then none else some a.stage, none, 0, true, 0, 0⟩

theorem watch_of_inRange {a : LineWatchArgs} (h : watchInRange a) (hl : a.line = l.val) :
    LineWatchArgs.watch? a = some (l, watchRecord a) := by
  have ok : (within 1 9999 a.hole && within 0 20 a.stage) = true := by
    simpa [watchInRange, within, and_assoc] using h
  rw [LineWatchArgs.watch?, hl, lineOf?_val]
  exact if_pos ok

theorem watch_of_bad {a : LineWatchArgs} (h : 8 ≤ a.line ∨ ¬ watchInRange a) : LineWatchArgs.watch? a = none := by
  rw [LineWatchArgs.watch?]
  cases named : lineOf? a.line with
  | none => rfl
  | some l =>
    have inside : ¬ 8 ≤ a.line := fun outside => by simp [lineOf?_eq_none outside] at named
    refine if_neg fun ok => h.resolve_left inside ?_
    simpa [watchInRange, within, and_assoc] using ok

theorem lineWatchReply_bad {a : LineWatchArgs} (free : s.stop.lockdown = false) (none : LineWatchArgs.watch? a = none) :
    lineWatchReply a s = refuse .badArgument s := by
  rw [lineWatchReply, unlessLocked_free _ free, none]

theorem lineWatchReply_held {a : LineWatchArgs} {w : Watch} (free : s.stop.lockdown = false)
    (some : LineWatchArgs.watch? a = some (l, w)) (held : (s.line l).state ≠ .idle) :
    lineWatchReply a s = refuse .lineHeld s := by
  rw [lineWatchReply, unlessLocked_free _ free, some]
  exact if_neg held

theorem lineWatchReply_taken {a : LineWatchArgs} {w : Watch} (free : s.stop.lockdown = false)
    (some : LineWatchArgs.watch? a = some (l, w)) (idle : (s.line l).state = .idle) :
    lineWatchReply a s = accept .header (s.updLine l (fun x => { x with state := .watch, watch := w })) := by
  rw [lineWatchReply, unlessLocked_free _ free, some]
  exact if_pos idle

theorem lineIsolateOwn_refused (h : (s.line l).state ∉ [LineState.idle, .watch]) :
    lineIsolateOwn l s = refuse .wrongState s := by
  rw [lineIsolateOwn]
  generalize (s.line l).state = st at h
  cases st <;> simp at h <;> rfl

theorem lineIsolateOwn_taken (h : (s.line l).state ∈ [LineState.idle, .watch]) :
    lineIsolateOwn l s =
      accept .header (s.updLine l (fun x => { x with state := .isolated, isolation := some .console, watch := none })) := by
  rw [lineIsolateOwn]
  generalize (s.line l).state = st at h
  cases st <;> simp at h <;> rfl

theorem lineReturnOwn_refused
    (h : (s.line l).state ≠ .isolated ∨ (s.line l).settings.present = false ∨ (s.line l).readback ≠ .closed) :
    lineReturnOwn l s = refuse .wrongState s := by
  refine if_neg fun ⟨isolated, present, closed⟩ => ?_
  rcases h with other | absent | ajar
  · exact other isolated
  · exact absurd present (by rw [absent]; decide)
  · exact ajar closed

theorem lineReturnOwn_taken (isolated : (s.line l).state = .isolated) (present : (s.line l).settings.present = true)
    (closed : (s.line l).readback = .closed) :
    lineReturnOwn l s = accept .header (s.updLine l (fun x =>
      { x with state := .idle, command := .closed, isolation := none, invalid := 0 })) :=
  if_pos ⟨isolated, present, closed⟩

/-- A line request whose own check refuses it is refused. -/
theorem request_line_refused {k : RequestKind} (hk : k.permits p = p.isConsole) (tag : Byte)
    (own : LineId → State → Reply) (ready : consoleReady s p) {st : Status}
    (h : own l (heard p s) = refuse st (heard p s)) :
    request k p tag (.args l.val) (fun n => lineRequest n own) s = .next (answering p k tag st .header (heard p s)) := by
  rw [request_line hk tag l own ready, h]
  rfl

/-! ### HOLD_ALL and RELEASE_ALL (R43) -/

/-- A hold cause requested of every line. -/
theorem line_holdLines (c : HoldCause) (s : State) (m : LineId) : (forLines (addCause c) s).line m = (s.line m).held c :=
  line_forLines (P := fun _ => True) (g := fun _ => Line.held c) (fun _ _ _ => trivial)
    (fun l m u _ => line_addCause c l m u) trivial m

/-- A hold cause taken off every line. -/
theorem line_freeLines (c : HoldCause) (s : State) (m : LineId) :
    (forLines (removeCause c) s).line m = (s.line m).freed c :=
  line_forLines (P := fun _ => True) (g := fun _ => Line.freed c) (fun _ _ _ => trivial)
    (fun l m u _ => line_removeCause c l m u) trivial m

theorem holdAll_holdLines (c : HoldCause) (s : State) : (forLines (addCause c) s).holdAll = s.holdAll :=
  (forLines_keeps _ s fun l s => addCause_keeps c l s).2 .holdAll (by decide)

theorem holdAll_freeLines (c : HoldCause) (s : State) : (forLines (removeCause c) s).holdAll = s.holdAll :=
  (forLines_keeps _ s fun l s => removeCause_keeps c l s).2 .holdAll (by decide)

theorem holdAllReply_eq (free : s.stop.lockdown = false) :
    holdAllReply s = if s.holdAll then accept .header s
      else accept .header (forLines (addCause .console) { s with holdAll := true }) :=
  unlessLocked_free _ free

theorem releaseAllReply_eq (free : s.stop.lockdown = false) :
    releaseAllReply s = if s.holdAll then accept .header (forLines (removeCause .console) { s with holdAll := false })
      else accept .header s :=
  unlessLocked_free _ free

/-- Settles O25: each request's own checks on the line it names, or on the flag of the part. -/
theorem lineRequestsMoveAndHoldTheLines : Obligations.LineRequestsMoveAndHoldTheLines := by
  refine ⟨fun s p tag a ready => ?_, fun s p tag n ready hn => ?_, fun s p tag l ready => ?_, fun s p tag ready => ?_⟩
  · have free : (heard p s).stop.lockdown = false := by rw [heard_stop]; exact ready.2.2
    refine ⟨fun bad => ?_, fun l hl inRange => ⟨fun held => ?_, fun idle => ?_⟩⟩
    · exact request_refused (k := .lineWatch) rfl tag a lineWatchReply ready (lineWatchReply_bad free (watch_of_bad bad))
    · exact request_refused (k := .lineWatch) rfl tag a lineWatchReply ready
        (lineWatchReply_held free (watch_of_inRange inRange hl) (by rw [heard_line_state]; exact held))
    · have own := lineWatchReply_taken free (watch_of_inRange inRange hl) (by rw [heard_line_state]; exact idle)
      have run := request_console (k := .lineWatch) rfl tag a lineWatchReply ready.1 ready.2.1
      rw [own] at run
      exact run
  · exact ⟨request_line_outside (k := .lineUnwatch) rfl tag hn lineUnwatchOwn ready,
      request_line_outside (k := .lineIsolate) rfl tag hn lineIsolateOwn ready,
      request_line_outside (k := .lineReturn) rfl tag hn lineReturnOwn ready⟩
  · have unwatch := request_line (k := .lineUnwatch) rfl tag l lineUnwatchOwn ready
    have isolate := request_line (k := .lineIsolate) rfl tag l lineIsolateOwn ready
    have back := request_line (k := .lineReturn) rfl tag l lineReturnOwn ready
    have state := heard_line_state p s l
    have settings := heard_line_settings p s l
    have readback := heard_line_readback p s l
    refine ⟨fun other => ?_, fun watching => ?_, fun busy => ?_, fun quiet => ?_, fun bad => ?_, fun isolated present closed => ?_⟩
    · exact request_line_refused (k := .lineUnwatch) rfl tag lineUnwatchOwn ready (if_neg (by rw [state]; exact other))
    · exact unwatch.trans (congrArg (fun r => Host.Outcome.next (respond p _ tag r)) (if_pos (by rw [state]; exact watching)))
    · exact request_line_refused (k := .lineIsolate) rfl tag lineIsolateOwn ready
        (lineIsolateOwn_refused (by rw [state]; exact busy))
    · rw [lineIsolateOwn_taken (by rw [state]; exact quiet)] at isolate
      exact isolate
    · exact request_line_refused (k := .lineReturn) rfl tag lineReturnOwn ready
        (lineReturnOwn_refused (by rw [state, settings, readback]; exact bad))
    · rw [lineReturnOwn_taken (by rw [state]; exact isolated) (by rw [settings]; exact present)
        (by rw [readback]; exact closed)] at back
      exact back
  · have free : (heard p s).stop.lockdown = false := by rw [heard_stop]; exact ready.2.2
    have hold := request_console (k := .holdAll) rfl tag () (fun _ => holdAllReply) ready.1 ready.2.1
    have release := request_console (k := .releaseAll) rfl tag () (fun _ => releaseAllReply) ready.1 ready.2.1
    rw [holdAllReply_eq free, heard_holdAll] at hold
    rw [releaseAllReply_eq free, heard_holdAll] at release
    refine ⟨fun on => ?_, fun off => ?_, fun off => ?_, fun on => ?_⟩
    · rw [on] at hold; exact hold
    · rw [off] at hold
      exact ⟨_, hold, holdAll_holdLines _ _, line_holdLines _ _⟩
    · rw [off] at release; exact release
    · rw [on] at release
      exact ⟨_, release, holdAll_freeLines _ _, line_freeLines _ _⟩

end

end Sys2Proof.Machine
end

section
/-! PROOFS. The grout: BATCH_REPORT, TANK_DUMP, aging and the level (R77, R122 to R129, R132, R135). -/

namespace Sys2Proof.Machine

section
variable {s t u v : State} {p : Port} {l m : LineId} {A : List Part} {c : Channel}

/-! ### Effective class and transit (R127, R132, R135) -/

/-- A line with its effective class changed to another (R132, R134). -/
def Line.reclassed (cls : Nat) (x : Line) : Line :=
  match x.classes with
  | some c =>
    if c.effective = cls then x
    else
      let y : Line :=
        { x with classes := some { c with effective := cls, thickening := 0, pendingVolume := 0, pRef := none } }
      { y with mixLag := y.lagging }
  | none => x

theorem line_addProgress (l m : LineId) (f : Progress → Progress) (s : State) : (addProgress l f s).line m = s.line m :=
  (addProgress_keeps l f s).line (by decide) (by decide) (by decide) m

theorem line_decideMixLag (l m : LineId) (s : State) :
    (decideMixLag l s).line m = if m = l then { s.line l with mixLag := (s.line l).lagging } else s.line m := by
  have set : (s.setLine l { s.line l with mixLag := (s.line l).lagging }).line m =
      if m = l then { s.line l with mixLag := (s.line l).lagging } else s.line m := line_setLine _ _ _ _
  unfold decideMixLag
  dsimp only
  split
  · exact (line_postLine _ _ _ _ _).trans set
  · exact set

theorem line_setEffective (l m : LineId) (cls : Nat) (s : State) :
    (setEffective l cls s).line m = if m = l then (s.line l).reclassed cls else s.line m := by
  unfold setEffective Line.reclassed
  cases (s.line l).classes with
  | none => simp only []; split <;> simp_all
  | some c =>
    dsimp only
    by_cases same : c.effective = cls
    · rw [if_pos same, if_pos same]
      split <;> simp_all
    · rw [if_neg same, if_neg same, line_decideMixLag, line_addProgress, line_updLine_self, line_addProgress,
        line_updLine]
      split <;> rfl

theorem transit_reclassed (cls : Nat) (x : Line) : (x.reclassed cls).transit = x.transit := by
  unfold Line.reclassed
  split
  · split <;> rfl
  · rfl

/-- A transit queue with an entry appended; a full one gives up its oldest entry (R135). -/
def queued (e : Transit) (q : List Transit) : List Transit := (if q.length < 3 then q else q.drop 1) ++ [e]

/-- A line with a transit entry for a new tank class (R127, R135). -/
def Line.transited (cls : Nat) (x : Line) : Line :=
  let y := match x.transit with
    | first :: rest => if rest.length < 2 then x else Line.reclassed first.cls { x with transit := rest }
    | [] => x
  { y with transit := queued { cls := cls, remaining := x.inForce.hose * 1000 } x.transit }

theorem transit_transited (cls : Nat) (x : Line) :
    (x.transited cls).transit = queued { cls := cls, remaining := x.inForce.hose * 1000 } x.transit := rfl

theorem line_appendTransit (cls : Nat) (l m : LineId) (s : State) :
    (appendTransit cls l s).line m = if m = l then (s.line l).transited cls else s.line m := by
  unfold appendTransit Line.transited
  dsimp only
  cases held : (s.line l).transit with
  | nil =>
    dsimp only
    rw [line_updLine]
    rfl
  | cons first rest =>
    dsimp only
    by_cases room : rest.length < 2
    · have short : (first :: rest).length < 3 := by simp only [List.length_cons]; omega
      rw [if_pos room, if_pos room, line_updLine, queued, if_pos short, held]
    · have full : ¬ (first :: rest).length < 3 := by simp only [List.length_cons]; omega
      have kept := transit_reclassed first.cls { s.line l with transit := rest }
      rw [if_neg room, if_neg room, line_updLine, line_setEffective, if_pos rfl, line_updLine_self, line_setEffective,
        line_updLine, kept, queued, if_neg full]
      split
      · rfl
      · exact (line_updLine _ _ _ _).trans (if_neg ‹_›)

/-- The lines after a change of the tank class (R127). -/
theorem line_tankClassFrom (before : Nat) (s : State) (m : LineId) :
    (tankClassFrom before s).line m =
      if s.grout.tankClass = before ∨ s.grout.tankClass = 0 ∨ (s.line m).state.live = false then s.line m
      else (s.line m).transited s.grout.tankClass := by
  unfold tankClassFrom
  by_cases same : s.grout.tankClass = before ∨ s.grout.tankClass = 0
  · rw [if_pos same, if_pos (same.imp_right .inl)]
  · have kept (l : LineId) (u : State) (hu : u.grout = s.grout) :
        (if (u.line l).state.live then appendTransit u.grout.tankClass l u else u).grout = s.grout := by
      split
      · exact ((appendTransit_keeps _ l u).grout (by decide)).trans hu
      · exact hu
    have one (l m : LineId) (u : State) (hu : u.grout = s.grout) :
        (if (u.line l).state.live then appendTransit u.grout.tankClass l u else u).line m =
          if m = l then (if (u.line l).state.live then (u.line l).transited s.grout.tankClass else u.line l)
          else u.line m := by
      by_cases live : (u.line l).state.live = true
      · rw [if_pos live, if_pos live, line_appendTransit, hu]
      · rw [if_neg live, if_neg live]
        split <;> simp_all
    have each := line_forLines (P := fun u => u.grout = s.grout)
      (g := fun _ x => if x.state.live then x.transited s.grout.tankClass else x) kept one rfl m
    rw [if_neg same, each]
    push Not at same
    cases (s.line m).state.live <;> simp [same]

theorem grout_tankClassFrom (before : Nat) (s : State) : (tankClassFrom before s).grout = s.grout :=
  (tankClassFrom_keeps before s).grout (by decide)

/-! ### Aging (R128) -/

theorem isAged_iff (s : State) :
    s.isAged = true ↔ ∃ b bs, s.grout.batches = b :: bs ∧ s.settings.ageLimit * 60 < s.clock.site - b.mixedAt := by
  unfold State.isAged State.oldestAge
  cases s.grout.batches <;> simp

theorem grout_decideAged (s : State) : (decideAged s).grout = { s.grout with aged := s.isAged } := by
  have held (c : HoldCause) (u : State) : (forLines (addCause c) u).grout = u.grout :=
    (forLines_keeps _ u fun l u => addCause_keeps c l u).grout (by decide)
  have freed (c : HoldCause) (u : State) : (forLines (removeCause c) u).grout = u.grout :=
    (forLines_keeps _ u fun l u => removeCause_keeps c l u).grout (by decide)
  have posted (k : AlertKind) (d : Option Int) (u : State) : (postPart k d u).grout = u.grout :=
    (postPart_keeps k d u).grout (by decide)
  unfold decideAged
  have same : { s.grout with aged := s.grout.aged } = s.grout := rfl
  cases now : s.isAged <;> cases was : s.grout.aged
  · rw [was] at same; simp [same]
  · simp [freed]
  · simp [held, posted]
  · rw [was] at same; simp [same]

theorem line_decideAged (s : State) (m : LineId) :
    (decideAged s).line m =
      if s.isAged = s.grout.aged then s.line m
      else if s.isAged = true then (s.line m).held .aged else (s.line m).freed .aged := by
  have posted (k : AlertKind) (d : Option Int) (u : State) : (postPart k d u).line m = u.line m := line_post _ _ _ _
  unfold decideAged
  cases s.isAged <;> cases s.grout.aged <;> simp [line_holdLines, line_freeLines, posted]

/-! ### BATCH_REPORT (R122, R123, R127) -/

def batchInRange (a : BatchArgs) (site : Nat) : Prop :=
  1 ≤ a.cls ∧ a.cls ≤ 6 ∧ 20 ≤ a.volume ∧ a.volume ≤ 2000 ∧ a.given ≤ 1 ∧ (a.given = 1 → a.mixedAt ≤ site)

theorem batchOk_iff (a : BatchArgs) (site : Nat) : BatchArgs.ok a site = true ↔ batchInRange a site := by
  have given (h : a.given ≤ 1) : a.given = 0 ∨ a.mixedAt ≤ site ↔ (a.given = 1 → a.mixedAt ≤ site) := by omega
  simp only [BatchArgs.ok, batchInRange, within, isFlag, Bool.and_eq_true, decide_eq_true_eq, Bool.or_eq_true,
    beq_iff_eq, and_assoc]
  constructor
  · rintro ⟨a1, a6, v20, v2000, flag, time⟩
    exact ⟨a1, a6, v20, v2000, flag, (given flag).mp time⟩
  · rintro ⟨a1, a6, v20, v2000, flag, time⟩
    exact ⟨a1, a6, v20, v2000, flag, (given flag).mpr time⟩

theorem tankClass_append (g : Grout) (b : Batch) :
    ({ g with batches := g.batches ++ [b] } : Grout).tankClass = max g.tankClass b.cls := by
  simp [Grout.tankClass]

/-- The tank account and the lines as a report leaves them before the aged condition is decided. -/
def batchFilled (a : BatchArgs) (s : State) : State :=
  tankClassFrom s.grout.tankClass ((batchAlerts a.cls s.grout.nextBatch s).updGrout
    (Grout.addBatch (BatchArgs.batch a s.grout.nextBatch s.clock.site)))

theorem batchAlerts_clock (cls n : Nat) (s : State) : (batchAlerts cls n s).clock = s.clock :=
  (batchAlerts_keeps cls n s).2 .clock (by decide)

theorem batchAlerts_grout (cls n : Nat) (s : State) : (batchAlerts cls n s).grout = s.grout :=
  (batchAlerts_keeps cls n s).grout (by decide)

theorem takeBatch_eq (a : BatchArgs) (s : State) :
    takeBatch a s = if s.grout.batches.isEmpty then decideAged (batchFilled a s) else batchFilled a s := by
  unfold takeBatch batchFilled
  dsimp only
  rw [batchAlerts_clock]

theorem grout_batchFilled (a : BatchArgs) (s : State) :
    (batchFilled a s).grout = Grout.addBatch (BatchArgs.batch a s.grout.nextBatch s.clock.site) s.grout := by
  rw [batchFilled, grout_tankClassFrom, grout_updGrout, batchAlerts_grout]

theorem tankClass_batchFilled (a : BatchArgs) (s : State) :
    (batchFilled a s).grout.tankClass = max s.grout.tankClass a.cls := by
  rw [grout_batchFilled]
  exact tankClass_append s.grout (BatchArgs.batch a s.grout.nextBatch s.clock.site)

theorem line_batchFilled (a : BatchArgs) (ha : 1 ≤ a.cls) (s : State) (m : LineId) :
    (batchFilled a s).line m =
      if (s.line m).state.live = true ∧ max s.grout.tankClass a.cls ≠ s.grout.tankClass
      then (s.line m).transited (max s.grout.tankClass a.cls) else s.line m := by
  have cls := tankClass_append s.grout (BatchArgs.batch a s.grout.nextBatch s.clock.site)
  have same : (batchAlerts a.cls s.grout.nextBatch s).line m = s.line m :=
    (batchAlerts_keeps _ _ s).line (by decide) (by decide) (by decide) m
  have tank : ((batchAlerts a.cls s.grout.nextBatch s).updGrout
      (Grout.addBatch (BatchArgs.batch a s.grout.nextBatch s.clock.site))).grout.tankClass =
        max s.grout.tankClass a.cls := by
    rw [grout_updGrout, batchAlerts_grout]
    exact cls
  rw [batchFilled, line_tankClassFrom, tank, line_updGrout, same]
  have some : max s.grout.tankClass a.cls ≠ 0 := by omega
  cases (s.line m).state.live <;> by_cases h : max s.grout.tankClass a.cls = s.grout.tankClass <;> simp_all

theorem aged_batchFilled (a : BatchArgs) (h : s.grout.batches = []) :
    (batchFilled a s).isAged =
      decide (s.settings.ageLimit * 60 < s.clock.site - (BatchArgs.batch a s.grout.nextBatch s.clock.site).mixedAt) := by
  have batches : (batchFilled a s).grout.batches = [BatchArgs.batch a s.grout.nextBatch s.clock.site] := by
    rw [grout_batchFilled]
    simp [Grout.addBatch, h]
  have rest : keeps [.lines, .stages, .queues, .batches, .account] s (batchFilled a s) := by
    refine (tankClassFrom_keeps _ _).after (by decide) ((addBatch_keeps _ _).after (by decide) ?_)
    exact (batchAlerts_keeps _ _ s).mono (by decide)
  have clock : (batchFilled a s).clock = s.clock := rest.2 .clock (by decide)
  have settings : (batchFilled a s).settings = s.settings := rest.2 .settings (by decide)
  simp [State.isAged, State.oldestAge, batches, clock, settings]

theorem transit_held (c : HoldCause) (x : Line) : (x.held c).transit = x.transit := by
  unfold Line.held
  split
  · rfl
  · split <;> rfl

theorem transit_freed (c : HoldCause) (x : Line) : (x.freed c).transit = x.transit := by
  unfold Line.freed
  repeat' split
  all_goals rfl

theorem transit_decideAged (s : State) (m : LineId) : ((decideAged s).line m).transit = (s.line m).transit := by
  rw [line_decideAged]
  split
  · rfl
  · split
    · exact transit_held _ _
    · exact transit_freed _ _

theorem transit_takeBatch (a : BatchArgs) (s : State) (m : LineId) :
    ((takeBatch a s).line m).transit = ((batchFilled a s).line m).transit := by
  rw [takeBatch_eq]
  split
  · exact transit_decideAged _ m
  · rfl

theorem grout_takeBatch (a : BatchArgs) (s : State) :
    (takeBatch a s).grout = { (batchFilled a s).grout with
      aged := if s.grout.batches.isEmpty then (batchFilled a s).isAged else s.grout.aged } := by
  rw [takeBatch_eq]
  split
  · exact grout_decideAged _
  · rw [grout_batchFilled]
    rfl

end


section
variable {s t u v : State} {p : Port} {l m : LineId} {A : List Part} {c : Channel}

theorem batchReportReply_refused {a : BatchArgs} (free : s.stop.lockdown = false) (bad : ¬ batchInRange a s.clock.site) :
    batchReportReply a s = refuse .badArgument s := by
  have notOk : (!BatchArgs.ok a s.clock.site) = true := by
    rw [Bool.not_eq_true', Bool.eq_false_iff]
    exact fun ok => bad ((batchOk_iff _ _).mp ok)
  rw [batchReportReply, unlessLocked_free _ free]
  exact if_pos notOk

theorem batchReportReply_full {a : BatchArgs} (free : s.stop.lockdown = false) (ok : batchInRange a s.clock.site)
    (full : 8 ≤ s.grout.batches.length) : batchReportReply a s = refuse .tableFull s := by
  have isOk : ¬ (!BatchArgs.ok a s.clock.site) = true := by simp [(batchOk_iff _ _).mpr ok]
  rw [batchReportReply, unlessLocked_free _ free]
  exact (if_neg isOk).trans (if_pos full)

theorem batchReportReply_taken {a : BatchArgs} (free : s.stop.lockdown = false) (ok : batchInRange a s.clock.site)
    (room : ¬ 8 ≤ s.grout.batches.length) :
    batchReportReply a s =
      accept (.batch s.grout.nextBatch (takeBatch a s).grout.batches.length (takeBatch a s).grout.tankClass
        ((takeBatch a s).grout.accounted / 1000)) (takeBatch a s) := by
  have isOk : ¬ (!BatchArgs.ok a s.clock.site) = true := by simp [(batchOk_iff _ _).mpr ok]
  rw [batchReportReply, unlessLocked_free _ free]
  exact (if_neg isOk).trans (if_neg room)

/-- Settles O26: the batch goes to the end of the list, and the lines in use are queued where it raises the class. -/
theorem batchReportAppendsTheBatch : Obligations.BatchReportAppendsTheBatch := by
  intro s p tag a ready
  have free : (heard p s).stop.lockdown = false := by rw [heard_stop]; exact ready.2.2
  have clock : (heard p s).clock = s.clock := heard_clock p s
  have grout : (heard p s).grout = s.grout := heard_grout p s
  refine ⟨fun bad => ?_, fun ok full => ?_, fun ok room => ?_⟩
  · exact request_refused (k := .batchReport) rfl tag a batchReportReply ready
      (batchReportReply_refused free (by rw [clock]; exact bad))
  · exact request_refused (k := .batchReport) rfl tag a batchReportReply ready
      (batchReportReply_full free (by rw [clock]; exact ok) (by rw [grout]; exact full))
  · have run := request_console (k := .batchReport) rfl tag a batchReportReply ready.1 ready.2.1
    rw [batchReportReply_taken free (by rw [clock]; exact ok) (by rw [grout]; omega)] at run
    have filled := grout_batchFilled a (heard p s)
    have cls := tankClass_batchFilled a (heard p s)
    have taken := grout_takeBatch a (heard p s)
    have batches := batches_takeBatch a (heard p s)
    have tank : (takeBatch a (heard p s)).grout.tankClass = max s.grout.tankClass a.cls := by
      rw [taken]
      exact cls.trans (by rw [grout])
    have length : (takeBatch a (heard p s)).grout.batches.length = s.grout.batches.length + 1 := by
      rw [batches, grout, List.length_append, List.length_singleton]
    have account : (takeBatch a (heard p s)).grout.accounted =
        (s.grout.batches.map Batch.remaining).sum + a.volume * 1000 := by
      rw [Grout.accounted, batches, grout, List.map_append, List.sum_append]
      simp [BatchArgs.batch]
    rw [length, tank, account, grout] at run
    rw [grout, clock] at batches
    rw [filled, grout, clock] at taken
    refine ⟨takeBatch a (heard p s), run, batches, tank, ?_, ?_, ?_, ?_, fun l => ?_, fun some => ?_, fun none => ?_⟩
    · rw [taken]; rfl
    · rw [taken]; rfl
    · rw [taken]; rfl
    · rw [taken]; rfl
    · have transit := heard_line_part p s Line.transit l (fun _ _ => rfl)
      have inForce := heard_line_part p s Line.inForce l (fun _ _ => rfl)
      rw [transit_takeBatch, line_batchFilled a ok.1, heard_line_state, grout]
      by_cases raised : (s.line l).state.live = true ∧ max s.grout.tankClass a.cls ≠ s.grout.tankClass
      · rw [if_pos raised, if_pos raised, transit_transited, transit, inForce]; rfl
      · rw [if_neg raised, if_neg raised, transit]
    · rw [taken, List.isEmpty_eq_false_iff.mpr some]; rfl
    · have aged := aged_batchFilled a (s := heard p s) (by rw [grout]; exact none)
      rw [clock, grout, heard_settings] at aged
      rw [taken, none]
      exact aged

/-! ### TANK_DUMP (R124) -/

theorem tankDumpReply_eq (free : s.stop.lockdown = false) :
    tankDumpReply s = accept (.dump s.grout.batches.length (s.grout.accounted / 1000))
      (decideAged (s.updGrout (fun g => { g with batches := [] }))) :=
  unlessLocked_free _ free

/-! ### The level (R77, R129) -/

/-- A channel is lost by a sample that finds it suspect and leaves it lost (R77). -/
theorem loss_sample (top n : Nat) (band : Option Nat) (v : Option Int) (c : Channel) :
    (c.sample top n band v).loss = true ↔
      c.validity = .suspect ∧ (c.sample top n band v).channel.validity = .lost := by
  cases v with
  | none =>
    unfold Channel.sample Channel.badSample
    dsimp only
    cases h : c.validity <;> dsimp only <;> first | simp
    split <;> simp [h]
  | some v =>
    unfold Channel.sample Channel.goodSample Channel.take
    dsimp only
    cases h : c.validity <;> dsimp only <;> first | simp
    split <;> simp

theorem latched_partLoss {n : Nat} {code : FaultCode} {loc : Option FaultLocation} {q : Consequence} {i : Nat} {r : Sampled}
    (loss : r.loss = true) (s : State) : code ∈ (partChannelEffects n code loc q i r s).record.latched := by
  unfold partChannelEffects
  dsimp only
  rw [if_pos loss]
  exact (mem_latched_enterFault _ _ _ _).mpr (.inl rfl)

theorem level_levelSample (i : Nat) (s : State) :
    (levelSample i s).level = (s.level.sample s.counterTop s.settings.lossCount
      (some (s.settings.tankCapacity * 2 / 100)) (convertSpan s.settings.tankCapacity i)).channel :=
  (partChannelEffects_keeps _ _ _ _ _ _ _).2 .level (by decide)

theorem compareLevels_notValid (h : s.level.validity ≠ .valid) :
    compareLevels s = s.updGrout (fun g => { g with mismatch := 0, matched := 0 }) :=
  if_neg (by simpa [Channel.isValid] using h)

theorem grout_compareLevels (h : s.level.validity = .valid) :
    (compareLevels s).grout = Grout.compareLevel s.settings.levelTolerance
      (s.level.value - ((s.grout.accounted / 1000 : Nat) : Int)) s.grout := by
  have valid : s.level.isValid = true := by simp [Channel.isValid, h]
  unfold compareLevels
  rw [if_pos valid]
  dsimp only
  split
  · exact (postPart_keeps _ _ _).grout (by decide)
  · rfl

theorem compareLevel_eq (tolerance : Nat) (d : Int) (g : Grout) :
    Grout.compareLevel tolerance d g = { g with
      difference := d
      mismatch := if tolerance < d.natAbs then min 3 (g.mismatch + 1) else 0
      matched := if tolerance < d.natAbs then 0 else min 3 (g.matched + 1)
      levelMismatch := (Grout.compareLevel tolerance d g).levelMismatch } := by
  unfold Grout.compareLevel
  simp only [Nat.cast_lt]
  split <;> rfl

theorem levelMismatch_compareLevel (tolerance : Nat) (d : Int) (g : Grout) :
    (Grout.compareLevel tolerance d g).levelMismatch = true ↔
      (tolerance < d.natAbs ∧ 2 ≤ g.mismatch) ∨
      (g.levelMismatch = true ∧ ¬ (¬ tolerance < d.natAbs ∧ 2 ≤ g.matched)) := by
  have third (n : Nat) : min 3 (n + 1) = 3 ↔ 2 ≤ n := by omega
  unfold Grout.compareLevel
  simp only [Nat.cast_lt]
  by_cases beyond : tolerance < d.natAbs <;> simp [beyond, third, or_comm]

theorem exec_levelComparison (late : 10 ≤ s.grout.levelPeriod) :
    exec .levelComparison s = .next (compareLevels (s.updGrout Grout.endPeriod)) :=
  congrArg Host.Outcome.next (if_pos late)

/-- Settles O27: the account emptied, the aged condition decided, the level sampled and compared. -/
theorem tankDumpAgingAndLevel : Obligations.TankDumpAgingAndLevel := by
  refine ⟨fun s p tag ready => ?_, fun s => ⟨_, rfl, ?_, ?_, fun l => ?_⟩, fun s i => ⟨_, rfl, ?_, fun was now => ?_, ?_, fun l => ?_⟩,
    fun s early => ?_, fun s late => ⟨_, exec_levelComparison late, fun bad => ?_, fun valid => ?_⟩⟩
  · have free : (heard p s).stop.lockdown = false := by rw [heard_stop]; exact ready.2.2
    have run := request_console (k := .tankDump) rfl tag () (fun _ => tankDumpReply) ready.1 ready.2.1
    rw [tankDumpReply_eq free, heard_grout] at run
    have grout := grout_decideAged ((heard p s).updGrout (fun g => { g with batches := [] }))
    rw [grout_updGrout, heard_grout] at grout
    refine ⟨_, run, ?_, ?_, ?_, ?_, fun l => ?_⟩
    · rw [grout]
    · rw [grout]; rfl
    · rw [grout]
    · rw [grout]; rfl
    · rw [line_decideAged, grout_updGrout, heard_grout]
      cases s.grout.aged <;> rfl
  · rw [grout_decideAged]
    exact isAged_iff s
  · rw [grout_decideAged]
  · rw [grout_decideAged]
    exact line_decideAged s l
  · exact level_levelSample i s
  · rw [level_levelSample] at now
    exact latched_partLoss ((loss_sample _ _ _ _ _).mpr ⟨was, now⟩) _
  · exact (levelSample_keeps i s).grout (by decide)
  · exact (levelSample_keeps i s).line (by decide) (by decide) (by decide) l
  · exact congrArg Host.Outcome.next (if_neg (Nat.not_le.mpr early))
  · exact compareLevels_notValid (s := s.updGrout Grout.endPeriod) bad
  · rw [grout_compareLevels (s := s.updGrout Grout.endPeriod) valid]
    exact ⟨compareLevel_eq _ _ _, levelMismatch_compareLevel _ _ _⟩

end

end Sys2Proof.Machine
end

section
/-! PROOFS. The uplift gauges: UPLIFT_ZERO and UPLIFT_CLEAR (R138 to R142). -/

namespace Sys2Proof.Machine

section
variable {s t u v : State} {p : Port} {A : List Part}

/-! ### A change of every gauge -/

theorem mem_gaugeIds (g : GaugeId) : g ∈ gaugeIds := by
  fin_cases g <;> decide

theorem mem_allPorts (p : Port) : p ∈ allPorts := by
  cases p <;> decide

/-- What a change of each of some things in turn leaves of a thing, where the change of one is known, under a condition
on the rest of the state. -/
theorem foldl_each {ι α : Type} [DecidableEq ι] {f : State → ι → State} {part : State → ι → α} {g : ι → α → α}
    {P : State → Prop} (hP : ∀ i s, P s → P (f s i))
    (h : ∀ i j s, P s → part (f s i) j = if j = i then g i (part s i) else part s j) (is : List ι) (once : is.Nodup)
    {s : State} (hs : P s) (j : ι) :
    part (is.foldl f s) j = if j ∈ is then g j (part s j) else part s j := by
  induction is generalizing s with
  | nil => rfl
  | cons i is ih =>
    obtain ⟨absent, once⟩ := List.nodup_cons.1 once
    rw [List.foldl_cons, ih once (hP i s hs), h i j s hs]
    by_cases same : j = i
    · subst j
      simp [absent]
    · simp [same]

/-- A change of every gauge in turn. -/
theorem gauge_each {f : State → GaugeId → State} {h : GaugeId → Gauge → Gauge} {P : State → Prop}
    (hP : ∀ g s, P s → P (f s g))
    (one : ∀ g m s, P s → (f s g).gauge m = if m = g then h g (s.gauge g) else s.gauge m) (hs : P s) (m : GaugeId) :
    (gaugeIds.foldl f s).gauge m = h m (s.gauge m) :=
  (foldl_each (part := State.gauge) (g := h) hP one gaugeIds (by decide) hs m).trans (if_pos (mem_gaugeIds m))

/-- A change of every port in turn. -/
theorem port_each {f : State → Port → State} {h : Port → PortRecord → PortRecord} {P : State → Prop}
    (hP : ∀ q s, P s → P (f s q))
    (one : ∀ q m s, P s → (f s q).port m = if m = q then h q (s.port q) else s.port m) (hs : P s) (m : Port) :
    (allPorts.foldl f s).port m = h m (s.port m) :=
  (foldl_each (part := State.port) (g := h) hP one allPorts (by decide) hs m).trans (if_pos (mem_allPorts m))

theorem keeps.gauge (h : keeps A s t) (hA : .gauges ∉ A) (g : GaugeId) : t.gauge g = s.gauge g :=
  congrArg (fun v : Vector Gauge 4 => v.get g) (h.2 .gauges hA :)

theorem keeps.enabled (h : keeps A s t) (hA : .settings ∉ A) (g : GaugeId) : t.enabled g = s.enabled g :=
  congrArg (fun x : PartSettings => x.gauges.get g) (h.2 .settings hA :)

/-! ### UPLIFT_ZERO (R138) -/

theorem zeroGauges_eq (s : State) (m : GaugeId) :
    (zeroGauges s).gauge m = if s.enabled m = true then Gauge.zero (s.gauge m) else s.gauge m := by
  refine gauge_each (P := fun u => ∀ g, u.enabled g = s.enabled g)
    (h := fun g x => if s.enabled g = true then Gauge.zero x else x) (fun g u hu => ?_) (fun g m u hu => ?_)
    (fun _ => rfl) m
  · split
    · exact hu
    · exact hu
  · rw [← hu g]
    by_cases on : u.enabled g = true
    · rw [if_pos on, if_pos on, gauge_updGauge]
    · rw [if_neg on, if_neg on]
      split <;> simp_all

end


section
variable {s t u v : State} {p : Port} {A : List Part} {g : GaugeId}

theorem heard_gauge (p : Port) (s : State) (g : GaugeId) : (heard p s).gauge g = s.gauge g :=
  congrArg (fun v : Vector Gauge 4 => v.get g) (heard_gauges p s)

theorem heard_enabled (p : Port) (s : State) (g : GaugeId) : (heard p s).enabled g = s.enabled g :=
  congrArg (fun x : PartSettings => x.gauges.get g) (heard_settings p s)

/-- The part once UPLIFT_ZERO has acted. -/
def zeroed (s : State) : State := formWarn (zeroGauges s)

theorem upliftZeroReply_stopped (free : s.stop.lockdown = false) (stop : s.stop.upliftStop = true) :
    upliftZeroReply s = refuse .conditionPresent s := by
  rw [upliftZeroReply, unlessLocked_free _ free, if_pos stop]

theorem upliftZeroReply_taken (free : s.stop.lockdown = false) (clear : s.stop.upliftStop = false) :
    upliftZeroReply s = accept (.baselines (gaugeIds.map (fun g => ((zeroed s).gauge g).baseline))) (zeroed s) := by
  rw [upliftZeroReply, unlessLocked_free _ free]
  exact if_neg (by rw [clear]; decide)

theorem gauge_zeroed (s : State) (g : GaugeId) :
    (zeroed s).gauge g = if s.enabled g = true then Gauge.zero (s.gauge g) else s.gauge g :=
  ((formWarn_keeps _).gauge (by decide) g).trans (zeroGauges_eq s g)

theorem enabled_zeroGauges (s : State) (g : GaugeId) : (zeroGauges s).enabled g = s.enabled g :=
  (zeroGauges_keeps s).enabled (by decide) g

/-- An enabled gauge is judged after UPLIFT_ZERO as soon as it is VALID (R138). -/
theorem judgedNow_zeroGauges (s : State) (g : GaugeId) :
    (zeroGauges s).judgedNow g = (s.enabled g && (s.gauge g).channel.isValid) := by
  rw [State.judgedNow, enabled_zeroGauges, zeroGauges_eq]
  cases s.enabled g
  · rfl
  · cases valid : (s.gauge g).channel.isValid <;> simp [Gauge.zero, valid]

theorem inLoss_iff (c : Channel) : c.inLoss = true ↔ c.validity ∈ [Validity.lost, .regain1, .regain2] := by
  unfold Channel.inLoss
  cases c.validity <;> simp

/-- No enabled gauge warns of itself after UPLIFT_ZERO: a loss alone still does. -/
theorem gaugeWarns_zeroGauges (s : State) (g : GaugeId) :
    (zeroGauges s).gaugeWarns g = true ↔
      s.enabled g = true ∧ (s.gauge g).channel.validity ∈ [Validity.lost, .regain1, .regain2] := by
  rw [← inLoss_iff, State.gaugeWarns, enabled_zeroGauges, zeroGauges_eq]
  cases s.enabled g <;> simp [Gauge.zero]

theorem degraded_zeroed (s : State) :
    (zeroed s).stop.degraded = true ↔
      (gaugeIds.filter (fun g => s.enabled g && (s.gauge g).channel.isValid)).length < 2 := by
  have judged : (zeroGauges s).judgedNow = fun g => s.enabled g && (s.gauge g).channel.isValid :=
    funext (judgedNow_zeroGauges s)
  rw [zeroed, stop_formWarn]
  simp [State.forcedWarn, judged]

theorem warn_zeroed (s : State) :
    (zeroed s).stop.warn = true ↔ (zeroed s).stop.degraded = true ∨
      ∃ g, s.enabled g = true ∧ (s.gauge g).channel.validity ∈ [Validity.lost, .regain1, .regain2] := by
  have warns : gaugeIds.any (zeroGauges s).gaugeWarns = true ↔
      ∃ g, s.enabled g = true ∧ (s.gauge g).channel.validity ∈ [Validity.lost, .regain1, .regain2] := by
    rw [List.any_eq_true]
    exact exists_congr fun g => (and_iff_right (mem_gaugeIds g)).trans (gaugeWarns_zeroGauges s g)
  rw [zeroed, stop_formWarn]
  dsimp only
  rw [Bool.or_eq_true, warns, or_comm]

/-! ### UPLIFT_CLEAR (R142) -/

theorem allBelowWarn_iff (s : State) :
    s.allBelowWarn = true ↔
      ∀ g, s.enabled g = true → (s.gauge g).judged = true ∧ (s.gauge g).u < s.settings.warnThreshold := by
  rw [State.allBelowWarn, List.all_eq_true]
  refine forall_congr' fun g => (forall_prop_of_true (mem_gaugeIds g)).trans ?_
  unfold State.belowWarn
  cases s.enabled g <;> simp

theorem upliftClearReply_eq (free : s.stop.lockdown = false) :
    upliftClearReply s =
      if !s.stop.upliftStop then accept .header s
      else if s.allBelowWarn then
        accept .header (forLines (removeCause .uplift) (s.updStop (fun x => { x with upliftStop := false })))
      else refuse .conditionPresent s :=
  unlessLocked_free _ free

theorem stop_freeLines (c : HoldCause) (s : State) : (forLines (removeCause c) s).stop = s.stop :=
  (forLines_keeps _ s fun l s => removeCause_keeps c l s).stop (by decide)

/-- Settles O28: the gauges taken as zero with the warning formed again, and the stop that no gauge upholds cleared. -/
theorem upliftZeroAndUpliftClear : Obligations.UpliftZeroAndUpliftClear := by
  refine ⟨fun s p tag ready => ⟨fun stop => ?_, fun clear => ?_⟩,
    fun s p tag ready => ?_⟩
  · exact request_refused (k := .upliftZero) rfl tag () (fun _ => upliftZeroReply) ready
      (upliftZeroReply_stopped (by rw [heard_stop]; exact ready.2.2) (by rw [heard_stop]; exact stop))
  · have run := request_console (k := .upliftZero) rfl tag () (fun _ => upliftZeroReply) ready.1 ready.2.1
    rw [upliftZeroReply_taken (by rw [heard_stop]; exact ready.2.2) (by rw [heard_stop]; exact clear)] at run
    have gauges := gauge_zeroed (heard p s)
    have degraded := degraded_zeroed (heard p s)
    have warn := warn_zeroed (heard p s)
    simp only [heard_enabled, heard_gauge] at gauges degraded warn
    refine ⟨_, run, fun g on => ?_, fun g off => ?_, degraded, warn⟩
    · rw [gauges, if_pos on, Gauge.zero]
      simp only [Channel.isValid, beq_iff_eq]
    · have disabled : ¬ s.enabled g = true := by rw [off]; decide
      rw [gauges, if_neg disabled]
  · have run := request_console (k := .upliftClear) rfl tag () (fun _ => upliftClearReply) ready.1 ready.2.1
    have below := allBelowWarn_iff (heard p s)
    simp only [heard_enabled, heard_gauge, heard_settings] at below
    rw [upliftClearReply_eq (by rw [heard_stop]; exact ready.2.2), heard_stop] at run
    refine ⟨fun clear => ?_, fun stop notBelow => ?_, fun stop isBelow => ?_⟩
    · rw [clear] at run
      exact run
    · rw [stop] at run
      exact run.trans (congrArg (fun r => Host.Outcome.next (respond p _ tag r)) (if_neg (below.not.mpr notBelow)))
    · have taken := run.trans (congrArg (fun r => Host.Outcome.next (respond p _ tag r))
        ((if_neg (by rw [stop]; decide)).trans (if_pos (below.mpr isBelow))))
      refine ⟨_, taken, ?_, fun l => ?_⟩
      · rw [stop_freeLines, stop_updStop, heard_stop]
      · exact line_freeLines _ _ l

end

end Sys2Proof.Machine
end

section
/-! PROOFS. The alert queues: merging, appending, displacing, and the routes (R152 to R156). -/

namespace Sys2Proof.Machine

section
variable {s t u : State} {p : Port} {x : PortRecord} {a : Posting} {top time : Nat}

/-! ### The entries a posting finds (R155, R156) -/

theorem matchesPosting_iff (e : AlertEntry) (a : Posting) :
    e.matchesPosting a = true ↔ e.kind = a.kind ∧ e.line = a.line ∧ e.key = a.key := by
  simp [AlertEntry.matchesPosting, and_assoc]

theorem anyMatches_iff (q : List AlertEntry) (a : Posting) :
    q.any (fun e => e.matchesPosting a) = true ↔ ∃ e ∈ q, e.kind = a.kind ∧ e.line = a.line ∧ e.key = a.key := by
  simp only [List.any_eq_true, matchesPosting_iff]

theorem level_le (k : AlertKind) : k.level ≤ 7 := by
  cases k <;> decide

theorem foldl_min_le {n : Nat} (ns : List Nat) : ns.foldl min n ≤ n ∧ ∀ m ∈ ns, ns.foldl min n ≤ m := by
  induction ns generalizing n with
  | nil => simp
  | cons m ms ih =>
    have now := (ih (n := min n m)).1
    refine ⟨now.trans (Nat.min_le_left n m), fun k hk => ?_⟩
    rcases List.mem_cons.mp hk with rfl | later
    · exact now.trans (Nat.min_le_right n k)
    · exact ih.2 k later

theorem le_foldl_min {n b : Nat} (ns : List Nat) (hb : b ≤ n) (h : ∀ m ∈ ns, b ≤ m) : b ≤ ns.foldl min n := by
  induction ns generalizing n with
  | nil => exact hb
  | cons m ms ih =>
    exact ih (Nat.le_min.mpr ⟨hb, h m List.mem_cons_self⟩) fun k hk => h k (List.mem_cons_of_mem _ hk)

theorem lowestLevel_le {q : List AlertEntry} {e : AlertEntry} (h : e ∈ q) : lowestLevel q ≤ e.kind.level :=
  (foldl_min_le _).2 _ (List.mem_map_of_mem h)

theorem le_lowestLevel {q : List AlertEntry} {b : Nat} (hb : b ≤ 8) (h : ∀ e ∈ q, b ≤ e.kind.level) : b ≤ lowestLevel q :=
  le_foldl_min _ hb (by simpa using h)

/-! ### An alert offered to a port (R154 to R156) -/


theorem offer_merged (mask : x.unmasked a.kind = true) (h : x.queue.any (fun e => e.matchesPosting a) = true) :
    x.offer top time a =
      ({ x with queue := x.queue.map (fun e => if e.matchesPosting a then e.merge a time else e) }, false) :=
  (if_neg (by rw [mask]; decide)).trans (if_pos h)

theorem offer_appended (mask : x.unmasked a.kind = true) (new : ¬ x.queue.any (fun e => e.matchesPosting a) = true)
    (room : x.queue.length < 16) : x.offer top time a = ({ x with queue := x.queue ++ [a.entry time] }, false) :=
  (if_neg (by rw [mask]; decide)).trans ((if_neg new).trans (if_pos room))

theorem offer_full (mask : x.unmasked a.kind = true) (new : ¬ x.queue.any (fun e => e.matchesPosting a) = true)
    (full : ¬ x.queue.length < 16) :
    x.offer top time a = if 5 ≤ a.kind.level ∧ lowestLevel x.queue < a.kind.level then
      PortRecord.countSlip top { x with
        queue := x.queue.eraseP (fun e => e.kind.level == lowestLevel x.queue) ++ [a.entry time] }
      else x.countSlip top :=
  (if_neg (by rw [mask]; decide)).trans ((if_neg new).trans (if_neg full))

/-- The queue after an alert that displaces an entry, and after one that does not. -/
theorem offer_evicted (mask : x.unmasked a.kind = true) (new : ¬ x.queue.any (fun e => e.matchesPosting a) = true)
    (full : ¬ x.queue.length < 16) (above : 5 ≤ a.kind.level ∧ lowestLevel x.queue < a.kind.level) :
    (x.offer top time a).1.queue = x.queue.eraseP (fun e => e.kind.level == lowestLevel x.queue) ++ [a.entry time] := by
  rw [offer_full mask new full, if_pos above]
  rfl

theorem offer_slipped (mask : x.unmasked a.kind = true) (new : ¬ x.queue.any (fun e => e.matchesPosting a) = true)
    (full : ¬ x.queue.length < 16) (low : ¬ (5 ≤ a.kind.level ∧ lowestLevel x.queue < a.kind.level)) :
    (x.offer top time a).1.queue = x.queue := by
  rw [offer_full mask new full, if_neg low]
  rfl

theorem slip_offer_full (mask : x.unmasked a.kind = true) (new : ¬ x.queue.any (fun e => e.matchesPosting a) = true)
    (full : ¬ x.queue.length < 16) :
    (x.offer top time a).1.slipFlag = true ∧ (x.offer top time a).1.slip.count = satSucc top x.slip.count := by
  rw [offer_full mask new full]
  split <;> exact ⟨rfl, count_bump _ _⟩

/-- Settles O15: the alert merges into its entry, goes to the end of the queue, or displaces the oldest of the lowest. -/
theorem alertQueueMergesAppendsAndEvicts : Obligations.AlertQueueMergesAppendsAndEvicts := by
  intro top time a x mask
  dsimp only
  simp only [← anyMatches_iff]
  have fresh (h : ∀ e ∈ x.queue, ¬ (e.kind = a.kind ∧ e.line = a.line ∧ e.key = a.key)) :
      ¬ x.queue.any (fun e => e.matchesPosting a) = true :=
    fun found => by
      obtain ⟨e, present, same⟩ := (anyMatches_iff _ _).mp found
      exact h e present same
  refine ⟨fun found => ?_, fun none room => ?_, fun none full => ?_⟩
  · rw [offer_merged mask found]
    refine ⟨rfl, rfl, List.length_map _, fun i e at_i => ⟨fun other => ?_, fun same => ?_⟩⟩
    · have differs := (matchesPosting_iff e a).not.mpr other
      simp [List.getElem?_map, at_i, differs]
    · have matched := (matchesPosting_iff e a).mpr same
      simp [List.getElem?_map, at_i, matched, AlertEntry.merge, satSucc]
  · rw [offer_appended mask (fresh none) room]
    exact ⟨rfl, rfl, rfl⟩
  · have full : ¬ x.queue.length < 16 := Nat.not_lt.mpr full
    obtain ⟨flag, count⟩ := slip_offer_full (top := top) (time := time) mask (fresh none) full
    refine ⟨flag, count, fun low => ?_, fun high floor => ?_, fun high before e after split below least first => ?_⟩
    · exact offer_slipped mask (fresh none) full fun ⟨high, _⟩ => by omega
    · have lowest := le_lowestLevel ((level_le a.kind).trans (by decide)) floor
      exact offer_slipped mask (fresh none) full fun ⟨_, above⟩ => by omega
    · have present : e ∈ x.queue := by rw [split]; simp
      have lowest : lowestLevel x.queue = e.kind.level :=
        Nat.le_antisymm (lowestLevel_le present) (le_lowestLevel ((level_le e.kind).trans (by decide)) least)
      rw [offer_evicted mask (fresh none) full ⟨high, by omega⟩, lowest, split,
        List.eraseP_append_right _ (by simpa using first), List.eraseP_cons_of_pos (by simp)]
      rfl

/-! ### The ports an alert reaches (R153) -/

/-- An alert offered to each port of a route in turn. -/
theorem port_offerAll (a : Posting) (route : List Port) (once : route.Nodup) (acc : State × List Port) (q : Port) :
    (route.foldl (fun acc p =>
      let r := acc.1.offerPort a p
      (r.1, if r.2 then acc.2 ++ [p] else acc.2)) acc).1.port q =
    if q ∈ route then ((acc.1.port q).offer acc.1.counterTop acc.1.clock.site a).1 else acc.1.port q := by
  induction route generalizing acc with
  | nil => rfl
  | cons p route ih =>
    obtain ⟨absent, once⟩ := List.nodup_cons.mp once
    have offered : (acc.1.offerPort a p).1.port q =
        if q = p then ((acc.1.port p).offer acc.1.counterTop acc.1.clock.site a).1 else acc.1.port q :=
      port_setPort _ _ _ _
    rw [List.foldl_cons, ih once]
    dsimp only
    rw [offered]
    by_cases same : q = p
    · subst q
      simp [absent]
    · simp only [same, if_false, List.mem_cons, false_or]
      rfl

/-- No slip counter saturates where none of the ports says so. -/
theorem saturated_offerAll (a : Posting) (route : List Port) (once : route.Nodup) (acc : State × List Port)
    (quiet : ∀ p ∈ route, ((acc.1.port p).offer acc.1.counterTop acc.1.clock.site a).2 = false) :
    (route.foldl (fun acc p =>
      let r := acc.1.offerPort a p
      (r.1, if r.2 then acc.2 ++ [p] else acc.2)) acc).2 = acc.2 := by
  induction route generalizing acc with
  | nil => rfl
  | cons p route ih =>
    obtain ⟨absent, once⟩ := List.nodup_cons.mp once
    have first : (acc.1.offerPort a p).2 = false := quiet p List.mem_cons_self
    rw [List.foldl_cons, ih once]
    · dsimp only
      rw [first]
      rfl
    · intro q hq
      have other : (acc.1.offerPort a p).1.port q = acc.1.port q :=
        (port_setPort _ _ _ _).trans (if_neg fun same : q = p => absent (same ▸ hq))
      rw [other]
      exact quiet q (List.mem_cons_of_mem _ hq)

theorem port_post (a : Posting) (route : List Port) (s : State) (once : route.Nodup)
    (quiet : ∀ p ∈ route, ((s.port p).offer s.counterTop s.clock.site a).2 = false) (q : Port) :
    (post a route s).port q =
      if q ∈ route then ((s.port q).offer s.counterTop s.clock.site a).1 else s.port q := by
  have silent : (s.offerAll a route).2 = [] := saturated_offerAll a route once (s, []) quiet
  have offered : post a route s = (s.offerAll a route).1 := by
    rw [post, postFuel]
    rw [silent]
    rfl
  rw [offered]
  exact port_offerAll a route once (s, []) q

theorem portGrant_isSome (s : State) (p : Port) : (s.portGrant p).isSome = true ↔ ∃ l, (s.line l).owner = some p := by
  rw [State.portGrant, List.find?_isSome]
  exact exists_congr fun l => by simp [mem_lineIds]

theorem mem_grantedPorts (s : State) (p : Port) :
    p ∈ s.grantedPorts ↔ p.isConsole = false ∧ ∃ l, (s.line l).owner = some p := by
  rw [State.grantedPorts, List.mem_filter, portGrant_isSome]
  refine and_congr_left fun _ => ?_
  cases p <;> decide

/-- Settles O16: each port of the route is offered the alert once, where no slip counter saturates by it. -/
theorem alertsReachTheirRoutes : Obligations.AlertsReachTheirRoutes := by
  refine ⟨port_post, fun s l => rfl, fun s k p => ?_⟩
  have consoles : p ∈ consolePorts ↔ p = .c0 ∨ p = .c1 := by simp [consolePorts]
  rw [State.partRoute]
  by_cases high : 5 ≤ k.level
  · rw [if_pos high, List.mem_append, mem_grantedPorts, consoles, or_comm]
    simp [high, or_assoc]
  · rw [if_neg high, consoles]
    simp [high]

/-! ### What posting leaves of the slip counters (R156, R164) -/

/-- A slip counter that may have counted, up to the top. -/
def Slipped (top : Nat) (x y : PortRecord) : Prop :=
  x.slip.count ≤ y.slip.count ∧ y.slip.count ≤ max x.slip.count top

theorem Slipped.refl (top : Nat) (x : PortRecord) : Slipped top x x := ⟨le_rfl, le_max_left _ _⟩

theorem Slipped.trans {top : Nat} {x y z : PortRecord} (h : Slipped top x y) (h' : Slipped top y z) : Slipped top x z := by
  unfold Slipped at *
  omega

theorem offer_slips (top time : Nat) (a : Posting) (x : PortRecord) : Slipped top x (x.offer top time a).1 := by
  have counts : x.slip.count ≤ satSucc top x.slip.count ∧ satSucc top x.slip.count ≤ max x.slip.count top := by
    unfold satSucc
    split <;> omega
  by_cases mask : x.unmasked a.kind = true
  · by_cases found : x.queue.any (fun e => e.matchesPosting a) = true
    · rw [offer_merged mask found]; exact .refl _ _
    · by_cases room : x.queue.length < 16
      · rw [offer_appended mask found room]; exact .refl _ _
      · rw [Slipped, (slip_offer_full mask found room).2]
        exact counts
  · rw [offer_masked top time (by simpa using mask)]
    exact .refl _ _

/-- Nothing but the alert queues has changed, and the slip counters have only counted. -/
def posts (s t : State) : Prop := keeps [.queues] s t ∧ ∀ q, Slipped s.counterTop (s.port q) (t.port q)

theorem posts.refl (s : State) : posts s s := ⟨keeps_refl _ _, fun _ => .refl _ _⟩

theorem posts.counterTop (h : posts s t) : t.counterTop = s.counterTop :=
  congrArg (fun x : PartSettings => if x.wide then 1023 else 255) (h.1.2 .settings (by decide) :)

theorem posts.trans (h : posts s t) (h' : posts t u) : posts s u :=
  ⟨h'.1.after (by decide) h.1, fun q => (h.2 q).trans (h.counterTop ▸ h'.2 q)⟩

theorem posts_foldl {ι : Type} (f : State → ι → State) (h : ∀ s i, posts s (f s i)) (is : List ι) (s : State) :
    posts s (is.foldl f s) := by
  induction is generalizing s with
  | nil => exact .refl s
  | cons i is ih => exact (h s i).trans (ih _)

theorem offerPort_posts (a : Posting) (p : Port) (s : State) : posts s (s.offerPort a p).1 := by
  refine ⟨offerPort_keeps a p s, fun q => ?_⟩
  have offered : (s.offerPort a p).1.port q =
      if q = p then ((s.port p).offer s.counterTop s.clock.site a).1 else s.port q := port_setPort _ _ _ _
  rw [offered]
  split
  · subst q; exact offer_slips _ _ _ _
  · exact .refl _ _

theorem offerAll_posts (a : Posting) (route : List Port) (s : State) : posts s (s.offerAll a route).1 := by
  have go (ps : List Port) (acc : State × List Port) (h : posts s acc.1) :
      posts s (ps.foldl (fun acc p =>
        let r := acc.1.offerPort a p
        (r.1, if r.2 then acc.2 ++ [p] else acc.2)) acc).1 := by
    induction ps generalizing acc with
    | nil => exact h
    | cons p ps ih => exact ih _ (h.trans (offerPort_posts a p acc.1))
  exact go route _ (.refl s)

theorem post_posts (a : Posting) (route : List Port) (s : State) : posts s (post a route s) := by
  unfold post
  generalize 7 = fuel
  induction fuel generalizing a route s with
  | zero => exact .refl s
  | succ n ih => exact (offerAll_posts a route s).trans (posts_foldl _ (fun s p => ih _ _ s) _ _)

end

end Sys2Proof.Machine
end

section
/-! PROOFS. PART_CONFIG (R22, R79, R84, R137, R164, R174). -/

namespace Sys2Proof.Machine

section
variable {s t u v : State} {p : Port} {A : List Part} {b : Bool}

/-! ### Clamped counts (R22, R79, R164) -/

/-- A count where wide counting is turned off, or is not. -/
def clampedIf (b : Bool) (n : Nat) : Nat := if b then min 255 n else n

theorem count_narrow (c : Counter) : c.narrow.1.count = min 255 c.count := by
  unfold Counter.narrow
  split
  · exact (Nat.min_eq_left ‹_›).symm
  · exact (Nat.min_eq_right (Nat.le_of_not_le ‹_›)).symm

/-- A stage with the counts of its progress record clamped. -/
def Stage.clamped (b : Bool) (x : Stage) : Stage :=
  { x with progress := x.progress.map (fun r => { r with
      unmetered := clampedIf b r.unmetered, overpressure := clampedIf b r.overpressure,
      connection := clampedIf b r.connection }) }

theorem clamped_false (x : Stage) : x.clamped false = x := by
  have same : (fun r : Progress => { r with
      unmetered := clampedIf false r.unmetered, overpressure := clampedIf false r.overpressure,
      connection := clampedIf false r.connection }) = id := rfl
  rw [Stage.clamped, same, Option.map_id_fun, id]

theorem lookupStage_map (f : Stage → Stage) (hf : ∀ x, (f x).key = x.key) (k : StageKey) (xs : List Stage) :
    lookupStage k (xs.map f) = (lookupStage k xs).map f := by
  induction xs with
  | nil => rfl
  | cons x xs ih =>
    rw [List.map_cons, lookupStage_cons, lookupStage_cons, hf, ih]
    split <;> rfl

/-! `narrowCounters`, one part of the state after another. -/

def narrowLines (s : State) : State :=
  forLines (fun l => State.updLine l (fun x => { x with pressure := x.pressure.narrow, flow := x.flow.narrow })) s

def narrowGauges (s : State) : State :=
  gaugeIds.foldl (fun s g => s.updGauge g (fun x => { x with channel := x.channel.narrow })) s

def narrowPorts (s : State) : State := allPorts.foldl (fun s p => s.updPort p PortRecord.narrow) s

def narrowRest (s : State) : State :=
  (({ s with level := s.level.narrow } : State).updRecord (fun r =>
    { r with readerC0 := r.readerC0.narrow, readerC1 := r.readerC1.narrow })).setStages
      (s.store.stages.map (fun x => { x with progress := x.progress.map Progress.narrow }))

theorem narrowCounters_eq (s : State) : narrowCounters s = narrowRest (narrowPorts (narrowGauges (narrowLines s))) := rfl

theorem foldl_same {ι α : Type} {f : State → ι → State} {part : State → α} (h : ∀ s i, part (f s i) = part s)
    (is : List ι) (s : State) : part (is.foldl f s) = part s := by
  induction is generalizing s with
  | nil => rfl
  | cons i is ih => exact (ih _).trans (h s i)

/-- What the lines' clamping leaves alone, the gauges' and the ports'. -/
theorem narrowLines_same {α : Type} (part : State → α) (h : ∀ s l f, part (s.updLine l f) = part s) (s : State) :
    part (narrowLines s) = part s := foldl_same (fun s l => h s l _) _ s

theorem narrowGauges_same {α : Type} (part : State → α) (h : ∀ s g f, part (s.updGauge g f) = part s) (s : State) :
    part (narrowGauges s) = part s := foldl_same (fun s g => h s g _) _ s

theorem narrowPorts_same {α : Type} (part : State → α) (h : ∀ s p f, part (s.updPort p f) = part s) (s : State) :
    part (narrowPorts s) = part s := foldl_same (fun s p => h s p _) _ s

theorem line_narrowLines (s : State) (l : LineId) :
    (narrowLines s).line l =
      { s.line l with pressure := (s.line l).pressure.narrow, flow := (s.line l).flow.narrow } :=
  line_forLines (P := fun _ => True)
    (g := fun _ x => { x with pressure := x.pressure.narrow, flow := x.flow.narrow }) (fun _ _ _ => trivial)
    (fun _ _ _ _ => line_updLine _ _ _ _) trivial l

theorem gauge_narrowGauges (s : State) (g : GaugeId) :
    (narrowGauges s).gauge g = { s.gauge g with channel := (s.gauge g).channel.narrow } :=
  gauge_each (P := fun _ => True) (h := fun _ x => { x with channel := x.channel.narrow }) (fun _ _ _ => trivial)
    (fun _ _ _ _ => gauge_updGauge _ _ _ _) trivial g

theorem port_narrowPorts (s : State) (q : Port) : (narrowPorts s).port q = (s.port q).narrow :=
  port_each (P := fun _ => True) (h := fun _ => PortRecord.narrow) (fun _ _ _ => trivial)
    (fun _ _ _ _ => port_setPort _ _ _ _) trivial q

/-! ### Wide counting turned off (R79, R80, R164) -/

/-- The counts of a part clamped, or not, and the rest as it was but for alerts posted. -/
structure Clamped (b : Bool) (s t : State) : Prop where
  settings : t.settings = s.settings
  writes : t.store.writes = s.store.writes
  copy : t.store.nv = s.store.nv
  line : ∀ l, (t.line l).pressure.counter.count = clampedIf b (s.line l).pressure.counter.count ∧
    (t.line l).flow.counter.count = clampedIf b (s.line l).flow.counter.count
  gauge : ∀ g, (t.gauge g).baseline = (s.gauge g).baseline ∧
    (t.gauge g).channel.validity = (s.gauge g).channel.validity ∧
    (t.gauge g).channel.counter.count = clampedIf b (s.gauge g).channel.counter.count
  level : t.level.counter.count = clampedIf b s.level.counter.count
  port : ∀ q, (t.port q).crc.count = clampedIf b (s.port q).crc.count ∧
    (t.port q).framing.count = clampedIf b (s.port q).framing.count ∧
    (t.port q).overrun.count = clampedIf b (s.port q).overrun.count ∧
    clampedIf b (s.port q).slip.count ≤ (t.port q).slip.count ∧
    (t.port q).slip.count ≤ max (clampedIf b (s.port q).slip.count) s.counterTop
  reader0 : t.record.readerC0.slips.count = clampedIf b s.record.readerC0.slips.count
  reader1 : t.record.readerC1.slips.count = clampedIf b s.record.readerC1.slips.count
  stage : ∀ k, t.stage? k = (s.stage? k).map (Stage.clamped b)

theorem Clamped.refl (s : State) : Clamped false s s where
  settings := rfl
  writes := rfl
  copy := rfl
  line := fun _ => ⟨rfl, rfl⟩
  gauge := fun _ => ⟨rfl, rfl, rfl⟩
  level := rfl
  port := fun _ => ⟨rfl, rfl, rfl, le_rfl, le_max_left _ _⟩
  reader0 := rfl
  reader1 := rfl
  stage := fun k => by
    have same : Stage.clamped false = id := funext clamped_false
    rw [same, Option.map_id_fun, id]

/-- A part of the state that none of the lines, the gauges and the ports holds. -/
theorem narrow_same {α : Type} (part : State → α) (hl : ∀ s l f, part (State.updLine l f s) = part s)
    (hg : ∀ s g f, part (State.updGauge g f s) = part s) (hp : ∀ s p f, part (State.updPort p f s) = part s) (s : State) :
    part (narrowPorts (narrowGauges (narrowLines s))) = part s :=
  (narrowPorts_same part hp _).trans ((narrowGauges_same part hg _).trans (narrowLines_same part hl s))

theorem line_narrowRest (l : LineId) : (narrowRest s).line l = s.line l := rfl

theorem gauge_narrowRest (g : GaugeId) : (narrowRest s).gauge g = s.gauge g := rfl

theorem port_narrowRest (q : Port) : (narrowRest s).port q = s.port q := rfl

theorem narrowRest_parts :
    (narrowRest s).settings = s.settings ∧ (narrowRest s).store.writes = s.store.writes ∧
    (narrowRest s).store.nv = s.store.nv ∧ (narrowRest s).level = s.level.narrow ∧
    (narrowRest s).record = { s.record with
      readerC0 := s.record.readerC0.narrow, readerC1 := s.record.readerC1.narrow } ∧
    (narrowRest s).store.stages = s.store.stages.map (Stage.clamped true) :=
  ⟨rfl, rfl, rfl, rfl, rfl, rfl⟩

theorem line_narrowCounters (s : State) (l : LineId) :
    (narrowCounters s).line l =
      { s.line l with pressure := (s.line l).pressure.narrow, flow := (s.line l).flow.narrow } := by
  rw [narrowCounters_eq, line_narrowRest, narrowPorts_same (fun u => u.line l) (fun _ _ _ => rfl),
    narrowGauges_same (fun u => u.line l) (fun _ _ _ => rfl), line_narrowLines]

theorem gauge_narrowCounters (s : State) (g : GaugeId) :
    (narrowCounters s).gauge g = { s.gauge g with channel := (s.gauge g).channel.narrow } := by
  rw [narrowCounters_eq, gauge_narrowRest, narrowPorts_same (fun u => u.gauge g) (fun _ _ _ => rfl),
    gauge_narrowGauges, narrowLines_same (fun u => u.gauge g) (fun _ _ _ => rfl)]

theorem port_narrowCounters (s : State) (q : Port) : (narrowCounters s).port q = (s.port q).narrow := by
  rw [narrowCounters_eq, port_narrowRest, port_narrowPorts, narrowGauges_same (fun u => u.port q) (fun _ _ _ => rfl),
    narrowLines_same (fun u => u.port q) (fun _ _ _ => rfl)]

theorem narrowCounters_clamped (s : State) : Clamped true s (narrowCounters s) := by
  have rest {α : Type} (part : State → α) (hl : ∀ s l f, part (State.updLine l f s) = part s)
      (hg : ∀ s g f, part (State.updGauge g f s) = part s) (hp : ∀ s p f, part (State.updPort p f s) = part s) :=
    narrow_same part hl hg hp s
  have partSettings := rest State.settings (fun _ _ _ => rfl) (fun _ _ _ => rfl) (fun _ _ _ => rfl)
  have store := rest State.store (fun _ _ _ => rfl) (fun _ _ _ => rfl) (fun _ _ _ => rfl)
  have channel := rest State.level (fun _ _ _ => rfl) (fun _ _ _ => rfl) (fun _ _ _ => rfl)
  have records := rest State.record (fun _ _ _ => rfl) (fun _ _ _ => rfl) (fun _ _ _ => rfl)
  obtain ⟨settings, writes, copy, level, record, stages⟩ :=
    narrowRest_parts (s := narrowPorts (narrowGauges (narrowLines s)))
  rw [← narrowCounters_eq] at settings writes copy level record stages
  rw [partSettings] at settings
  rw [store] at writes copy stages
  rw [channel] at level
  rw [records] at record
  refine ⟨settings, writes, copy, fun l => ?_, fun g => ?_, ?_, fun q => ?_, ?_, ?_, fun k => ?_⟩
  · rw [line_narrowCounters]
    exact ⟨count_narrow _, count_narrow _⟩
  · rw [gauge_narrowCounters]
    exact ⟨rfl, rfl, count_narrow _⟩
  · rw [level]
    exact count_narrow _
  · rw [port_narrowCounters]
    exact ⟨count_narrow _, count_narrow _, count_narrow _, (count_narrow _).ge,
      (count_narrow (s.port q).slip).le.trans (le_max_left _ _)⟩
  · rw [record]
    exact count_narrow _
  · rw [record]
    exact count_narrow _
  · rw [State.stage?, stages, lookupStage_map (Stage.clamped true) (fun _ => rfl)]
    rfl

end


section
variable {s t u v : State} {p : Port} {A : List Part} {b : Bool}

theorem Clamped.posts (h : Clamped b s t) (h' : posts t u) : Clamped b s u := by
  have top : t.counterTop = s.counterTop :=
    congrArg (fun x : PartSettings => if x.wide then 1023 else 255) h.settings
  obtain ⟨kept, slips⟩ := h'
  obtain ⟨-, -, reader0, reader1⟩ := kept.2 .recordQueue (by decide)
  refine ⟨(kept.2 .settings (by decide) : _ = _).trans h.settings, (kept.2 .writes (by decide) : _ = _).trans h.writes,
    (kept.2 .nvCopy (by decide) : _ = _).trans h.copy, fun l => ?_, fun g => ?_, ?_, fun q => ?_, ?_, ?_, fun k => ?_⟩
  · rw [kept.line (by decide) (by decide) (by decide) l]
    exact h.line l
  · rw [kept.gauge (by decide) g]
    exact h.gauge g
  · rw [(kept.2 .level (by decide) : u.level = t.level)]
    exact h.level
  · have counts : (u.port q).counterPart = (t.port q).counterPart := kept.portCounts (by decide) q
    obtain ⟨crc, framing, overrun, least, most⟩ := h.port q
    obtain ⟨up, bound⟩ := slips q
    rw [top] at bound
    have slip : (u.port q).slip.count ≤ max (clampedIf b (s.port q).slip.count) s.counterTop := by omega
    exact ⟨(congrArg (fun x => x.crc.count) counts :).trans crc,
      (congrArg (fun x => x.framing.count) counts :).trans framing,
      (congrArg (fun x => x.overrun.count) counts :).trans overrun, least.trans up, slip⟩
  · rw [reader0]
    exact h.reader0
  · rw [reader1]
    exact h.reader1
  · exact (kept.stage (by decide) k).trans (h.stage k)

theorem postLine_posts (l : LineId) (k : AlertKind) (d : Option Int) (s : State) : posts s (postLine l k d s) :=
  post_posts _ _ s

theorem postPart_posts (k : AlertKind) (d : Option Int) (s : State) : posts s (postPart k d s) := post_posts _ _ s

theorem postSaturated_posts (y : Bool) (d : Int) (s : State) : posts s (postSaturated y d s) := by
  unfold postSaturated
  split
  · exact post_posts _ _ s
  · exact .refl s

theorem postLineSaturated_posts (k : LineChannel) (c : Channel) (l : LineId) (s : State) :
    posts s (postLineSaturated k c l s) := by
  unfold postLineSaturated
  split
  · exact postLine_posts _ _ _ s
  · exact .refl s

theorem turnWideOff_posts (s : State) : posts (narrowCounters s) (turnWideOff s) := by
  have lines (u : State) : posts u (forLines (fun l v =>
      postLineSaturated .flow (s.line l).flow l (postLineSaturated .pressure (s.line l).pressure l v)) u) :=
    posts_foldl _ (fun v l => (postLineSaturated_posts _ _ _ v).trans (postLineSaturated_posts _ _ _ _)) _ u
  exact (lines (narrowCounters s)).trans (posts_foldl _ (fun v d => postSaturated_posts _ _ v) _ _)

theorem turnWideOff_clamped (s : State) : Clamped true s (turnWideOff s) :=
  (narrowCounters_clamped s).posts (turnWideOff_posts s)

/-! ### The gauge enables (R84, R137) -/

/-- A gauge as its enable goes from one value to another. -/
def Gauge.switched (was now : Bool) (x : Gauge) : Gauge :=
  match was, now with
  | false, true => x.enable
  | true, false => x.disable
  | false, false | true, true => x

theorem gauge_changeGauge (before : Vector Bool 4) (s : State) (g m : GaugeId) :
    (changeGauge before s g).gauge m =
      if m = g then Gauge.switched (before.get g) (s.enabled g) (s.gauge g) else s.gauge m := by
  unfold changeGauge Gauge.switched
  cases before.get g <;> cases s.enabled g <;> simp only [gauge_updGauge] <;> split <;> simp_all

theorem changeGauge_keeps (before : Vector Bool 4) (s : State) (g : GaugeId) : keeps [.gauges] s (changeGauge before s g) := by
  unfold changeGauge
  split
  · exact updGauge_keeps _ _ _
  · exact updGauge_keeps _ _ _
  · exact keeps_refl _ _
  · exact keeps_refl _ _

theorem gauge_changeGauges (before : Vector Bool 4) (s : State) (m : GaugeId) :
    (changeGauges before s).gauge m = Gauge.switched (before.get m) (s.enabled m) (s.gauge m) := by
  have each : (gaugeIds.foldl (changeGauge before) s).gauge m =
      Gauge.switched (before.get m) (s.enabled m) (s.gauge m) :=
    gauge_each (P := fun u => ∀ g, u.enabled g = s.enabled g)
      (h := fun g => Gauge.switched (before.get g) (s.enabled g))
      (fun g u hu k => ((changeGauge_keeps before u g).enabled (by decide) k).trans (hu k))
      (fun g m u hu => by rw [gauge_changeGauge, hu]) (fun _ => rfl) m
  unfold changeGauges
  dsimp only
  split
  · exact each
  · exact ((formWarn_keeps _).gauge (by decide) m).trans each

theorem postPart_slips {q : Port} (hp : t.port q = s.port q) (hc : t.counterTop = s.counterTop) (k : AlertKind)
    (d : Option Int) : Slipped s.counterTop (s.port q) ((postPart k d t).port q) := by
  rw [← hp, ← hc]
  exact (postPart_posts k d t).2 q

theorem counterTop_updStop (f : StopUnit → StopUnit) (s : State) : (s.updStop f).counterTop = s.counterTop := rfl

theorem formWarn_slips (s : State) (q : Port) : Slipped s.counterTop (s.port q) ((formWarn s).port q) := by
  unfold formWarn
  dsimp only
  split
  · exact postPart_slips (port_updStop s _ q) (counterTop_updStop _ s) _ _
  · rw [port_updStop]
    exact .refl _ _

theorem changeGauges_slips (before : Vector Bool 4) (s : State) (q : Port) :
    Slipped s.counterTop (s.port q) ((changeGauges before s).port q) := by
  have ports : (gaugeIds.foldl (changeGauge before) s).port q = s.port q :=
    foldl_same (part := fun u => u.port q) (fun u g => by unfold changeGauge; split <;> rfl) _ s
  have settings : (gaugeIds.foldl (changeGauge before) s).settings = s.settings :=
    foldl_same (part := State.settings) (fun u g => by unfold changeGauge; split <;> rfl) _ s
  have top : (gaugeIds.foldl (changeGauge before) s).counterTop = s.counterTop :=
    congrArg (fun x : PartSettings => if x.wide then 1023 else 255) settings
  unfold changeGauges
  dsimp only
  split
  · rw [ports]; exact .refl _ _
  · have slips := formWarn_slips (gaugeIds.foldl (changeGauge before) s) q
    rwa [ports, top] at slips

/-! ### New part settings in force (R174) -/

/-- The settings written, with nothing done about them yet. -/
def settingsWritten (c : PartSettings) (s : State) : State := writeThrough (.part c) { s with settings := c }

theorem settingsWritten_settings (c : PartSettings) (s : State) : (settingsWritten c s).settings = c :=
  (writeThrough_keeps (.part c) { s with settings := c }).2 .settings (by decide)

theorem settingsWritten_keeps (c : PartSettings) (s : State) : keeps [.settings, .writes] s (settingsWritten c s) :=
  (writeThrough_keeps _ _).after (by decide) ((setSettings_keeps c s).mono (by decide))

theorem port_writeThrough (w : StoreWrite) (s : State) (q : Port) : (writeThrough w s).port q = s.port q := by
  unfold writeThrough
  split <;> rfl

/-- The settings written and the counts clamped where wide counting ends. -/
def settingsClamped (c : PartSettings) (s : State) : State :=
  if s.settings.wide && !c.wide then turnWideOff (settingsWritten c s) else settingsWritten c s

theorem takeSettings_eq (c : PartSettings) (s : State) :
    takeSettings c s = changeGauges s.settings.gauges (settingsClamped c s) := rfl

theorem settingsClamped_clamped (c : PartSettings) (s : State) :
    Clamped (s.settings.wide && !c.wide) (settingsWritten c s) (settingsClamped c s) := by
  unfold settingsClamped
  cases s.settings.wide && !c.wide
  · exact .refl _
  · exact turnWideOff_clamped _

end


section
variable {s t u v : State} {p : Port} {b : Bool}

/-- The values of a PART_CONFIG lie in their ranges (R174). -/
def partInRange (a : PartConfigArgs) : Prop :=
  2 ≤ a.travelTime ∧ a.travelTime ≤ 30 ∧ 10 ≤ a.acceptWindow ∧ a.acceptWindow ≤ 300 ∧ 1 ≤ a.keepalive ∧
  a.keepalive ≤ 10 ∧ 5 ≤ a.holdLimit ∧ a.holdLimit ≤ 60 ∧ 5 ≤ a.recordInterval ∧ a.recordInterval ≤ 60 ∧
  30 ≤ a.ageLimit ∧ a.ageLimit ≤ 240 ∧ a.residueLimit ≤ 500 ∧ 10 ≤ a.levelTolerance ∧ a.levelTolerance ≤ 500 ∧
  200 ≤ a.tankCapacity ∧ a.tankCapacity ≤ 5000 ∧ 50 ≤ a.derate ∧ a.derate ≤ 95 ∧ 3 ≤ a.lossCount ∧
  a.lossCount ≤ 4 ∧ 10 ≤ a.warnThreshold ∧ a.warnThreshold ≤ 1000 ∧ a.warnThreshold < a.stopThreshold ∧
  a.stopThreshold ≤ 2000 ∧ 1 ≤ a.hysteresis ∧ a.hysteresis ≤ 100 ∧ a.hysteresis < a.warnThreshold ∧ a.wide ≤ 1 ∧
  a.gauges < 16

/-- The settings a PART_CONFIG carries. -/
def partSettings (a : PartConfigArgs) : PartSettings :=
  ⟨a.travelTime, a.acceptWindow, a.keepalive, a.holdLimit, a.recordInterval, a.ageLimit, a.residueLimit,
   a.levelTolerance, a.tankCapacity, a.derate, a.lossCount, a.warnThreshold, a.stopThreshold, a.hysteresis,
   a.wide == 1, #v[a.gauges.testBit 0, a.gauges.testBit 1, a.gauges.testBit 2, a.gauges.testBit 3]⟩

theorem partConfigOk_iff (a : PartConfigArgs) : PartConfigArgs.ok a = true ↔ partInRange a := by
  simp [PartConfigArgs.ok, partInRange, within, isFlag, and_assoc, Nat.succ_le_iff]

theorem part_of_inRange {a : PartConfigArgs} (h : partInRange a) : PartConfigArgs.settings? a = some (partSettings a) :=
  if_pos ((partConfigOk_iff a).mpr h)

theorem part_of_bad {a : PartConfigArgs} (h : ¬ partInRange a) : PartConfigArgs.settings? a = none :=
  if_neg ((partConfigOk_iff a).not.mpr h)

theorem anyLive_iff (s : State) :
    s.anyLive = true ↔ ∃ l, (s.line l).state ∈ [LineState.opening, .armed, .injecting, .holding] := by
  rw [State.anyLive, State.anyLine, List.any_eq_true]
  refine exists_congr fun l => (and_iff_right (mem_lineIds l)).trans ?_
  cases (s.line l).state <;> simp [LineState.live]

theorem partConfigReply_bad {a : PartConfigArgs} (free : s.stop.lockdown = false) (bad : ¬ partInRange a) :
    partConfigReply a s = refuse .badArgument s := by
  rw [partConfigReply, unlessLocked_free _ free, part_of_bad bad]

theorem partConfigReply_eq {a : PartConfigArgs} (free : s.stop.lockdown = false) (ok : partInRange a) :
    partConfigReply a s = if s.anyLive then refuse .busy s else accept .header (takeSettings (partSettings a) s) := by
  rw [partConfigReply, unlessLocked_free _ free, part_of_inRange ok]

/-- A count narrowed by a PART_CONFIG, as the obligation writes it. -/
theorem clampedIf_wide {a : PartConfigArgs} (flag : a.wide ≤ 1) (n : Nat) :
    clampedIf (s.settings.wide && !(partSettings a).wide) n =
      if s.settings.wide = true ∧ a.wide = 0 then min 255 n else n := by
  have off : (!(partSettings a).wide) = decide (a.wide = 0) := by
    have cases : a.wide = 0 ∨ a.wide = 1 := by omega
    rcases cases with h | h <;> simp [partSettings, h]
  rw [clampedIf, off]
  cases s.settings.wide <;> simp

theorem level_changeGauges (before : Vector Bool 4) (s : State) : (changeGauges before s).level = s.level :=
  (changeGauges_keeps before s).2 .level (by decide)

/-- A gauge whose enable is as it was. -/
theorem switched_same (b : Bool) (x : Gauge) : Gauge.switched b b x = x := by cases b <;> rfl

theorem channel_switched (was now : Bool) (x : Gauge) :
    (Gauge.switched was now x).channel.counter = x.channel.counter := by
  cases was <;> cases now <;> rfl

/-- What a part is left with by new settings, a gauge at a time: the counts clamped, then the enable changed. -/
theorem gauge_takeSettings (c : PartSettings) (s : State) (g : GaugeId) :
    (takeSettings c s).gauge g =
      Gauge.switched (s.enabled g) ((takeSettings c s).enabled g) ((settingsClamped c s).gauge g) := by
  rw [takeSettings_eq, gauge_changeGauges, (changeGauges_keeps _ _).enabled (by decide) g]
  rfl

theorem wide_of_inRange {a : PartConfigArgs} (h : partInRange a) : a.wide ≤ 1 := by
  unfold partInRange at h
  omega

/-- New settings taken, but for the gauges' enables. -/
structure Taken (b : Bool) (c : PartSettings) (s : State) : Prop where
  settings : (takeSettings c s).settings = c
  writes : (takeSettings c s).store.writes = begun s (.part c)
  copy : (takeSettings c s).store.nv = s.store.nv
  gauge : ∀ g, ((settingsClamped c s).gauge g).baseline = (s.gauge g).baseline ∧
    ((settingsClamped c s).gauge g).channel.validity = (s.gauge g).channel.validity ∧
    ((settingsClamped c s).gauge g).channel.counter.count = clampedIf b (s.gauge g).channel.counter.count
  line : ∀ l,
    ((takeSettings c s).line l).pressure.counter.count = clampedIf b (s.line l).pressure.counter.count ∧
    ((takeSettings c s).line l).flow.counter.count = clampedIf b (s.line l).flow.counter.count
  level : (takeSettings c s).level.counter.count = clampedIf b s.level.counter.count
  port : ∀ q, ((takeSettings c s).port q).crc.count = clampedIf b (s.port q).crc.count ∧
    ((takeSettings c s).port q).framing.count = clampedIf b (s.port q).framing.count ∧
    ((takeSettings c s).port q).overrun.count = clampedIf b (s.port q).overrun.count ∧
    clampedIf b (s.port q).slip.count ≤ ((takeSettings c s).port q).slip.count ∧
    ((takeSettings c s).port q).slip.count ≤ max (clampedIf b (s.port q).slip.count) (takeSettings c s).counterTop
  reader0 : (takeSettings c s).record.readerC0.slips.count = clampedIf b s.record.readerC0.slips.count
  reader1 : (takeSettings c s).record.readerC1.slips.count = clampedIf b s.record.readerC1.slips.count
  stage : ∀ k, (takeSettings c s).stage? k = (s.stage? k).map (Stage.clamped b)

theorem takeSettings_taken (c : PartSettings) (s : State) : Taken (s.settings.wide && !c.wide) c s := by
  have clamped := settingsClamped_clamped c s
  have enables := changeGauges_keeps s.settings.gauges (settingsClamped c s)
  have written := settingsWritten_keeps c s
  have begins : (settingsWritten c s).store.writes = begun s (.part c) := writes_writeThrough (.part c) { s with settings := c }
  have settings : (takeSettings c s).settings = c :=
    (enables.2 .settings (by decide) :).trans (clamped.settings.trans (settingsWritten_settings c s))
  have top : (takeSettings c s).counterTop = (settingsWritten c s).counterTop :=
    congrArg (fun x : PartSettings => if x.wide then 1023 else 255)
      (settings.trans (settingsWritten_settings c s).symm)
  obtain ⟨-, -, reader0, reader1⟩ := enables.2 .recordQueue (by decide)
  obtain ⟨-, -, before0, before1⟩ := written.2 .recordQueue (by decide)
  refine ⟨settings, ?_, ?_, fun g => ?_, fun l => ?_, ?_, fun q => ?_, ?_, ?_, fun k => ?_⟩
  · exact (enables.2 .writes (by decide) :).trans (clamped.writes.trans begins)
  · exact (enables.2 .nvCopy (by decide) :).trans (clamped.copy.trans (written.2 .nvCopy (by decide)))
  · rw [← written.gauge (by decide) g]
    exact clamped.gauge g
  · rw [takeSettings_eq, enables.line (by decide) (by decide) (by decide) l,
      ← written.line (by decide) (by decide) (by decide) l]
    exact clamped.line l
  · rw [takeSettings_eq, level_changeGauges, clamped.level, (written.2 .level (by decide) : _ = s.level)]
  · obtain ⟨crc, framing, overrun, least, most⟩ := clamped.port q
    have before : (settingsWritten c s).port q = s.port q := port_writeThrough _ _ q
    have counts : ((takeSettings c s).port q).counterPart = ((settingsClamped c s).port q).counterPart :=
      enables.portCounts (by decide) q
    obtain ⟨up, bound⟩ := changeGauges_slips s.settings.gauges (settingsClamped c s) q
    have topClamped : (settingsClamped c s).counterTop = (settingsWritten c s).counterTop :=
      congrArg (fun x : PartSettings => if x.wide then 1023 else 255) clamped.settings
    rw [← takeSettings_eq] at up bound
    rw [before] at crc framing overrun least most
    rw [topClamped] at bound
    rw [top]
    exact ⟨(congrArg (fun x => x.crc.count) counts :).trans crc,
      (congrArg (fun x => x.framing.count) counts :).trans framing,
      (congrArg (fun x => x.overrun.count) counts :).trans overrun, least.trans up, by omega⟩
  · rw [takeSettings_eq, reader0, clamped.reader0, before0]
  · rw [takeSettings_eq, reader1, clamped.reader1, before1]
  · rw [takeSettings_eq, enables.stage (by decide) k, clamped.stage, written.stage (by decide) k]

/-- Settles O29: the settings are replaced and written, the counts clamped where wide counting ends, and the gauges
whose enable has changed put into service or taken out of it. -/
theorem partConfigReplacesEverySetting : Obligations.PartConfigReplacesEverySetting := by
  intro s p tag a ready
  have free : (heard p s).stop.lockdown = false := by rw [heard_stop]; exact ready.2.2
  refine ⟨fun bad => ?_, fun ok busy => ?_, fun ok idle => ?_⟩
  · exact request_refused (k := .partConfig) rfl tag a partConfigReply ready (partConfigReply_bad free bad)
  · have live : (heard p s).anyLive = true := by rw [heard_anyLive]; exact (anyLive_iff s).mpr busy
    exact request_refused (k := .partConfig) rfl tag a partConfigReply ready
      ((partConfigReply_eq free ok).trans (if_pos live))
  · have quiet : ¬ (heard p s).anyLive = true := by rw [heard_anyLive]; exact (anyLive_iff s).not.mpr idle
    have run := request_console (k := .partConfig) rfl tag a partConfigReply ready.1 ready.2.1
    rw [partConfigReply_eq free ok, if_neg quiet] at run
    have narrowed := clampedIf_wide (s := s) (wide_of_inRange ok)
    have taken := takeSettings_taken (partSettings a) (heard p s)
    rw [heard_settings] at taken
    refine ⟨_, run, taken.settings, ?_, ?_, fun g same => ?_, fun g off on => ?_, fun g on off => ?_, fun l => ?_,
      fun g => ?_, ?_, fun q => ?_, ?_, ?_, fun k => ?_⟩
    · rw [taken.writes, begun_heard]
      rfl
    · rw [taken.copy, heard_store]
    · obtain ⟨baseline, validity, -⟩ := taken.gauge g
      rw [gauge_takeSettings, heard_enabled, ← same, switched_same, baseline, validity, heard_gauge]
      exact ⟨rfl, rfl⟩
    · rw [gauge_takeSettings, heard_enabled, off, on]
      exact ⟨rfl, rfl, rfl, rfl⟩
    · obtain ⟨baseline, -⟩ := taken.gauge g
      rw [gauge_takeSettings, heard_enabled, off, on]
      exact ⟨baseline.trans (congrArg Gauge.baseline (heard_gauge p s g)), rfl, rfl⟩
    · obtain ⟨pressure, flow⟩ := taken.line l
      rw [pressure, flow, narrowed, narrowed, heard_line_part p s Line.pressure l (fun _ _ => rfl),
        heard_line_part p s Line.flow l (fun _ _ => rfl)]
      exact ⟨rfl, rfl⟩
    · obtain ⟨-, -, count⟩ := taken.gauge g
      rw [gauge_takeSettings, channel_switched, count, narrowed, heard_gauge]
    · rw [taken.level, narrowed, heard_level]
    · obtain ⟨crc, framing, overrun, least, most⟩ := taken.port q
      have same (f : PortRecord → Counter) (hf : ∀ x, f { x with receiver := .answering } = f x) :=
        heard_port_part (p := p) (s := s) f hf q
      rw [narrowed, same PortRecord.crc (fun _ => rfl)] at crc
      rw [narrowed, same PortRecord.framing (fun _ => rfl)] at framing
      rw [narrowed, same PortRecord.overrun (fun _ => rfl)] at overrun
      rw [narrowed, same PortRecord.slip (fun _ => rfl)] at least most
      exact ⟨crc, framing, overrun, least, most⟩
    · rw [taken.reader0, narrowed, heard_record]
    · rw [taken.reader1, narrowed, heard_record]
    · rw [taken.stage, heard_stage?]
      refine congrArg (fun f => (s.stage? k).map f) (funext fun x => ?_)
      simp only [Stage.clamped, narrowed]

end

end Sys2Proof.Machine
end

section
/-! PROOFS. The record queue and the counters: READER_ENABLE, the record interval, CLEAR_COUNTERS and CLEAR_LATCHES (R158, R159, R163, R164). -/

namespace Sys2Proof.Machine

section
variable {s t u v : State} {p : Port} {l : LineId} {A : List Part}

/-! ### READER_ENABLE (R159) -/

theorem readerEnableReply_bad {a : ReaderArgs} (free : s.stop.lockdown = false) (bad : 1 < a.reader ∨ 1 < a.enable) :
    readerEnableReply a s = refuse .badArgument s := by
  have flags : ¬ (isFlag a.reader && isFlag a.enable) = true := by
    simp only [isFlag, Bool.and_eq_true, decide_eq_true_eq]
    omega
  rw [readerEnableReply, unlessLocked_free _ free, if_neg flags]

/-- The part with a reader enabled or disabled, before the write. -/
def readerSwitched (a : ReaderArgs) (s : State) : State := s.updRecord (Records.switchReader a.reader (a.enable == 1))

theorem readerEnableReply_taken {a : ReaderArgs} (free : s.stop.lockdown = false) (reader : a.reader ≤ 1) (enable : a.enable ≤ 1) :
    readerEnableReply a s =
      accept (.readers (readerSwitched a s).record.readerC0.enabled (readerSwitched a s).record.readerC1.enabled)
        (writeThrough (.readers (readerSwitched a s).record.readerC0.enabled
          (readerSwitched a s).record.readerC1.enabled) (readerSwitched a s)) := by
  have flags : (isFlag a.reader && isFlag a.enable) = true := by simp [isFlag, reader, enable]
  rw [readerEnableReply, unlessLocked_free _ free, if_pos flags]
  rfl

theorem switch_eq (n : Nat) (x : Reader) :
    Reader.switch (n == 1) x = if n = 1 ∧ x.enabled = true then x else { x with enabled := n == 1, unread := 0 } := by
  unfold Reader.switch
  by_cases on : n = 1 <;> simp [on]

/-! ### The record interval (R158, R159) -/

/-- The record timer of a line is due (R158). -/
def recordIsDue (s : State) (x : Line) : Prop :=
  x.state ∈ [LineState.armed, .injecting, .holding] ∧ ∃ n, x.recordTimer = some n ∧ s.settings.recordInterval ≤ n

theorem recordDue_iff (s : State) (x : Line) : x.recordDue s.settings.recordInterval = true ↔ recordIsDue s x := by
  have evaluated : x.state.evaluated = true ↔ x.state ∈ [LineState.armed, .injecting, .holding] := by
    cases x.state <;> simp [LineState.evaluated]
  unfold Line.recordDue recordIsDue
  rw [Bool.and_eq_true, evaluated]
  cases x.recordTimer <;> simp

theorem exec_recordInterval (due : recordIsDue s (s.line l)) {k : StageKey} (bound : (s.line l).stage = some k) :
    exec (.recordInterval l) s = .next (writeRecord l k s) := by
  refine congrArg Host.Outcome.next ((if_pos ((recordDue_iff _ _).mpr due)).trans ?_)
  unfold withBound
  rw [bound]

theorem exec_recordInterval_early (early : ¬ recordIsDue s (s.line l)) : exec (.recordInterval l) s = .next s :=
  congrArg Host.Outcome.next (if_neg ((recordDue_iff _ _).not.mpr early))

theorem postSlip_posts (p : Port) (lost : Nat) (d : Int) (r : Reader × Bool × Bool) (s : State) :
    posts s (postSlip p lost d r s) := by
  unfold postSlip
  split
  · exact (post_posts _ _ s).trans (postSaturated_posts _ _ _)
  · exact .refl s

/-- The records once one has been appended and no slip posted yet. -/
def Records.appended (top : Nat) (e : InjectionRecord) (r : Records) : Records :=
  if r.readerC0.enabled || r.readerC1.enabled then
    { r with
      nextRecord := nextNumber r.nextRecord
      records := lastN 256 (r.records ++ [e])
      readerC0 := (r.readerC0.afterWrite (256 ≤ r.records.length : Bool) r.records.length top).1
      readerC1 := (r.readerC1.afterWrite (256 ≤ r.records.length : Bool) r.records.length top).1 }
  else { r with nextRecord := nextNumber r.nextRecord }

theorem appendRecord_posts (e : InjectionRecord) (s : State) :
    posts (s.updRecord (Records.appended s.counterTop e)) (appendRecord e s) := by
  unfold appendRecord
  dsimp only
  by_cases on : (s.record.readerC0.enabled || s.record.readerC1.enabled) = true
  · have now : s.updRecord (Records.appended s.counterTop e) = { s with record := _ } :=
      congrArg (fun r => { s with record := r }) (if_pos on)
    rw [if_pos on, now]
    exact (postSlip_posts _ _ _ _ _).trans (postSlip_posts _ _ _ _ _)
  · have now : s.updRecord (Records.appended s.counterTop e) = { s with record := _ } :=
      congrArg (fun r => { s with record := r }) (if_neg on)
    rw [if_neg on, now]
    exact .refl _

/-- The four parts of the record queue that R159 speaks of, once a record has been appended. -/
theorem record_appendRecord (e : InjectionRecord) (s : State) :
    (appendRecord e s).record.records = (s.record.appended s.counterTop e).records ∧
    (appendRecord e s).record.nextRecord = (s.record.appended s.counterTop e).nextRecord ∧
    (appendRecord e s).record.readerC0 = (s.record.appended s.counterTop e).readerC0 ∧
    (appendRecord e s).record.readerC1 = (s.record.appended s.counterTop e).readerC1 :=
  (appendRecord_posts e s).1.2 .recordQueue (by decide)

/-- What an appended record makes of a reader (R159). -/
def ReaderMoved (top held : Nat) (r r' : Reader) : Prop :=
  r'.enabled = r.enabled ∧ (r.enabled = false → r' = r) ∧
  (r.enabled = true → 256 ≤ held → r.unread = held → r'.unread = r.unread ∧ r'.slips.count = satSucc top r.slips.count) ∧
  (r.enabled = true → held < 256 ∨ r.unread ≠ held → r'.unread = r.unread + 1 ∧ r'.slips = r.slips)

theorem afterWrite_moved (top held : Nat) (r : Reader) :
    ReaderMoved top held r (r.afterWrite (256 ≤ held : Bool) held top).1 := by
  unfold Reader.afterWrite
  by_cases on : r.enabled = true
  · rw [if_pos on]
    by_cases slip : 256 ≤ held ∧ r.unread = held
    · have stands : (decide (256 ≤ held) && r.onOldest held) = true := by simp [Reader.onOldest, on, slip]
      rw [if_pos stands]
      exact ⟨rfl, fun off => absurd on (by rw [off]; decide), fun _ _ _ => ⟨rfl, count_bump _ _⟩,
        fun _ behind => absurd slip (by omega)⟩
    · have stands : ¬ (decide (256 ≤ held) && r.onOldest held) = true := by
        simpa [Reader.onOldest, on] using slip
      rw [if_neg stands]
      exact ⟨rfl, fun off => absurd on (by rw [off]; decide), fun _ full last => absurd ⟨full, last⟩ slip,
        fun _ _ => ⟨rfl, rfl⟩⟩
  · rw [if_neg on]
    exact ⟨rfl, fun _ => rfl, fun h => absurd h on, fun h => absurd h on⟩

theorem moved_of_disabled {top held : Nat} {r : Reader} (off : r.enabled = false) : ReaderMoved top held r r :=
  ⟨rfl, fun _ => rfl, fun on => absurd on (by rw [off]; decide), fun on => absurd on (by rw [off]; decide)⟩

theorem nextRecord_appended (top : Nat) (e : InjectionRecord) (r : Records) :
    (r.appended top e).nextRecord = nextNumber r.nextRecord := by
  unfold Records.appended
  split <;> rfl

theorem appended_enabled (top : Nat) (e : InjectionRecord) {r : Records}
    (on : r.readerC0.enabled = true ∨ r.readerC1.enabled = true) :
    (r.appended top e).records = lastN 256 (r.records ++ [e]) ∧
    ReaderMoved top r.records.length r.readerC0 (r.appended top e).readerC0 ∧
    ReaderMoved top r.records.length r.readerC1 (r.appended top e).readerC1 := by
  have some : (r.readerC0.enabled || r.readerC1.enabled) = true := by simpa using on
  have records : (r.appended top e).records = lastN 256 (r.records ++ [e]) := by
    rw [Records.appended, if_pos some]
  have c0 : (r.appended top e).readerC0 =
      (r.readerC0.afterWrite (256 ≤ r.records.length : Bool) r.records.length top).1 :=
    congrArg Records.readerC0 (if_pos some)
  have c1 : (r.appended top e).readerC1 =
      (r.readerC1.afterWrite (256 ≤ r.records.length : Bool) r.records.length top).1 :=
    congrArg Records.readerC1 (if_pos some)
  rw [c0, c1]
  exact ⟨records, afterWrite_moved _ _ _, afterWrite_moved _ _ _⟩

theorem appended_disabled (top : Nat) (e : InjectionRecord) {r : Records}
    (off : ¬ (r.readerC0.enabled = true ∨ r.readerC1.enabled = true)) :
    (r.appended top e).records = r.records ∧
    ReaderMoved top r.records.length r.readerC0 (r.appended top e).readerC0 ∧
    ReaderMoved top r.records.length r.readerC1 (r.appended top e).readerC1 := by
  have none : ¬ (r.readerC0.enabled || r.readerC1.enabled) = true := by simpa using off
  simp only [not_or, Bool.not_eq_true] at off
  rw [Records.appended, if_neg none]
  exact ⟨rfl, moved_of_disabled off.1, moved_of_disabled off.2⟩

end


section
variable {s t u v : State} {p : Port} {l : LineId} {k : StageKey} {z : Stage}

/-- The record a line writes, with the values it shows (R102, R158). -/
theorem injectionRecord_eq (found : s.stage? k = some z) :
    s.injectionRecord l k =
      ⟨s.record.nextRecord, s.clock.site, k, l, (s.line l).state, ((s.line l).values.map Computed.pg).getD 0,
       ((s.line l).values.map Computed.pe).getD 0, ((s.line l).values.map Computed.ce).getD 0,
       ((s.line l).values.map Computed.cg).getD 0, ((s.line l).values.map Computed.q).getD 0,
       (z.progress.map Progress.v).getD 0, ((s.line l).values.map Computed.v).getD 0,
       ((s.line l).values.map Computed.j).getD 0, ((s.line l).classes.map Classes.effective).getD 0,
       ((s.line l).classes.map Classes.demanded).getD 0, (s.line l).causes,
       ((s.line l).values.map Computed.stale).getD true⟩ := by
  have volume : s.volumeOf k = (z.progress.map Progress.v).getD 0 := by
    unfold State.volumeOf Stage.volume
    rw [found]
    dsimp only
    cases z.progress <;> rfl
  unfold State.injectionRecord Line.effectiveClass
  dsimp only
  rw [volume]
  cases (s.line l).values <;> cases (s.line l).classes <;> rfl

/-- The part with a record appended, and the timer of its line started again. -/
def recorded (l : LineId) (k : StageKey) (s : State) : State :=
  appendRecord (s.injectionRecord l k) (s.updLine l (fun x => { x with recordTimer := some 0 }))

theorem writeRecord_eq (found : s.stage? k = some z) :
    writeRecord l k s =
      if z.status = .active ∧ z.progress.isSome = true then saveStage k (recorded l k s) else recorded l k s := by
  have kept : (recorded l k s).stage? k = some z := by
    rw [recorded, (appendRecord_keeps _ _).stage (by decide)]
    exact found
  unfold writeRecord
  dsimp only
  rw [← recorded, kept]

theorem counterTop_updLine (l : LineId) (f : Line → Line) (s : State) : (s.updLine l f).counterTop = s.counterTop := rfl

theorem record_writeThrough (w : StoreWrite) (s : State) : (writeThrough w s).record = s.record := by
  unfold writeThrough
  split <;> rfl

theorem record_recorded :
    (recorded l k s).record.records = (s.record.appended s.counterTop (s.injectionRecord l k)).records ∧
    (recorded l k s).record.nextRecord = (s.record.appended s.counterTop (s.injectionRecord l k)).nextRecord ∧
    (recorded l k s).record.readerC0 = (s.record.appended s.counterTop (s.injectionRecord l k)).readerC0 ∧
    (recorded l k s).record.readerC1 = (s.record.appended s.counterTop (s.injectionRecord l k)).readerC1 := by
  have appended := record_appendRecord (s.injectionRecord l k) (s.updLine l (fun x => { x with recordTimer := some 0 }))
  rwa [record_updLine, counterTop_updLine] at appended

theorem recorded_keeps (l : LineId) (k : StageKey) (s : State) :
    keeps [.lines, .recordQueue, .queues] s (recorded l k s) :=
  (appendRecord_keeps _ _).after (by decide)
    ((updLine_keeps l _ s (by intro; rfl) (by intro; rfl)).mono (by decide))

theorem line_recorded (l m : LineId) (k : StageKey) (s : State) :
    (recorded l k s).line m = if m = l then { s.line l with recordTimer := some 0 } else s.line m :=
  ((appendRecord_keeps _ _).line (by decide) (by decide) (by decide) m).trans (line_updLine _ _ _ _)

theorem readers_appended (top : Nat) (e : InjectionRecord) (r : Records) :
    ReaderMoved top r.records.length r.readerC0 (r.appended top e).readerC0 ∧
    ReaderMoved top r.records.length r.readerC1 (r.appended top e).readerC1 := by
  by_cases on : r.readerC0.enabled = true ∨ r.readerC1.enabled = true
  · exact (appended_enabled top e on).2
  · exact (appended_disabled top e on).2

/-- Saving the stage of a record leaves everything but the writes. -/
theorem writeRecord_keeps_recorded (found : s.stage? k = some z) : keeps [.writes] (recorded l k s) (writeRecord l k s) := by
  rw [writeRecord_eq found]
  split
  · exact saveStage_keeps _ _
  · exact keeps_refl _ _

theorem writes_writeRecord (found : s.stage? k = some z) :
    (writeRecord l k s).store.writes =
      if z.status = .active ∧ z.progress ≠ none then begun s (.stage z.stored) else s.store.writes := by
  have kept : (recorded l k s).stage? k = some z := ((recorded_keeps l k s).stage (by decide) k).trans found
  have some : z.progress.isSome = true ↔ z.progress ≠ none := Option.isSome_iff_ne_none
  rw [writeRecord_eq found]
  by_cases saves : z.status = .active ∧ z.progress ≠ none
  · rw [if_pos saves, if_pos (by rwa [some]), writes_saveStage kept]
    exact (recorded_keeps l k s).begun (by decide) (by decide) _
  · have keeps : ¬ (z.status = .active ∧ z.progress.isSome = true) := by rwa [some]
    rw [if_neg saves, if_neg keeps]
    exact (recorded_keeps l k s).2 .writes (by decide)

/-- A reader after a READER_ENABLE, the one with number `n` (R159). -/
def readerAfter (a : ReaderArgs) (n : Nat) (x : Reader) : Reader :=
  if a.reader = n then
    if a.enable = 1 ∧ x.enabled = true then x else { x with enabled := a.enable == 1, unread := 0 }
  else x

theorem switchReader_eq {a : ReaderArgs} (reader : a.reader ≤ 1) (r : Records) :
    r.switchReader a.reader (a.enable == 1) = { r with
      readerC0 := readerAfter a 0 r.readerC0
      readerC1 := readerAfter a 1 r.readerC1
      records := lastN (max (readerAfter a 0 r.readerC0).holds (readerAfter a 1 r.readerC1).holds) r.records } := by
  have which : a.reader = 0 ∨ a.reader = 1 := by omega
  unfold Records.switchReader readerAfter
  rcases which with first | second
  · simp only [first, if_true, switch_eq]
    rfl
  · simp only [second, switch_eq]
    rfl

/-- Settles O30: a reader switched with the queue trimmed to what is still needed, and a record appended to it. -/
theorem recordsAreWrittenAndReadersPlaced : Obligations.RecordsAreWrittenAndReadersPlaced := by
  refine ⟨fun s p tag a ready => ?_, fun s l => ⟨exec_recordInterval_early, fun k z due bound found => ?_⟩⟩
  · have free : (heard p s).stop.lockdown = false := by rw [heard_stop]; exact ready.2.2
    refine ⟨fun bad => ?_, fun reader enable => ?_⟩
    · exact request_refused (k := .readerEnable) rfl tag a readerEnableReply ready (readerEnableReply_bad free bad)
    · have run := request_console (k := .readerEnable) rfl tag a readerEnableReply ready.1 ready.2.1
      rw [readerEnableReply_taken free reader enable] at run
      have record : (readerSwitched a (heard p s)).record = Records.switchReader a.reader (a.enable == 1) s.record := by
        rw [readerSwitched, record_updRecord, heard_record]
      rw [switchReader_eq reader] at record
      rw [record] at run
      refine ⟨_, run, ?_, (writes_writeThrough _ _).trans (begun_heard p s _)⟩
      rw [record_writeThrough, record]
      rfl
  · obtain ⟨records, next, reader0, reader1⟩ := record_recorded (s := s) (l := l) (k := k)
    obtain ⟨records', next', reader0', reader1'⟩ := (writeRecord_keeps_recorded (l := l) found).2 .recordQueue (by decide)
    have saved := writeRecord_keeps_recorded (l := l) found
    have moved := readers_appended s.counterTop (s.injectionRecord l k) s.record
    refine ⟨writeRecord l k s, exec_recordInterval due bound, ?_, fun m other => ?_, ?_, fun on => ?_, fun off => ?_, ?_, ?_, ?_,
      writes_writeRecord found⟩
    · rw [saved.line (by decide) (by decide) (by decide), line_recorded, if_pos rfl]
    · rw [saved.line (by decide) (by decide) (by decide), line_recorded, if_neg other]
    · exact next'.trans (next.trans (nextRecord_appended _ _ _))
    · rw [records', records, (appended_enabled _ _ on).1, injectionRecord_eq found, lastN, List.length_append,
        List.length_singleton]
    · rw [records', records, (appended_disabled _ _ off).1]
    · rw [reader0', reader0]
      exact moved.1
    · rw [reader1', reader1]
      exact moved.2
    · exact (saved.2 .stages (by decide) :).trans ((recorded_keeps l k s).2 .stages (by decide))

end

end Sys2Proof.Machine
end

section
/-! PROOFS. CLEAR_COUNTERS and CLEAR_LATCHES (R80, R163, R164). -/

namespace Sys2Proof.Machine

section
variable {s t u v : State} {p : Port} {l : LineId} {g : GaugeId}

/-! ### A channel by its number (section 4.1) -/

theorem clearChannel_pressure (l : LineId) (s : State) :
    clearChannel l.val s = s.updLine l (fun x => { x with pressure := x.pressure.clearCounter }) :=
  dif_pos l.isLt

theorem clearChannel_flow (l : LineId) (s : State) :
    clearChannel (8 + l.val) s = s.updLine l (fun x => { x with flow := x.flow.clearCounter }) := by
  have past : ¬ 8 + l.val < 8 := by omega
  have back : 8 + l.val - 8 = l.val := by omega
  unfold clearChannel
  rw [dif_neg past]
  simp only [back, l.isLt, dif_pos]

theorem clearChannel_gauge (g : GaugeId) (s : State) :
    clearChannel (16 + g.val) s = s.updGauge g (fun x => { x with channel := x.channel.clearCounter }) := by
  have past : ¬ 16 + g.val < 8 := by omega
  have past' : ¬ 16 + g.val - 8 < 8 := by omega
  have back : 16 + g.val - 16 = g.val := by omega
  unfold clearChannel
  rw [dif_neg past, dif_neg past']
  simp only [back, g.isLt, dif_pos]

theorem clearChannel_level (s : State) : clearChannel 20 s = { s with level := s.level.clearCounter } := rfl

/-- The numbers of the channels: the lines' pressures and flows, the gauges, the level. -/
theorem channel_cases {n : Nat} (hn : n ≤ 20) :
    (∃ l : LineId, n = l.val) ∨ (∃ l : LineId, n = 8 + l.val) ∨ (∃ g : GaugeId, n = 16 + g.val) ∨ n = 20 := by
  by_cases h : n < 8
  · exact .inl ⟨⟨n, h⟩, rfl⟩
  · by_cases h' : n < 16
    · exact .inr (.inl ⟨⟨n - 8, by omega⟩, by dsimp only; omega⟩)
    · by_cases h'' : n < 20
      · exact .inr (.inr (.inl ⟨⟨n - 16, by omega⟩, by dsimp only; omega⟩))
      · exact .inr (.inr (.inr (by omega)))

/-! What the clearing of one channel does to each. -/

theorem pressure_clearChannel {n : Nat} (hn : n ≤ 20) (l : LineId) (s : State) :
    ((clearChannel n s).line l).pressure =
      if n = l.val then (s.line l).pressure.clearCounter else (s.line l).pressure := by
  rcases channel_cases hn with ⟨m, rfl⟩ | ⟨m, rfl⟩ | ⟨g, rfl⟩ | rfl
  · rw [clearChannel_pressure, line_updLine]
    by_cases same : l = m
    · subst m; simp
    · have apart : ¬ m.val = l.val := fun e => same (Fin.ext e.symm)
      rw [if_neg same, if_neg apart]
  · have apart : ¬ 8 + m.val = l.val := by omega
    rw [clearChannel_flow, line_updLine, if_neg apart]
    split
    · subst m; rfl
    · rfl
  · have apart : ¬ 16 + g.val = l.val := by omega
    rw [clearChannel_gauge, line_updGauge, if_neg apart]
  · have apart : ¬ 20 = l.val := by omega
    rw [if_neg apart]
    rfl

theorem flow_clearChannel {n : Nat} (hn : n ≤ 20) (l : LineId) (s : State) :
    ((clearChannel n s).line l).flow = if n = 8 + l.val then (s.line l).flow.clearCounter else (s.line l).flow := by
  rcases channel_cases hn with ⟨m, rfl⟩ | ⟨m, rfl⟩ | ⟨g, rfl⟩ | rfl
  · have apart : ¬ m.val = 8 + l.val := by omega
    rw [clearChannel_pressure, line_updLine, if_neg apart]
    split
    · subst m; rfl
    · rfl
  · rw [clearChannel_flow, line_updLine]
    by_cases same : l = m
    · subst m; simp
    · have apart : ¬ 8 + m.val = 8 + l.val := fun e => same (Fin.ext (by omega))
      rw [if_neg same, if_neg apart]
  · have apart : ¬ 16 + g.val = 8 + l.val := by omega
    rw [clearChannel_gauge, line_updGauge, if_neg apart]
  · have apart : ¬ 20 = 8 + l.val := by omega
    rw [if_neg apart]
    rfl

theorem gauge_clearChannel {n : Nat} (hn : n ≤ 20) (g : GaugeId) (s : State) :
    ((clearChannel n s).gauge g).channel =
      if n = 16 + g.val then (s.gauge g).channel.clearCounter else (s.gauge g).channel := by
  rcases channel_cases hn with ⟨m, rfl⟩ | ⟨m, rfl⟩ | ⟨h, rfl⟩ | rfl
  · have apart : ¬ m.val = 16 + g.val := by omega
    rw [clearChannel_pressure, if_neg apart]
    rfl
  · have apart : ¬ 8 + m.val = 16 + g.val := by omega
    rw [clearChannel_flow, if_neg apart]
    rfl
  · rw [clearChannel_gauge, gauge_updGauge]
    by_cases same : g = h
    · subst h; simp
    · have apart : ¬ 16 + h.val = 16 + g.val := fun e => same (Fin.ext (by omega))
      rw [if_neg same, if_neg apart]
  · have apart : ¬ 20 = 16 + g.val := by omega
    rw [if_neg apart]
    rfl

theorem level_clearChannel {n : Nat} (hn : n ≤ 20) (s : State) :
    (clearChannel n s).level = if n = 20 then s.level.clearCounter else s.level := by
  rcases channel_cases hn with ⟨m, rfl⟩ | ⟨m, rfl⟩ | ⟨h, rfl⟩ | rfl
  · have apart : ¬ m.val = 20 := by omega
    rw [clearChannel_pressure, if_neg apart]
    rfl
  · have apart : ¬ 8 + m.val = 20 := by omega
    rw [clearChannel_flow, if_neg apart]
    rfl
  · have apart : ¬ 16 + h.val = 20 := by omega
    rw [clearChannel_gauge, if_neg apart]
    rfl
  · rfl

/-- Every channel's counter cleared (R80). -/
def clearChannels (s : State) : State := (List.range 21).foldl (fun s n => clearChannel n s) s

/-- A channel among those cleared in turn. -/
theorem clear_each {part : State → Channel} {j : Nat}
    (h : ∀ n, n ≤ 20 → ∀ s, part (clearChannel n s) = if n = j then (part s).clearCounter else part s) (ns : List Nat)
    (hns : ∀ n ∈ ns, n ≤ 20) (s : State) :
    part (ns.foldl (fun s n => clearChannel n s) s) = if j ∈ ns then (part s).clearCounter else part s := by
  induction ns generalizing s with
  | nil => rfl
  | cons n ns ih =>
    rw [List.foldl_cons, ih fun m hm => hns m (List.mem_cons_of_mem _ hm), h n (hns n List.mem_cons_self)]
    by_cases same : n = j
    · subst n
      have again : (part s).clearCounter.clearCounter = (part s).clearCounter := rfl
      simp [again]
    · have other : ¬ j = n := fun e => same e.symm
      simp [same, other]

theorem channel_clearChannels {part : State → Channel} {j : Nat} (hj : j ≤ 20)
    (h : ∀ n, n ≤ 20 → ∀ s, part (clearChannel n s) = if n = j then (part s).clearCounter else part s) (s : State) :
    part (clearChannels s) = (part s).clearCounter :=
  (clear_each h (List.range 21) (fun n hn => by rw [List.mem_range] at hn; omega) s).trans
    (if_pos (List.mem_range.mpr (by omega)))

/-! ### CLEAR_COUNTERS (R164) -/

/-- The ports' counters cleared. -/
def clearPorts (s : State) : State := allPorts.foldl (fun s p => s.updPort p PortRecord.clearCounters) s

/-- The readers' counters and the unaccounted grout cleared. -/
def clearRest (s : State) : State :=
  (s.updRecord (fun r =>
    { r with readerC0 := { r.readerC0 with slips := Counter.zero },
             readerC1 := { r.readerC1 with slips := Counter.zero } })).updGrout (fun g => { g with unaccounted := 0 })

theorem clearAllCounters_eq (s : State) : clearAllCounters s = clearRest (clearPorts (clearChannels s)) := rfl

theorem clearChannels_keeps (s : State) : keeps [.meters, .gauges, .level] s (clearChannels s) :=
  foldl_keeps _ _ _ fun s n => clearChannel_keeps n s

theorem clearPorts_same {α : Type} (part : State → α) (h : ∀ s p f, part (State.updPort p f s) = part s) (s : State) :
    part (clearPorts s) = part s := foldl_same (fun s p => h s p _) _ s

theorem port_clearPorts (s : State) (q : Port) : (clearPorts s).port q = (s.port q).clearCounters :=
  port_each (P := fun _ => True) (h := fun _ => PortRecord.clearCounters) (fun _ _ _ => trivial)
    (fun _ _ _ _ => port_setPort _ _ _ _) trivial q

theorem clearRest_parts (s : State) :
    (∀ l, (clearRest s).line l = s.line l) ∧ (∀ g, (clearRest s).gauge g = s.gauge g) ∧ (clearRest s).level = s.level ∧
    (∀ q, (clearRest s).port q = s.port q) ∧
    (clearRest s).record = { s.record with
      readerC0 := { s.record.readerC0 with slips := Counter.zero }
      readerC1 := { s.record.readerC1 with slips := Counter.zero } } ∧
    (clearRest s).grout = { s.grout with unaccounted := 0 } :=
  ⟨fun _ => rfl, fun _ => rfl, rfl, fun _ => rfl, rfl, rfl⟩

theorem clearChannels_same {α : Type} (part : State → α) (hl : ∀ s l f, part (State.updLine l f s) = part s)
    (hg : ∀ s g f, part (State.updGauge g f s) = part s) (hc : ∀ (s : State) c, part { s with level := c } = part s)
    (s : State) : part (clearChannels s) = part s := by
  refine foldl_same (fun u n => ?_) _ s
  unfold clearChannel
  split
  · exact hl _ _ _
  · split
    · exact hl _ _ _
    · split
      · exact hg _ _ _
      · exact hc _ _

theorem port_clearChannels (s : State) (q : Port) : (clearChannels s).port q = s.port q :=
  clearChannels_same (fun u => u.port q) (fun _ _ _ => rfl) (fun _ _ _ => rfl) (fun _ _ => rfl) s

theorem clearCountersReply_eq (free : s.stop.lockdown = false) (n : Nat) :
    clearCountersReply n s =
      if n = 255 then accept .header (clearAllCounters s)
      else if n ≤ 20 then accept .header (clearChannel n s)
      else refuse .badArgument s :=
  unlessLocked_free _ free

theorem clearCountersReply_bad (free : s.stop.lockdown = false) {n : Nat} (past : 20 < n) (other : n ≠ 255) :
    clearCountersReply n s = refuse .badArgument s :=
  (clearCountersReply_eq free n).trans ((if_neg other).trans (if_neg (by omega)))

theorem clearCountersReply_one (free : s.stop.lockdown = false) {n : Nat} (hn : n ≤ 20) :
    clearCountersReply n s = accept .header (clearChannel n s) :=
  (clearCountersReply_eq free n).trans ((if_neg (by omega)).trans (if_pos hn))

/-- CLEAR_COUNTERS of one channel from a console in a part that takes it. -/
theorem exec_clearCounters (ready : consoleReady s p) (tag : Byte) {n : Nat} (hn : n ≤ 20) :
    exec (.clearCounters p tag (.args n)) s =
      .next (answering p .clearCounters tag .ok .header (clearChannel n (heard p s))) := by
  have run := request_console (k := .clearCounters) rfl tag n clearCountersReply ready.1 ready.2.1
  rw [clearCountersReply_one (by rw [heard_stop]; exact ready.2.2) hn] at run
  exact run

/-! ### CLEAR_LATCHES (R163) -/

theorem clearLatchesReply_all (free : s.stop.lockdown = false) :
    clearLatchesReply 255 s = accept .header (s.updRecord (fun r => { r with latched := [] })) :=
  (unlessLocked_free _ free).trans (if_pos rfl)

theorem faultOfCode?_code (f : FaultCode) : FaultCode.ofCode? f.code = some f := by
  cases f <;> rfl

theorem code_ne_all (f : FaultCode) : f.code ≠ 255 := by
  cases f <;> decide

theorem faultOfCode?_none {n : Nat} (h : ∀ f : FaultCode, f.code ≠ n) : FaultCode.ofCode? n = none :=
  List.find?_eq_none.mpr fun f _ => by simpa using h f

theorem clearLatchesReply_one (free : s.stop.lockdown = false) (f : FaultCode) :
    clearLatchesReply f.code s =
      accept .header (s.updRecord (fun r => { r with latched := r.latched.filter (fun d => d != f) })) := by
  rw [clearLatchesReply, unlessLocked_free _ free, if_neg (code_ne_all f), faultOfCode?_code]

theorem clearLatchesReply_bad (free : s.stop.lockdown = false) {n : Nat} (other : n ≠ 255)
    (unknown : ∀ f : FaultCode, f.code ≠ n) : clearLatchesReply n s = refuse .badArgument s := by
  rw [clearLatchesReply, unlessLocked_free _ free, if_neg other, faultOfCode?_none unknown]

/-- Settles O31: a counter counts up to its top, and the counters and the latched flags go back to nothing. -/
theorem countersAndLatchesAreCleared : Obligations.CountersAndLatchesAreCleared := by
  refine ⟨fun top x => ?_, fun s p tag ready => ?_, fun s p tag ready => ?_⟩
  · unfold Counter.bump
    by_cases below : x.count < top
    · by_cases last : x.count + 1 = top
      · cases x.posted <;> simp [below, last]
      · simp [below, last]
    · simp [below]
  · have free : (heard p s).stop.lockdown = false := by rw [heard_stop]; exact ready.2.2
    refine ⟨?_, fun n past other => ?_, fun l => ?_, fun l => ?_, fun g => ?_, ?_⟩
    · have run := request_console (k := .clearCounters) rfl tag 255 clearCountersReply ready.1 ready.2.1
      rw [(clearCountersReply_eq free 255).trans (if_pos rfl), clearAllCounters_eq] at run
      obtain ⟨lines, gauges, level, ports, record, grout⟩ := clearRest_parts (clearPorts (clearChannels (heard p s)))
      have kept := clearChannels_keeps (heard p s)
      have records : (clearPorts (clearChannels (heard p s))).record = s.record :=
        (clearPorts_same State.record (fun _ _ _ => rfl) _).trans
          ((clearChannels_same State.record (fun _ _ _ => rfl) (fun _ _ _ => rfl) (fun _ _ => rfl) _).trans
            (heard_record p s))
      refine ⟨_, run, fun l => ?_, fun g => ?_, ?_, fun q => ?_, ?_, ?_, ?_⟩
      · rw [lines, clearPorts_same (fun u => u.line l) (fun _ _ _ => rfl)]
        have pressure := channel_clearChannels (part := fun u => (u.line l).pressure) (j := l.val) (by omega)
          (fun n hn u => pressure_clearChannel hn l u) (heard p s)
        have flow := channel_clearChannels (part := fun u => (u.line l).flow) (j := 8 + l.val) (by omega)
          (fun n hn u => flow_clearChannel hn l u) (heard p s)

        rw [pressure, flow, heard_line_part p s Line.pressure l (fun _ _ => rfl),
          heard_line_part p s Line.flow l (fun _ _ => rfl)]
        exact ⟨rfl, rfl⟩
      · have channel := channel_clearChannels (part := fun u => (u.gauge g).channel) (j := 16 + g.val) (by omega)
          (fun n hn u => gauge_clearChannel hn g u) (heard p s)

        rw [gauges, clearPorts_same (fun u => u.gauge g) (fun _ _ _ => rfl), channel, heard_gauge]
        rfl
      · have channel := channel_clearChannels (part := State.level) (j := 20) (by omega)
          (fun n hn u => level_clearChannel hn u) (heard p s)
        rw [level, clearPorts_same State.level (fun _ _ _ => rfl), channel, heard_level]
        rfl
      · rw [ports, port_clearPorts, port_clearChannels]
        exact ⟨rfl, rfl, rfl, rfl, heard_port_part PortRecord.slipFlag (fun _ => rfl) q⟩
      · rw [record, records]
        rfl
      · rw [record, records]
        rfl
      · rw [grout, clearPorts_same State.grout (fun _ _ _ => rfl), kept.grout (by decide), heard_grout]
    · exact request_refused (k := .clearCounters) rfl tag n clearCountersReply ready (clearCountersReply_bad free past other)
    · have run := exec_clearCounters ready tag (n := l.val) (by omega)
      rw [clearChannel_pressure] at run
      exact run
    · have run := exec_clearCounters ready tag (n := 8 + l.val) (by omega)
      rw [clearChannel_flow] at run
      exact run
    · have run := exec_clearCounters ready tag (n := 16 + g.val) (by omega)
      rw [clearChannel_gauge] at run
      exact run
    · have run := exec_clearCounters ready tag (n := 20) (by omega)
      rw [clearChannel_level, heard_level] at run
      exact run
  · have free : (heard p s).stop.lockdown = false := by rw [heard_stop]; exact ready.2.2
    have request (n : Nat) := request_console (k := .clearLatches) rfl tag n clearLatchesReply ready.1 ready.2.1
    refine ⟨?_, fun f => ?_, fun n other unknown => ?_⟩
    · have run := request 255
      rw [clearLatchesReply_all free, State.updRecord, heard_record] at run
      exact run
    · have run := request f.code
      rw [clearLatchesReply_one free] at run
      refine ⟨_, run, ?_, fun d => ?_⟩
      · rw [State.updRecord, heard_record]
      · rw [record_updRecord, heard_record]
        simp
    · exact request_refused (k := .clearLatches) rfl tag n clearLatchesReply ready
        (clearLatchesReply_bad free other unknown)

end

end Sys2Proof.Machine
end

section
/-! PROOFS. SET_TIME, the second of the clock, and EXERCISE_STEP (R22, R165, R166). -/

namespace Sys2Proof.Machine

section
variable {s t u : State} {p : Port} {l m : LineId} {k : StageKey} {x : Stage}

/-! ### SET_TIME and the clocks (R165) -/

theorem setTimeReply_eq (free : s.stop.lockdown = false) (n : Nat) :
    setTimeReply n s = accept (.time s.clock.site) { s with clock := { s.clock with pendingTime := some n } } :=
  unlessLocked_free _ free

theorem tick_given (c : Clock) {n : Nat} (h : c.pendingTime = some n) :
    c.tick = ⟨c.partSeconds + 1, n, true, none⟩ := by
  simp only [Clock.tick, h]

theorem tick_running (c : Clock) (h : c.pendingTime = none) :
    c.tick = { c with partSeconds := c.partSeconds + 1, site := (c.site + 1) % 4294967296 } := by
  simp only [Clock.tick, h]

theorem tick_running_facts (c : Clock) (h : c.pendingTime = none) :
    c.tick.valid = c.valid ∧ (c.site < 4294967295 → c.tick.site = c.site + 1) ∧
    (c.site = 4294967295 → c.tick.site = 0) := by
  have site : c.tick.site = (c.site + 1) % 4294967296 := by rw [tick_running c h]
  refine ⟨by rw [tick_running c h], fun below => ?_, fun last => ?_⟩
  · omega
  · omega

theorem tick_always (c : Clock) : c.tick.partSeconds = c.partSeconds + 1 ∧ c.tick.pendingTime = none := by
  cases h : c.pendingTime with
  | none =>
    rw [tick_running c h]
    exact ⟨rfl, h⟩
  | some n =>
    rw [tick_given c h]
    exact ⟨rfl, rfl⟩

/-! ### A second of the lines (R22, R33, R42, R58, R59, R158) -/

theorem line_tickStage (l m : LineId) (s : State) : (tickStage l s).line m = s.line m := by
  have progress := line_addProgress l m (Progress.tick (s.line l).state s.free) s
  unfold tickStage
  dsimp only
  split
  · split
    · exact progress
    · exact progress
  · exact progress

theorem line_tickLine (l m : LineId) (s : State) :
    (tickLine l s).line m = if m = l then (s.line l).tick s.settings.holdLimit else s.line m :=
  (line_tickStage _ _ _).trans (line_updLine _ _ _ _)

/-- The part after a second of every line. -/
def ticked (s : State) : State := forLines tickLine s

theorem ticked_keeps (s : State) : keeps [.lines, .stages, .free] s (ticked s) :=
  forLines_keeps _ _ tickLine_keeps

theorem line_ticked (s : State) (m : LineId) : (ticked s).line m = (s.line m).tick s.settings.holdLimit := by
  refine line_forLines (P := fun u => u.settings = s.settings) (g := fun _ => Line.tick s.settings.holdLimit)
    (fun l u hu => ?_) (fun l m u hu => ?_) rfl m
  · exact ((tickLine_keeps l u).2 .settings (by decide) :).trans hu
  · rw [line_tickLine, hu]

/-! ### A second of the stages (R22) -/

theorem stage_addProgress (l : LineId) (f : Progress → Progress) (s : State) (j : StageKey) :
    (addProgress l f s).stage? j =
      if (s.line l).carried = some j then (s.stage? j).map (Stage.addProgress f) else s.stage? j := by
  have key (x : Stage) : (x.addProgress f).key = x.key := by unfold Stage.addProgress; split <;> rfl
  unfold addProgress
  cases (s.line l).carried with
  | none => rfl
  | some k =>
    dsimp only
    rw [stage_updStage s k j (Stage.addProgress f) key]
    by_cases same : j = k
    · subst j; simp
    · have other : ¬ (some k = some j) := fun e => same (Option.some.inj e).symm
      rw [if_neg same, if_neg other]

theorem stage_tickStage (l : LineId) (s : State) (j : StageKey) :
    (tickStage l s).stage? j =
      if (s.line l).carried = some j then (s.stage? j).map (Stage.addProgress (Progress.tick (s.line l).state s.free))
      else s.stage? j := by
  have progress := stage_addProgress l (Progress.tick (s.line l).state s.free) s j
  unfold tickStage
  dsimp only
  split
  · split
    · exact progress
    · exact progress
  · exact progress

theorem carried_tick (n : Nat) (x : Line) : (x.tick n).carried = x.carried := rfl

theorem stage_tickLine (l : LineId) (s : State) (j : StageKey) :
    (tickLine l s).stage? j =
      if (s.line l).carried = some j then (s.stage? j).map (Stage.addProgress (Progress.tick (s.line l).state s.free))
      else s.stage? j := by
  rw [tickLine, stage_tickStage, line_updLine_self, carried_tick]
  rfl

/-- A second of a line leaves what each line carries, and its state. -/
theorem carried_tickLine (l m : LineId) (s : State) :
    ((tickLine l s).line m).carried = (s.line m).carried ∧ ((tickLine l s).line m).state = (s.line m).state := by
  rw [line_tickLine]
  split
  · subst m; exact ⟨rfl, rfl⟩
  · exact ⟨rfl, rfl⟩

/-- A stage that no line of a list carries, as a second of those lines passes. -/
theorem stage_tick_uncarried (ls : List LineId) (s : State) (h : ∀ m ∈ ls, (s.line m).carried ≠ some k) :
    (ls.foldl (fun s l => tickLine l s) s).stage? k = s.stage? k := by
  induction ls generalizing s with
  | nil => rfl
  | cons l ls ih =>
    have later (m : LineId) (hm : m ∈ ls) : ((tickLine l s).line m).carried ≠ some k := by
      rw [(carried_tickLine l m s).1]
      exact h m (List.mem_cons_of_mem _ hm)
    rw [List.foldl_cons, ih _ later, stage_tickLine, if_neg (h l List.mem_cons_self)]

/-- A stage that is not ACTIVE, as a second of some lines passes. -/
theorem stage_tick_inactive (ls : List LineId) (s : State) (found : s.stage? k = some x) (inactive : x.status ≠ .active) :
    (ls.foldl (fun s l => tickLine l s) s).stage? k = some x := by
  have same (f : Progress → Progress) : x.addProgress f = x := if_neg inactive
  induction ls generalizing s with
  | nil => exact found
  | cons l ls ih =>
    refine ih _ ?_
    rw [stage_tickLine, found]
    split
    · simp [same]
    · rfl

/-- A stage that one line carries, as a second of some lines passes, that one among them. -/
theorem stage_tick_carried (ls : List LineId) (once : ls.Nodup) (s : State) (hl : l ∈ ls)
    (carries : ∀ m, (s.line m).carried = some k ↔ m = l) :
    ∃ n, (ls.foldl (fun s l => tickLine l s) s).stage? k =
      (s.stage? k).map (Stage.addProgress (Progress.tick (s.line l).state n)) := by
  induction ls generalizing s with
  | nil => cases hl
  | cons m ls ih =>
    obtain ⟨absent, once⟩ := List.nodup_cons.mp once
    have after (j : LineId) : ((tickLine m s).line j).carried = some k ↔ j = l := by
      rw [(carried_tickLine m j s).1]
      exact carries j
    by_cases here : m = l
    · subst m
      refine ⟨s.free, ?_⟩
      rw [List.foldl_cons, stage_tick_uncarried ls _ fun j hj e => absent ((after j).mp e ▸ hj), stage_tickLine,
        if_pos ((carries l).mpr rfl)]
    · have rest : l ∈ ls := (List.mem_cons.mp hl).resolve_left fun e => here e.symm
      obtain ⟨n, passed⟩ := ih once (tickLine m s) rest after
      have other : ¬ (s.line m).carried = some k := fun e => here ((carries m).mp e)
      refine ⟨n, ?_⟩
      rw [List.foldl_cons, passed, stage_tickLine, if_neg other, (carried_tickLine m l s).2]

/-! ### CLOCK_SECOND (R165) -/

/-- The part with its clocks and its level period a second on. -/
def clocked (s : State) : State := ({ s with clock := s.clock.tick } : State).updGrout Grout.tickPeriod

theorem exec_clockSecond (s : State) : exec .clockSecond s = .next (decideAged (ticked (clocked s))) := rfl

theorem clock_clockSecond (s : State) : (decideAged (ticked (clocked s))).clock = s.clock.tick :=
  ((decideAged_keeps _).2 .clock (by decide) :).trans ((ticked_keeps (clocked s)).2 .clock (by decide) :)

theorem grout_clockSecond (s : State) :
    (decideAged (ticked (clocked s))).grout =
      { s.grout with levelPeriod := s.grout.levelPeriod + 1, aged := (ticked (clocked s)).isAged } := by
  rw [grout_decideAged, (ticked_keeps (clocked s)).grout (by decide)]
  rfl

theorem aged_clockSecond (s : State) :
    (decideAged (ticked (clocked s))).grout.aged = (ticked (clocked s)).isAged := by
  rw [grout_decideAged]

theorem isAged_clockSecond (s : State) :
    (ticked (clocked s)).isAged = true ↔
      ∃ b bs, s.grout.batches = b :: bs ∧ s.settings.ageLimit * 60 < s.clock.tick.site - b.mixedAt := by
  have kept := ticked_keeps (clocked s)
  have settings : (ticked (clocked s)).settings = s.settings := kept.2 .settings (by decide)
  have clock : (ticked (clocked s)).clock = s.clock.tick := kept.2 .clock (by decide)
  have batches : (ticked (clocked s)).grout.batches = s.grout.batches := by
    rw [kept.grout (by decide)]
    rfl
  rw [isAged_iff, settings, clock, batches]

theorem stage_clockSecond (s : State) (k : StageKey) :
    (decideAged (ticked (clocked s))).stage? k = (lineIds.foldl (fun s l => tickLine l s) (clocked s)).stage? k :=
  (decideAged_keeps _).stage (by decide) k

theorem secondsSucc_below {free n : Nat} (h : n < 4294967295) : secondsSucc free n = n + 1 := if_pos h

theorem secondsSucc_top {free n : Nat} (h : 4294967295 ≤ n) : secondsSucc free n = (Config.freeSeconds free).toNat :=
  if_neg (Nat.not_lt.mpr h)

theorem addProgress_active (f : Progress → Progress) (active : x.status = .active) {g : Progress} (hg : x.progress = some g) :
    x.addProgress f = { x with progress := some (f g) } := by
  rw [Stage.addProgress, if_pos active, hg]
  rfl

theorem tick_still {st : LineState} (h : st ∉ [LineState.injecting, .holding]) (free : Nat) (g : Progress) :
    Progress.tick st free g = g := by
  cases st <;> first | rfl | simp at h

/-- Settles O32: the clocks, then every line and its stage by a second, then the aged condition. -/
theorem setTimeAndTheClockSecond : Obligations.SetTimeAndTheClockSecond := by
  refine ⟨fun s p tag n ready => ?_, fun s => ⟨_, exec_clockSecond s, ?_, ?_, fun n given => ?_, fun running => ?_, ?_, ?_, fun l => ?_⟩,
    fun s k x g found hg => ⟨_, exec_clockSecond s, fun l active carries => ?_, fun still => ?_⟩⟩
  · have run := request_console (k := .setTime) rfl tag n setTimeReply ready.1 ready.2.1
    rw [setTimeReply_eq (by rw [heard_stop]; exact ready.2.2), heard_clock] at run
    exact run
  · rw [clock_clockSecond]
    exact (tick_always s.clock).1
  · rw [clock_clockSecond]
    exact (tick_always s.clock).2
  · rw [clock_clockSecond, tick_given s.clock given]
    exact ⟨rfl, rfl⟩
  · rw [clock_clockSecond]
    exact tick_running_facts s.clock running
  · rw [aged_clockSecond, clock_clockSecond]
    exact isAged_clockSecond s
  · rw [grout_clockSecond]
  · rw [aged_clockSecond, line_decideAged, line_ticked, (ticked_keeps (clocked s)).grout (by decide)]
    rfl
  · obtain ⟨n, passed⟩ := stage_tick_carried (k := k) lineIds (by decide) (clocked s) (mem_lineIds l) carries
    have now : (decideAged (ticked (clocked s))).stage? k =
        some { x with progress := some (Progress.tick (s.line l).state n g) } := by
      rw [stage_clockSecond, passed, ← addProgress_active _ active hg]
      exact congrArg (Option.map _) found
    rw [now]
    refine ⟨fun st below => ?_, fun st below => ?_, fun st top => ⟨n, ?_⟩, fun st top => ⟨n, ?_⟩, fun st => ?_⟩
    · rw [st, Progress.tick, secondsSucc_below below]
    · rw [st, Progress.tick, secondsSucc_below below]
    · rw [st, Progress.tick, secondsSucc_top top]
    · rw [st, Progress.tick, secondsSucc_top top]
    · rw [tick_still st, ← hg]
  · rw [stage_clockSecond]
    rcases still with inactive | uncarried
    · exact stage_tick_inactive lineIds (clocked s) found inactive
    · exact (stage_tick_uncarried lineIds (clocked s) fun m _ => uncarried m).trans found

end


section
variable {s t u : State} {p : Port}

/-! ### EXERCISE_STEP (R166) -/

/-- The alerts of the exercise, one for each step. -/
def exerciseAlerts : List AlertKind :=
  [.upliftStop, .lockdown, .estop, .valveFault, .fracture, .overpressure, .sensorLost, .connectionHold]

theorem exerciseKind_succ {n : Nat} (h : n < 8) : ∃ k, exerciseAlerts[n]? = some k ∧ exerciseKind (n + 1) = some k := by
  interval_cases n <;> exact ⟨_, rfl, rfl⟩

theorem advanceExercise_last (h : 8 ≤ s.exercise) : advanceExercise s = { s with exercise := 0 } := by
  have past : ¬ s.exercise < 8 := Nat.not_lt.mpr h
  unfold advanceExercise
  rw [if_neg past]
  rfl

theorem advanceExercise_next {k : AlertKind} (h : s.exercise < 8) (hk : exerciseKind (s.exercise + 1) = some k) :
    advanceExercise s =
      post ⟨k, none, none, some ((s.exercise : Int) + 1), true⟩ allPorts { s with exercise := s.exercise + 1 } := by
  unfold advanceExercise
  rw [if_pos h]
  dsimp only
  rw [hk]
  dsimp only
  rw [Nat.cast_add, Nat.cast_one]

theorem exerciseBarred_iff (s : State) :
    (s.anyLive || s.stop.upliftStop || s.stop.estop) = true ↔
      (∃ l, (s.line l).state ∈ [LineState.opening, .armed, .injecting, .holding]) ∨
        s.stop.upliftStop = true ∨ s.stop.estop = true := by
  rw [Bool.or_eq_true, Bool.or_eq_true, anyLive_iff, or_assoc]

theorem exerciseStepReply_eq (free : s.stop.lockdown = false) :
    exerciseStepReply s =
      if s.anyLive || s.stop.upliftStop || s.stop.estop then refuse .wrongState s
      else accept .header (advanceExercise s) :=
  unlessLocked_free _ free

/-- Settles O33: the step goes from 0 to 8 and back, each but the last with its alert to all six ports. -/
theorem exerciseStepAdvances : Obligations.ExerciseStepAdvances := by
  intro s p tag ready
  have run := request_console (k := .exerciseStep) rfl tag () (fun _ => exerciseStepReply) ready.1 ready.2.1
  have barred := exerciseBarred_iff (heard p s)
  simp only [heard_line_state, heard_stop, heard_anyLive] at barred
  rw [exerciseStepReply_eq (by rw [heard_stop]; exact ready.2.2), heard_stop, heard_anyLive] at run
  refine ⟨fun bars => ?_, fun clear last => ?_, fun clear below => ?_⟩
  · rw [if_pos (barred.mpr bars)] at run
    exact run
  · rw [if_neg (barred.not.mpr clear), advanceExercise_last (by rw [heard_exercise]; exact last)] at run
    exact run
  · obtain ⟨k, listed, kind⟩ := exerciseKind_succ below
    rw [if_neg (barred.not.mpr clear), advanceExercise_next (k := k) (by rw [heard_exercise]; exact below)
      (by rw [heard_exercise]; exact kind), heard_exercise] at run
    exact ⟨k, listed, run⟩

end

end Sys2Proof.Machine
end

section
/-! PROOFS. A warm RESET (R46, R47, R64, R130, R150). -/

namespace Sys2Proof.Machine

section
variable {s t u v : State} {p : Port} {l m : LineId} {k : StageKey} {x : Stage} {a : Posting} {n : Nat} {A : List Part}

/-! ### One line at a warm RESET (R46, R47, R64) -/

/-- A line put into the start check, its grant cut. -/
def Line.restarted (travelTime : Nat) (x : Line) : Line := Line.toStartCheck travelTime { x with grant := none }

/-- The part with one line put into the start check, its stage not yet suspended. -/
def lineRestarted (l : LineId) (s : State) : State :=
  (cutGrant .reset l s).updLine l (Line.toStartCheck s.settings.travelTime)

theorem resetLine_isolated (h : (s.line l).state = .isolated) : resetLine l s = s := if_pos h

theorem resetLine_carrying (h : (s.line l).state ≠ .isolated) (carries : (s.line l).carried = some k) :
    resetLine l s = suspendStage (some l) k .reset (lineRestarted l s) := by
  unfold resetLine
  rw [if_neg h]
  dsimp only
  rw [carries]
  rfl

theorem resetLine_bare (h : (s.line l).state ≠ .isolated) (bare : (s.line l).carried = none) :
    resetLine l s = lineRestarted l s := by
  unfold resetLine
  rw [if_neg h]
  dsimp only
  rw [bare]
  rfl

theorem line_lineRestarted (l m : LineId) (s : State) :
    (lineRestarted l s).line m = if m = l then (s.line l).restarted s.settings.travelTime else s.line m := by
  rw [lineRestarted, line_updLine, line_cutGrant, if_pos rfl, line_cutGrant]
  split
  · rfl
  · rfl

theorem line_resetLine (l m : LineId) (s : State) :
    (resetLine l s).line m =
      if m = l then
        (if (s.line l).state = .isolated then s.line l else (s.line l).restarted s.settings.travelTime)
      else s.line m := by
  by_cases isolated : (s.line l).state = .isolated
  · rw [resetLine_isolated isolated, if_pos isolated]
    split <;> simp_all
  · rw [if_neg isolated, ← line_lineRestarted]
    cases carries : (s.line l).carried with
    | none => rw [resetLine_bare isolated carries]
    | some k =>
      rw [resetLine_carrying isolated carries]
      exact (suspendStage_keeps _ _ _ _).line (by decide) (by decide) (by decide) m

theorem lineRestarted_keeps (l : LineId) (s : State) : keeps [.lines, .cuts] s (lineRestarted l s) :=
  (updLine_keeps l _ _ (by intro; rfl) (by intro; rfl)).after (by decide) ((cutGrant_keeps _ _ _).mono (by decide))

/-- An isolated line carries no stage. -/
theorem carried_isolated {x : Line} (h : x.state = .isolated) : x.carried = none := by
  rw [Line.carried, h]
  rfl

theorem stage_resetLine (l : LineId) (j : StageKey) (s : State) :
    (resetLine l s).stage? j =
      if (s.line l).carried = some j then (s.stage? j).map (Stage.stopped .reset) else s.stage? j := by
  have same (i : StageKey) : (lineRestarted l s).stage? i = s.stage? i := (lineRestarted_keeps l s).stage (by decide) i
  by_cases isolated : (s.line l).state = .isolated
  · have bare : ¬ (s.line l).carried = some j := by rw [carried_isolated isolated]; exact fun h => nomatch h
    rw [resetLine_isolated isolated, if_neg bare]
  · cases carries : (s.line l).carried with
    | none =>
      rw [resetLine_bare isolated carries, same]
      rfl
    | some k =>
      rw [resetLine_carrying isolated carries, stage_suspendStage, same, same]
      by_cases here : j = k
      · subst j; simp
      · have other : ¬ some k = some j := fun e => here (Option.some.inj e).symm
        rw [if_neg here, if_neg other]

/-- What the owner of a grant cut at a warm RESET is told (R64). -/
def resetNotice (l : LineId) (x : Line) (g : Grant) : CutNotice :=
  ⟨l, x.stage.getD ⟨0, 0⟩, if g.phase = .live then .reset else g.endReason.getD .reset⟩

theorem cutGrant_some {g : Grant} (h : (s.line l).grant = some g) :
    cutGrant .reset l s = (s.updLine l (fun x => { x with grant := none })).updPort g.owner
      (fun x => { x with cut := some (resetNotice l (s.line l) g) }) := by
  unfold cutGrant resetNotice
  rw [h]
  dsimp only
  cases g.phase <;> rfl

theorem cutGrant_none (h : (s.line l).grant = none) : cutGrant .reset l s = s := by
  unfold cutGrant
  rw [h]

/-- The port parts a line's restart leaves alone: all but the notice of the grant's owner. -/
theorem port_lineRestarted_part {α : Type} (f : PortRecord → α) (hf : ∀ x c, f { x with cut := c } = f x) (q : Port) :
    f ((lineRestarted l s).port q) = f (s.port q) := by
  rw [lineRestarted, port_updLine]
  cases held : (s.line l).grant with
  | none => rw [cutGrant_none held]
  | some g =>
    rw [cutGrant_some held, State.updPort, port_setPort]
    split
    · subst q; exact hf _ _
    · rfl

theorem cut_resetLine (h : (s.line l).state ≠ .isolated) (q : Port) :
    ((resetLine l s).port q).cut = ((cutGrant .reset l s).port q).cut := by
  cases carries : (s.line l).carried with
  | none => rw [resetLine_bare h carries]; rfl
  | some k =>
    rw [resetLine_carrying h carries]
    exact (suspendStage_keeps _ _ _ _).2 .cuts (by decide) q

theorem cut_resetLine_owner {g : Grant} (h : (s.line l).state ≠ .isolated) (held : (s.line l).grant = some g) :
    ((resetLine l s).port g.owner).cut = some (resetNotice l (s.line l) g) := by
  rw [cut_resetLine h, cutGrant_some held, State.updPort, port_setPort, if_pos rfl]

theorem cut_resetLine_other {q : Port} (h : ∀ g, (s.line l).grant = some g → g.owner ≠ q) :
    ((resetLine l s).port q).cut = (s.port q).cut := by
  by_cases isolated : (s.line l).state = .isolated
  · rw [resetLine_isolated isolated]
  · rw [cut_resetLine isolated]
    cases held : (s.line l).grant with
    | none => rw [cutGrant_none held]
    | some g =>
      rw [cutGrant_some held, State.updPort, port_setPort, if_neg fun e => h g held e.symm]
      rfl

end


section
variable {s t u v : State} {p : Port} {l m : LineId} {k : StageKey} {x : Stage} {a : Posting} {n : Nat} {A : List Part}

/-! ### The queues after a warm RESET (R150, R155)

Emptied, they take at most one alert for each line and one for the mix order: no queue fills, and no slip counts. -/

/-- A short queue takes an alert without a slip. -/
theorem offer_short (top time : Nat) (a : Posting) {x : PortRecord} (short : x.queue.length < 16) :
    (x.offer top time a).2 = false ∧ (x.offer top time a).1.slipFlag = x.slipFlag ∧
    (x.offer top time a).1.slip = x.slip ∧ (x.offer top time a).1.queue.length ≤ x.queue.length + 1 ∧
    ∀ e ∈ (x.offer top time a).1.queue, e ∈ x.queue ∨ (e.kind = a.kind ∧ e.time = time) := by
  by_cases mask : x.unmasked a.kind = true
  · by_cases found : x.queue.any (fun e => e.matchesPosting a) = true
    · rw [offer_merged mask found]
      refine ⟨rfl, rfl, rfl, by simp, fun e he => ?_⟩
      obtain ⟨d, present, rfl⟩ := List.mem_map.mp he
      by_cases same : d.matchesPosting a = true
      · rw [if_pos same]
        exact .inr ⟨((matchesPosting_iff d a).mp same).1, rfl⟩
      · rw [if_neg same]
        exact .inl present
    · rw [offer_appended mask found short]
      refine ⟨rfl, rfl, rfl, by simp, fun e he => ?_⟩
      rcases List.mem_append.mp he with old | new
      · exact .inl old
      · rw [List.mem_singleton.mp new]
        exact .inr ⟨rfl, rfl⟩
  · rw [offer_masked top time (by simpa using mask)]
    exact ⟨rfl, rfl, rfl, Nat.le_succ _, fun e he => .inl he⟩

/-- The queues of a part that a warm RESET has emptied, after up to `n` alerts to the consoles. -/
def Brief (n : Nat) (s t : State) : Prop :=
  t.clock = s.clock ∧ ∀ q, (t.port q).slipFlag = (s.port q).slipFlag ∧ (t.port q).slip = (s.port q).slip ∧
    (q.isConsole = false → (t.port q).queue = []) ∧ (t.port q).queue.length ≤ n ∧
    ∀ e ∈ (t.port q).queue, e.kind ∈ [AlertKind.stageSuspended, .mixOrder] ∧ e.time = s.clock.site

theorem Brief.of_queues (h : Brief n s t) (clock : u.clock = t.clock)
    (queues : ∀ q, (u.port q).queuePart = (t.port q).queuePart) : Brief n s u := by
  refine ⟨clock.trans h.1, fun q => ?_⟩
  have flag : (u.port q).slipFlag = (t.port q).slipFlag := (congrArg PortRecord.slipFlag (queues q) :)
  have slip : (u.port q).slip = (t.port q).slip := (congrArg PortRecord.slip (queues q) :)
  have queue : (u.port q).queue = (t.port q).queue := (congrArg PortRecord.queue (queues q) :)
  rw [flag, slip, queue]
  exact h.2 q

theorem Brief.kept (h : Brief n s t) (kept : keeps A t u)
    (hA : Part.clock ∉ A ∧ Part.queues ∉ A) : Brief n s u :=
  h.of_queues (kept.2 .clock hA.1) (kept.2 .queues hA.2)

theorem Brief.mono {n' : Nat} (h : Brief n s t) (le : n ≤ n') : Brief n' s t :=
  ⟨h.1, fun q => by
    obtain ⟨flag, slip, pumps, length, entries⟩ := h.2 q
    exact ⟨flag, slip, pumps, length.trans le, entries⟩⟩

/-- One more alert, to the consoles. -/
theorem Brief.post (h : Brief n s t) (room : n < 16) (kind : a.kind ∈ [AlertKind.stageSuspended, .mixOrder]) :
    Brief (n + 1) s (post a consolePorts t) := by
  have quiet (q : Port) (_ : q ∈ consolePorts) : ((t.port q).offer t.counterTop t.clock.site a).2 = false :=
    (offer_short _ _ a ((h.2 q).2.2.2.1.trans_lt room)).1
  refine ⟨((post_keeps a consolePorts t).2 .clock (by decide) :).trans h.1, fun q => ?_⟩
  obtain ⟨flag, slip, pumps, length, entries⟩ := h.2 q
  rw [port_post a consolePorts t (by decide) quiet]
  by_cases console : q ∈ consolePorts
  · obtain ⟨-, flag', slip', length', entries'⟩ := offer_short t.counterTop t.clock.site a (length.trans_lt room)
    rw [if_pos console]
    refine ⟨flag'.trans flag, slip'.trans slip, fun pump => ?_, length'.trans (Nat.succ_le_succ length), fun e he => ?_⟩
    · have isConsole : ∀ q ∈ consolePorts, q.isConsole = true := by decide
      exact absurd (isConsole q console) (by rw [pump]; decide)
    · rcases entries' e he with old | ⟨same, now⟩
      · exact entries e old
      · rw [same, now, h.1]
        exact ⟨kind, rfl⟩
  · rw [if_neg console]
    exact ⟨flag, slip, pumps, length.trans (Nat.le_succ n), entries⟩

theorem Brief.suspend (h : Brief n s t) (room : n < 16) (free : (t.line l).owner = none) (k : StageKey) (c : EndCause) :
    Brief (n + 1) s (suspendStage (some l) k c t) := by
  cases found : t.stage? k with
  | none =>
    have same : suspendStage (some l) k c t = t := by simp only [suspendStage, found]
    rw [same]
    exact h.mono (Nat.le_succ n)
  | some x =>
    by_cases active : x.status = .active
    · have saved : keeps [.stages, .writes] t (saveStage k (t.updStage k (Stage.suspendedBy c))) :=
        (saveStage_keeps _ _).after (by decide) ((updStage_keeps _ _ _).mono (by decide))
      have route : (saveStage k (t.updStage k (Stage.suspendedBy c))).lineRoute l = consolePorts := by
        rw [State.lineRoute, saved.line (by decide) (by decide) (by decide), free, Option.toList_none, List.nil_append]
      have posted : suspendStage (some l) k c t = Machine.post
          { kind := .stageSuspended, line := some l, key := some k, detail := some (c.code : Int), exercise := false }
          ((saveStage k (t.updStage k (Stage.suspendedBy c))).lineRoute l)
          (saveStage k (t.updStage k (Stage.suspendedBy c))) := by
        simp only [suspendStage, found, if_pos active]
        rfl
      rw [posted, route]
      exact (h.kept saved (by decide)).post room (List.mem_cons_self)
    · rw [suspendStage_of_ne (some l) c found active]
      exact h.mono (Nat.le_succ n)

theorem Brief.resetLine (h : Brief n s t) (room : n < 16) (l : LineId) : Brief (n + 1) s (resetLine l t) := by
  by_cases isolated : (t.line l).state = .isolated
  · rw [resetLine_isolated isolated]
    exact h.mono (Nat.le_succ n)
  · have restarted : Brief n s (lineRestarted l t) := h.kept (lineRestarted_keeps l t) (by decide)
    cases carries : (t.line l).carried with
    | none =>
      rw [resetLine_bare isolated carries]
      exact restarted.mono (Nat.le_succ n)
    | some k =>
      rw [resetLine_carrying isolated carries]
      refine restarted.suspend room ?_ k .reset
      rw [line_lineRestarted, if_pos rfl]
      rfl

theorem Brief.resetLines (h : Brief n s t) (ls : List LineId) (room : n + ls.length ≤ 16) :
    Brief (n + ls.length) s (ls.foldl (fun s l => Machine.resetLine l s) t) := by
  induction ls generalizing n t with
  | nil => exact h
  | cons l ls ih =>
    rw [List.length_cons] at room
    have rest := ih (h.resetLine (by omega) l) (by omega)
    rw [List.foldl_cons, List.length_cons, Nat.add_comm ls.length 1, ← Nat.add_assoc]
    exact rest

theorem Brief.formMixOrder (h : Brief n s t) (room : n < 16) : Brief (n + 1) s (formMixOrder t) := by
  unfold Machine.formMixOrder
  dsimp only
  split
  · exact h.mono (Nat.le_succ n)
  · exact (h.kept (A := [.mixOrder]) (setMixOrder_keeps _ t) (by decide)).post room
        (List.mem_cons_of_mem _ List.mem_cons_self)

end


section
variable {s t u v : State} {p : Port} {l m : LineId} {k : StageKey} {x : Stage} {a : Posting} {n : Nat} {A : List Part}

/-! ### A warm RESET (R47, R150) -/

/-- The part as a warm RESET finds its lines: out of LOCKDOWN, the queues empty, no exercise and no hold of all lines. -/
def quieted (s : State) : State :=
  { emptyQueues (s.updStop (fun x => { x with lockdown := false })) with exercise := 0, holdAll := false }

/-- Every line put into the start check. -/
def restarted (s : State) : State := forLines resetLine (quieted s)

/-- The start check begun, at once over where no line is in it, and the mix order formed. -/
def checkBegun (v : State) : State :=
  formMixOrder (settleStartCheck (v.updStop (fun x => { x with startCheck := true })))

theorem warmReset_eq (s : State) : warmReset s = checkBegun (restarted s) := rfl

theorem checked_keeps (v : State) :
    keeps [.startCheck] v (settleStartCheck (v.updStop (fun x => { x with startCheck := true }))) :=
  (settleStartCheck_keeps _).after (by decide) ((setStartCheck_keeps true v).mono (by decide))

theorem checkBegun_keeps (v : State) : keeps [.startCheck, .mixOrder, .queues] v (checkBegun v) :=
  (formMixOrder_keeps _).after (by decide) ((checked_keeps v).mono (by decide))

theorem stop_checkBegun (v : State) :
    (checkBegun v).stop = { v.stop with
      startCheck := v.anyLine fun x => x.startCheck
      checkDone := v.stop.checkDone || !v.anyLine fun x => x.startCheck } := by
  have lines : ((v.updStop fun x => { x with startCheck := true }).anyLine fun x => x.startCheck) =
      v.anyLine fun x => x.startCheck := rfl
  rw [checkBegun, (formMixOrder_keeps _).stop (by decide), stop_settleStartCheck rfl, lines, stop_updStop]

theorem port_emptyQueues (s : State) (q : Port) : (emptyQueues s).port q = { s.port q with queue := [] } :=
  port_each (P := fun _ => True) (h := fun _ x => { x with queue := [] }) (fun _ _ _ => trivial)
    (fun _ _ _ _ => port_setPort _ _ _ _) trivial q

theorem emptyQueues_same {α : Type} (part : State → α) (h : ∀ s p f, part (State.updPort p f s) = part s) (s : State) :
    part (emptyQueues s) = part s := foldl_same (fun s p => h s p _) _ s

theorem quieted_keeps (s : State) : keeps [.lockdown, .queues, .exercise, .holdAll] s (quieted s) :=
  (quietExercise_keeps _).after (by decide) ((emptyQueues_keeps _).after (by decide)
    ((setLockdown_keeps false s).mono (by decide)))

theorem stop_quieted (s : State) : (quieted s).stop = { s.stop with lockdown := false } :=
  emptyQueues_same State.stop (fun _ _ _ => rfl) _

theorem line_quieted (s : State) (m : LineId) : (quieted s).line m = s.line m :=
  (quieted_keeps s).line (by decide) (by decide) (by decide) m

theorem port_quieted (s : State) (q : Port) : (quieted s).port q = { s.port q with queue := [] } :=
  port_emptyQueues (s.updStop (fun x => { x with lockdown := false })) q

theorem quieted_brief (s : State) : Brief 0 s (quieted s) := by
  refine ⟨(quieted_keeps s).2 .clock (by decide), fun q => ?_⟩
  rw [port_quieted]
  exact ⟨rfl, rfl, fun _ => rfl, Nat.le_refl 0, fun e he => nomatch he⟩

theorem restarted_keeps (s : State) : keeps [.lines, .cuts, .stages, .writes, .queues] (quieted s) (restarted s) :=
  forLines_keeps _ _ resetLine_keeps

theorem line_restarted (s : State) (m : LineId) :
    (restarted s).line m =
      if (s.line m).state = .isolated then s.line m else (s.line m).restarted s.settings.travelTime := by
  have travel : (quieted s).settings = s.settings := (quieted_keeps s).2 .settings (by decide)
  have each := line_forLines (P := fun u => u.settings = s.settings)
    (g := fun _ x => if x.state = .isolated then x else x.restarted s.settings.travelTime)
    (fun l u hu => ((resetLine_keeps l u).2 .settings (by decide) :).trans hu)
    (fun l m u hu => by rw [line_resetLine, hu]) travel m
  rw [restarted, each, line_quieted]


theorem line_warmReset (s : State) (m : LineId) :
    (warmReset s).line m =
      if (s.line m).state = .isolated then s.line m else (s.line m).restarted s.settings.travelTime :=
  ((checkBegun_keeps (restarted s)).line (by decide) (by decide) (by decide) m).trans (line_restarted s m)

theorem warmReset_brief (s : State) : Brief 9 s (warmReset s) := by
  have lines : Brief 8 s (restarted s) := (quieted_brief s).resetLines lineIds (by decide)
  exact (lines.kept (checked_keeps (restarted s)) (by decide)).formMixOrder (by decide)

/-- A line is in the start check after a warm RESET unless it is isolated and was not. -/
theorem startCheck_restarted (s : State) :
    ((restarted s).anyLine fun x => x.startCheck) = true ↔
      ∃ l, (s.line l).state ≠ .isolated ∨ (s.line l).startCheck = true := by
  rw [State.anyLine, List.any_eq_true]
  refine exists_congr fun l => (and_iff_right (mem_lineIds l)).trans ?_
  rw [line_restarted]
  by_cases isolated : (s.line l).state = .isolated
  · simp [isolated]
  · rw [if_neg isolated]
    exact iff_of_true rfl (.inl isolated)

theorem stop_warmReset (s : State) :
    (warmReset s).stop = { s.stop with
      lockdown := false
      startCheck := (restarted s).anyLine fun x => x.startCheck
      checkDone := s.stop.checkDone || !(restarted s).anyLine fun x => x.startCheck } := by
  rw [warmReset_eq, stop_checkBegun, (restarted_keeps s).stop (by decide), stop_quieted]

/-- The stages that lines carry, suspended one line after another. -/
theorem stage_resetLines (ls : List LineId) (once : ls.Nodup) (s : State) (j : StageKey) :
    (ls.foldl (fun s l => resetLine l s) s).stage? j =
      if ∃ l ∈ ls, (s.line l).carried = some j then (s.stage? j).map (Stage.stopped .reset) else s.stage? j := by
  have twice (y : Stage) : Stage.stopped .reset (Stage.stopped .reset y) = Stage.stopped .reset y := by
    unfold Stage.stopped Stage.suspendedBy
    split <;> simp_all
  induction ls generalizing s with
  | nil => simp
  | cons l ls ih =>
    obtain ⟨absent, once⟩ := List.nodup_cons.mp once
    have others (m : LineId) (hm : m ∈ ls) : (resetLine l s).line m = s.line m := by
      rw [line_resetLine, if_neg fun e : m = l => absent (e ▸ hm)]
    have rest : (∃ m ∈ ls, ((resetLine l s).line m).carried = some j) ↔ ∃ m ∈ ls, (s.line m).carried = some j :=
      exists_congr fun m => and_congr_right fun hm => by rw [others m hm]
    rw [List.foldl_cons, ih once, stage_resetLine]
    simp only [rest, List.mem_cons, exists_eq_or_imp]
    by_cases here : (s.line l).carried = some j
    · simp [here, Function.comp_def, twice]
    · simp [here]

theorem stage_warmReset (s : State) (j : StageKey) :
    (warmReset s).stage? j =
      if ∃ l, (s.line l).carried = some j then (s.stage? j).map (Stage.stopped .reset) else s.stage? j := by
  have same : (quieted s).stage? j = s.stage? j := (quieted_keeps s).stage (by decide) j
  have carried : (∃ l ∈ lineIds, ((quieted s).line l).carried = some j) ↔ ∃ l, (s.line l).carried = some j :=
    exists_congr fun l => (and_iff_right (mem_lineIds l)).trans (by rw [line_quieted])
  rw [warmReset_eq, (checkBegun_keeps (restarted s)).stage (by decide), restarted, forLines,
    stage_resetLines _ (by decide), same]
  simp only [carried]

theorem grant_resetLine {g : Grant} (h : ((resetLine l s).line m).grant = some g) : (s.line m).grant = some g := by
  rw [line_resetLine] at h
  by_cases here : m = l
  · rw [if_pos here] at h
    subst m
    by_cases isolated : (s.line l).state = .isolated
    · rwa [if_pos isolated] at h
    · rw [if_neg isolated] at h
      exact nomatch h
  · rwa [if_neg here] at h

/-- The notice to the owner of the one grant a port has, as some lines are put into the start check. -/
theorem cut_resetLines {g : Grant} (ls : List LineId) (once : ls.Nodup) (s : State) (hl : l ∈ ls)
    (active : (s.line l).state ≠ .isolated) (held : (s.line l).grant = some g)
    (alone : ∀ m h, (s.line m).grant = some h → h.owner = g.owner → m = l) :
    ((ls.foldl (fun s l => resetLine l s) s).port g.owner).cut = some (resetNotice l (s.line l) g) := by
  have later (ms : List LineId) (u : State) (none : ∀ m ∈ ms, ∀ h, (u.line m).grant = some h → h.owner ≠ g.owner)
      (once : ms.Nodup) : ((ms.foldl (fun s l => resetLine l s) u).port g.owner).cut = (u.port g.owner).cut := by
    induction ms generalizing u with
    | nil => rfl
    | cons m ms ih =>
      obtain ⟨absent, once⟩ := List.nodup_cons.mp once
      have rest (j : LineId) (hj : j ∈ ms) (h : Grant) (e : ((resetLine m u).line j).grant = some h) :
          h.owner ≠ g.owner := by
        rw [line_resetLine, if_neg fun e : j = m => absent (e ▸ hj)] at e
        exact none j (List.mem_cons_of_mem _ hj) h e
      rw [List.foldl_cons, ih _ rest once, cut_resetLine_other (none m List.mem_cons_self)]
  induction ls generalizing s with
  | nil => cases hl
  | cons m ls ih =>
    obtain ⟨absent, rest⟩ := List.nodup_cons.mp once
    have others (j : LineId) (hj : j ≠ m) : (resetLine m s).line j = s.line j := by
      rw [line_resetLine, if_neg hj]
    by_cases here : m = l
    · subst m
      have none (j : LineId) (hj : j ∈ ls) (h : Grant) (e : ((resetLine l s).line j).grant = some h) :
          h.owner ≠ g.owner := fun same => absent (alone j h (grant_resetLine e) same ▸ hj)
      rw [List.foldl_cons, later ls _ none rest, cut_resetLine_owner active held]
    · have apart : l ≠ m := fun e => here e.symm
      have found := ih rest (resetLine m s) ((List.mem_cons.mp hl).resolve_left apart)
        (by rw [others l apart]; exact active) (by rw [others l apart]; exact held)
        (fun j h e same => alone j h (grant_resetLine e) same)
      rw [List.foldl_cons, found, others l apart]

end


section
variable {s t u : State} {p : Port} {n : Nat}

theorem resetReply_bad (h : 1 < n) : resetReply n s = refuse .badArgument s :=
  if_pos (by simp [isFlag, Nat.not_le.mpr h])

theorem resetBusy_iff (s : State) (n : Nat) :
    (!s.stop.lockdown && s.anyLive && n == 0) = true ↔
      s.stop.lockdown = false ∧ n = 0 ∧ ∃ l, (s.line l).state ∈ [LineState.opening, .armed, .injecting, .holding] := by
  rw [Bool.and_eq_true, Bool.and_eq_true, anyLive_iff, Bool.not_eq_true', beq_iff_eq]
  tauto

theorem resetReply_flag (h : n ≤ 1) :
    resetReply n s =
      if !s.stop.lockdown && s.anyLive && n == 0 then refuse .busy s else accept .header (warmReset s) :=
  if_neg (by simp [isFlag, h])

/-- A line put into the start check is the same whether or not its keepalive was restarted first. -/
theorem restarted_heard (l : LineId) (n : Nat) : ((heard p s).line l).restarted n = (s.line l).restarted n :=
  heard_line_part p s (fun x => x.restarted n) l (fun _ _ => rfl)

/-- The grant of a line once a request has been taken: the same but for its timers. -/
theorem grant_heard {l : LineId} {g : Grant} (held : (s.line l).grant = some g) :
    ∃ g', ((heard p s).line l).grant = some g' ∧ g'.owner = g.owner ∧ g'.phase = g.phase ∧ g'.endReason = g.endReason := by
  rw [heard_line]
  split
  · rw [held]
    refine ⟨_, rfl, ?_⟩
    dsimp only
    split <;> exact ⟨rfl, rfl, rfl⟩
  · exact ⟨g, held, rfl, rfl, rfl⟩

theorem heard_carried (l : LineId) : ((heard p s).line l).carried = (s.line l).carried :=
  heard_line_part p s Line.carried l (fun _ _ => rfl)

theorem grant_of_heard {l : LineId} {g : Grant} (held : ((heard p s).line l).grant = some g) :
    ∃ g', (s.line l).grant = some g' ∧ g'.owner = g.owner := by
  have owner := heard_line_owner p s l
  rw [Line.owner, held, Line.owner, Option.map_some, eq_comm, Option.map_eq_some_iff] at owner
  exact owner

theorem mixOrder_checkBegun (v : State) :
    (checkBegun v).grout.mixOrder = lowestClass (checkBegun v).orderInputs := mixOrder_formMixOrder _

theorem mixOrder_warmReset (s : State) : (warmReset s).grout.mixOrder = lowestClass (warmReset s).orderInputs := by
  rw [warmReset_eq]
  exact mixOrder_checkBegun _

theorem quieted_flags (s : State) : (quieted s).exercise = 0 ∧ (quieted s).holdAll = false := ⟨rfl, rfl⟩

theorem flags_warmReset (s : State) : (warmReset s).exercise = 0 ∧ (warmReset s).holdAll = false := by
  have settled := checkBegun_keeps (restarted s)
  have lines := restarted_keeps s
  rw [warmReset_eq]
  exact ⟨(settled.2 .exercise (by decide) :).trans ((lines.2 .exercise (by decide) :).trans (quieted_flags s).1),
    (settled.2 .holdAll (by decide) :).trans ((lines.2 .holdAll (by decide) :).trans (quieted_flags s).2)⟩

/-- The notice to the owner of the one grant a port has. -/
theorem cut_warmReset {l : LineId} {g : Grant} (active : (s.line l).state ≠ .isolated)
    (held : (s.line l).grant = some g) (alone : ∀ m h, (s.line m).grant = some h → h.owner = g.owner → m = l) :
    ((warmReset s).port g.owner).cut = some (resetNotice l (s.line l) g) := by
  have settled := (checkBegun_keeps (restarted s)).2 .cuts (by decide) g.owner
  have cut := cut_resetLines (g := g) (l := l) lineIds (by decide) (quieted s) (mem_lineIds l)
    (by rw [line_quieted]; exact active) (by rw [line_quieted]; exact held)
    (fun m h e => alone m h (by rwa [line_quieted] at e))
  rw [line_quieted] at cut
  exact settled.trans cut

/-- Settles O34: a warm RESET refused, or taken: each line that is not isolated starts its check again. -/
theorem warmResetRestartsTheCheck : Obligations.WarmResetRestartsTheCheck := by
  intro s p tag n console listens
  have run := request_console (k := .reset) rfl tag n resetReply console listens
  have busy := resetBusy_iff (heard p s) n
  simp only [heard_stop, heard_line_state] at busy
  refine ⟨fun bad => ?_, fun isBusy => ?_, fun flag free => ?_⟩
  · rw [resetReply_bad bad] at run
    exact run
  · rw [resetReply_flag (by omega), heard_stop, if_pos (busy.mpr isBusy)] at run
    exact run
  · rw [resetReply_flag flag, heard_stop, if_neg (busy.not.mpr free)] at run
    obtain ⟨clock, queues⟩ := warmReset_brief (heard p s)
    obtain ⟨exercise, holdAll⟩ := flags_warmReset (heard p s)
    have stop := stop_warmReset (heard p s)
    rw [heard_stop] at stop
    refine ⟨_, run, ?_, ?_, exercise, holdAll, mixOrder_warmReset _, fun q => ?_, fun l isolated => ?_, fun l active => ?_,
      fun l g active held alone => ?_, fun k x found => ⟨fun carried active => ?_, fun still => ?_⟩⟩
    · rw [stop]
    · have check : (warmReset (heard p s)).stop.startCheck = (restarted (heard p s)).anyLine fun x => x.startCheck := by
        rw [stop]
      rw [check, startCheck_restarted]
      exact exists_congr fun l => by
        rw [heard_line_state, heard_line_part p s Line.startCheck l (fun _ _ => rfl)]
    · obtain ⟨flag, slip, pumps, -, entries⟩ := queues q
      rw [heard_clock] at entries
      exact ⟨flag.trans (heard_port_part PortRecord.slipFlag (fun _ => rfl) q),
        slip.trans (heard_port_part PortRecord.slip (fun _ => rfl) q), pumps, entries⟩
    · rw [line_warmReset, heard_line_state, if_pos isolated]
    · rw [line_warmReset, heard_line_state, if_neg active, heard_settings, restarted_heard]
      rfl
    · obtain ⟨g', held', owner, phase, reason⟩ := grant_heard (p := p) held
      have only (m : LineId) (h : Grant) (e : ((heard p s).line m).grant = some h) (same : h.owner = g'.owner) : m = l := by
        obtain ⟨h', e', owner'⟩ := grant_of_heard e
        exact alone m h' e' (owner'.trans (same.trans owner))
      have cut := cut_warmReset (by rw [heard_line_state]; exact active) held' only
      rw [resetNotice, heard_line_stage, owner, phase, reason] at cut
      exact cut
    · have carries : ∃ l, ((heard p s).line l).carried = some k := by simpa only [heard_carried] using carried
      rw [stage_warmReset, if_pos carries, heard_stage?, found, Option.map_some, Stage.stopped, if_pos active]
    · rw [stage_warmReset, heard_stage?, found]
      rcases still with uncarried | inactive
      · have none : ¬ ∃ l, ((heard p s).line l).carried = some k := by simpa only [heard_carried, not_exists] using uncarried
        rw [if_neg none]
      · rw [Option.map_some, Stage.stopped, if_neg inactive, ite_self]

end

end Sys2Proof.Machine
end

section
/-! PROOFS. CLAIM and PUMP_STATUS (R20, R51 to R53, R56, R65). -/

namespace Sys2Proof.Machine

section
variable {s t u : State} {p : Port} {l m : LineId} {x : Stage} {a : ClaimArgs} {g : Grant} {n : Nat}

/-! ### The port and its grant (R49, R51) -/

theorem heard_line_without (h : s.portGrant p = none) (m : LineId) : (heard p s).line m = s.line m := by
  rw [heard_line, h]
  exact if_neg (fun e => nomatch e)

/-- Taking a request leaves a line's directive. -/
theorem heard_directive (l : LineId) : ((heard p s).line l).directive = (s.line l).directive := by
  rw [heard_line]
  split
  · unfold Line.directive
    cases (s.line l).grant with
    | none => rfl
    | some g => cases live : g.phase <;> simp [live]
  · rfl

theorem heard_effectiveClass (l : LineId) : ((heard p s).line l).effectiveClass = (s.line l).effectiveClass :=
  heard_line_part p s Line.effectiveClass l (fun _ _ => rfl)

/-- The phase of a line's grant is as it was. -/
theorem heard_grant_phase (l : LineId) :
    ((heard p s).line l).grant.map Grant.phase = (s.line l).grant.map Grant.phase := by
  rw [heard_line]
  split
  · cases (s.line l).grant with
    | none => rfl
    | some g =>
      dsimp only [Option.map_some]
      split <;> rfl
  · rfl

/-! ### The checks of a CLAIM (R51) -/

/-- A CLAIM from a pump port in a part that takes it. -/
theorem exec_claim (ready : pumpReady s p) (tag : Byte) (a : ClaimArgs) :
    exec (.claim p tag (.args a)) s = .next (respond p RequestKind.claim.code tag (claimReply p a (heard p s))) :=
  request_taken .claim tag a (claimReply p) ready.2.1 (permits_of_pumpReady (k := .claim) rfl ready)

theorem claim_refused (ready : pumpReady s p) (tag : Byte) {st : Status}
    (h : claimReply p a (heard p s) = refuse st (heard p s)) :
    refuses (.claim p tag (.args a)) s p .claim tag st := by
  have run := exec_claim ready tag a
  rw [h] at run
  exact run

theorem claimReply_eq (p : Port) (a : ClaimArgs) (free : s.stop.lockdown = false) :
    claimReply p a s =
      if s.stop.upliftStop || s.stop.estop then refuse .permitOpen s
      else if s.exercise ≠ 0 then refuse .exerciseActive s
      else claimGrant p a s :=
  unlessLocked_free _ free

/-- A CLAIM past the first of R51's steps. -/
theorem claimReply_permitted (p : Port) (a : ClaimArgs) (free : s.stop.lockdown = false)
    (permit : s.stop.upliftStop = false ∧ s.stop.estop = false) (quiet : s.exercise = 0) :
    claimReply p a s = claimGrant p a s := by
  rw [claimReply_eq p a free, permit.1, permit.2]
  exact (if_neg (by decide)).trans (if_neg (not_not.mpr quiet))

theorem claimGrant_held (held : s.portGrant p = some l) :
    claimGrant p a s =
      if ((s.line l).grant.map Grant.phase) = some .live ∧ a.line = l.val ∧ (s.line l).stage = some a.key then
        accept (claimAnswer l a.key s) s
      else refuse .portHasGrant s := by
  rw [claimGrant, held]

theorem claimGrant_bad (free : s.portGrant p = none)
    (bad : 8 ≤ a.line ∨ ¬ a.key.valid = true ∨ s.stage? a.key = none) : claimGrant p a s = refuse .badArgument s := by
  rw [claimGrant, free]
  dsimp only
  cases named : lineOf? a.line with
  | none => rfl
  | some l =>
    have inside : ¬ 8 ≤ a.line := fun outside => by simp [lineOf?_eq_none outside] at named
    cases found : s.stage? a.key with
    | none => rfl
    | some x =>
      refine if_neg fun valid => ?_
      rcases bad with outside | invalid | absent
      · exact inside outside
      · exact invalid valid
      · exact nomatch found.symm.trans absent

theorem claimGrant_stage (free : s.portGrant p = none) (hl : a.line = l.val) (valid : a.key.valid = true)
    (found : s.stage? a.key = some x) : claimGrant p a s = claimStage p l x s := by
  rw [claimGrant, free]
  dsimp only
  rw [hl, lineOf?_val, found]
  exact if_pos valid

/-! Steps 4 to 7, each where the ones before it have passed. -/

theorem claimStage_held (held : (s.line l).state ≠ .idle) : claimStage p l x s = refuse .lineHeld s := if_pos held

theorem claimStage_idle (idle : (s.line l).state = .idle) :
    claimStage p l x s =
      if x.status ≠ .ready then refuse .stageNotReady s
      else if s.grout.batches.isEmpty then refuse .noGrout s
      else if s.grout.aged then refuse .groutAged s
      else if x.fields.startClass < s.grout.tankClass then claimTooThick x.key s
      else accept (claimAnswer l x.key (grantClaim p l x s)) (grantClaim p l x s) :=
  if_neg (fun h => h idle)

theorem claimStage_ready (idle : (s.line l).state = .idle) (ready : x.status = .ready) :
    claimStage p l x s =
      if s.grout.batches.isEmpty then refuse .noGrout s
      else if s.grout.aged then refuse .groutAged s
      else if x.fields.startClass < s.grout.tankClass then claimTooThick x.key s
      else accept (claimAnswer l x.key (grantClaim p l x s)) (grantClaim p l x s) :=
  (claimStage_idle idle).trans (if_neg (fun h => h ready))

theorem claimStage_grouted (idle : (s.line l).state = .idle) (ready : x.status = .ready) (grout : s.grout.batches ≠ []) :
    claimStage p l x s =
      if s.grout.aged then refuse .groutAged s
      else if x.fields.startClass < s.grout.tankClass then claimTooThick x.key s
      else accept (claimAnswer l x.key (grantClaim p l x s)) (grantClaim p l x s) :=
  (claimStage_ready idle ready).trans (if_neg (by simpa using grout))

theorem claimStage_fresh (idle : (s.line l).state = .idle) (ready : x.status = .ready) (grout : s.grout.batches ≠ [])
    (fresh : s.grout.aged = false) :
    claimStage p l x s =
      if x.fields.startClass < s.grout.tankClass then claimTooThick x.key s
      else accept (claimAnswer l x.key (grantClaim p l x s)) (grantClaim p l x s) :=
  (claimStage_grouted idle ready grout).trans (if_neg (by rw [fresh]; decide))

/-- A stage that waits for its mix (R20). -/
def waitsForMix (k : StageKey) (s : State) : State := formMixOrder (s.updStage k (fun x => { x with waiting := true }))

theorem stage_waitsForMix (k j : StageKey) (s : State) :
    (waitsForMix k s).stage? j =
      if j = k then (s.stage? k).map (fun x => { x with waiting := true }) else s.stage? j :=
  ((formMixOrder_keeps _).stage (by decide) j).trans (stage_updStage s k j (fun x => { x with waiting := true }) (fun _ => rfl))

theorem waitsForMix_keeps (k : StageKey) (s : State) : keeps [.stages, .mixOrder, .queues] s (waitsForMix k s) :=
  (formMixOrder_keeps _).after (by decide) ((updStage_keeps _ _ s).mono (by decide))

/-- Settles O35: the checks of a CLAIM in the order of R51, and the wait of a stage whose mix is too thick. -/
theorem claimChecksComeInOrder : Obligations.ClaimChecksComeInOrder := by
  intro s p tag a ready
  have free : (heard p s).stop.lockdown = false := by rw [heard_stop]; exact ready.2.2
  have permitted (permit : s.stop.upliftStop = false ∧ s.stop.estop = false) (quiet : s.exercise = 0) :
      claimReply p a (heard p s) = claimGrant p a (heard p s) :=
    claimReply_permitted p a free (by rw [heard_stop]; exact permit) (by rw [heard_exercise]; exact quiet)
  refine ⟨fun shut => ?_, fun permit loud => ?_, fun permit quiet l held => ⟨fun repeated => ?_, fun other => ?_⟩,
    fun permit quiet none => ⟨fun bad => ?_, fun l x hl keyOk found => ?_⟩⟩
  · refine claim_refused ready tag ((claimReply_eq p a free).trans (if_pos ?_))
    rw [heard_stop]
    cases up : s.stop.upliftStop <;> cases es : s.stop.estop <;> simp_all
  · refine claim_refused ready tag ((claimReply_eq p a free).trans ((if_neg ?_).trans (if_pos ?_)))
    · rw [heard_stop, permit.1, permit.2]
      decide
    · rw [heard_exercise]
      exact loud
  · obtain ⟨⟨g, grant, live⟩, line, key⟩ := repeated
    have run := exec_claim ready tag a
    have again : ((heard p s).line l).grant.map Grant.phase = some .live ∧ a.line = l.val ∧
        ((heard p s).line l).stage = some a.key := by
      rw [heard_grant_phase, grant, heard_line_stage, Option.map_some, live]
      exact ⟨rfl, line, key⟩
    rw [permitted permit quiet, claimGrant_held (by rw [heard_portGrant]; exact held), if_pos again, claimAnswer,
      heard_line_state, heard_directive, heard_effectiveClass, heard_settings] at run
    exact run
  · refine claim_refused ready tag ((permitted permit quiet).trans
      ((claimGrant_held (by rw [heard_portGrant]; exact held)).trans (if_neg fun again => other ?_)))
    rw [heard_grant_phase, heard_line_stage, Option.map_eq_some_iff] at again
    exact again
  · refine claim_refused ready tag ((permitted permit quiet).trans (claimGrant_bad (by rw [heard_portGrant]; exact none) ?_))
    rw [heard_stage?, valid_iff]
    exact bad
  · have stage := (permitted permit quiet).trans
      (claimGrant_stage (s := heard p s) (by rw [heard_portGrant]; exact none) hl ((valid_iff a.key).mpr keyOk)
        (by rw [heard_stage?]; exact found))
    have lines := heard_line_without (s := s) none
    have grout := heard_grout p s
    rw [← lines] 
    refine ⟨fun held => ?_, fun idle unready => ?_, fun idle isReady empty => ?_, fun idle isReady some aged => ?_,
      fun idle isReady some fresh thick => ?_⟩
    · exact claim_refused ready tag (stage.trans (claimStage_held held))
    · exact claim_refused ready tag (stage.trans ((claimStage_idle idle).trans (if_pos unready)))
    · exact claim_refused ready tag (stage.trans ((claimStage_ready idle isReady).trans
        (if_pos (by rw [grout, empty]; rfl))))
    · exact claim_refused ready tag (stage.trans ((claimStage_grouted idle isReady (by rw [grout]; exact some)).trans
        (if_pos (by rw [grout]; exact aged))))
    · have key : x.key = a.key := key_of_lookupStage found
      have run := exec_claim ready tag a
      rw [stage, claimStage_fresh idle isReady (by rw [grout]; exact some) (by rw [grout]; exact fresh),
        if_pos (by rw [grout]; exact thick), key] at run
      have kept := waitsForMix_keeps a.key (heard p s)
      refine ⟨waitsForMix a.key (heard p s), run, ?_, fun j hj => ?_, fun m => ?_, ?_, mixOrder_formMixOrder _⟩
      · rw [stage_waitsForMix, if_pos rfl, heard_stage?, found]
        rfl
      · rw [stage_waitsForMix, if_neg hj, heard_stage?]
      · rw [kept.line (by decide) (by decide) (by decide), lines]
      · exact (kept.2 .writes (by decide) :).trans (by rw [heard_store])

end


section
variable {s t u : State} {p : Port} {l m : LineId} {x : Stage} {a : ClaimArgs} {g : Grant} {n : Nat}

/-! ### A claim granted (R52) -/

theorem portGrant_grantClaim (free : s.portGrant p = none) (l : LineId) (x : Stage) :
    (grantClaim p l x s).portGrant p = some l := by
  have owner (m : LineId) : ((grantClaim p l x s).line m).owner = some p ↔ m = l := by
    rw [line_grantClaim]
    split
    · exact iff_of_true rfl ‹_›
    · exact iff_of_false (owner_of_portGrant free m) ‹_›
  have some : ((grantClaim p l x s).portGrant p).isSome = true := (portGrant_isSome _ _).mpr ⟨l, (owner l).mpr rfl⟩
  obtain ⟨m, found⟩ := Option.isSome_iff_exists.mp some
  have owns : ((grantClaim p l x s).line m).owner = Option.some p := by
    have sat := List.find?_some found
    simpa using sat
  rw [found, (owner m).mp owns]

/-- What a granted claim has changed before its stage. -/
def grantMade (p : Port) (l : LineId) (x : Stage) (s : State) : State :=
  (s.updLine l (Line.toOpening (Grant.fresh p s.settings) x.key (min x.fields.startClass s.grout.tankClass)
    s.settings.travelTime)).updPort p (fun y => { y with cut := none })

theorem grantClaim_eq (p : Port) (l : LineId) (x : Stage) (s : State) :
    grantClaim p l x s = formMixOrder (saveStage x.key ((grantMade p l x s).updStage x.key
      (Stage.activate (min x.fields.startClass s.grout.tankClass)))) := rfl

theorem cut_grantMade (p : Port) (l : LineId) (x : Stage) (s : State) : ((grantMade p l x s).port p).cut = none := by
  rw [grantMade, State.updPort, port_setPort_self]

theorem cut_grantClaim (p : Port) (l : LineId) (x : Stage) (s : State) : ((grantClaim p l x s).port p).cut = none := by
  have stored : keeps [.stages, .writes, .mixOrder, .queues] (grantMade p l x s) (grantClaim p l x s) := by
    rw [grantClaim_eq]
    exact (formMixOrder_keeps _).after (by decide) ((saveStage_keeps _ _).after (by decide)
      ((updStage_keeps _ _ _).mono (by decide)))
  exact (stored.2 .cuts (by decide) p).trans (cut_grantMade p l x s)

theorem store_grantMade (p : Port) (l : LineId) (x : Stage) (s : State) : (grantMade p l x s).store = s.store := rfl

theorem writes_grantClaim (found : s.stage? x.key = some x) :
    (grantClaim p l x s).store.writes =
      begun s (.stage (x.activate (min x.fields.startClass s.grout.tankClass)).stored) := by
  have there : (grantMade p l x s).stage? x.key = some x := found
  have changed : ((grantMade p l x s).updStage x.key (Stage.activate (min x.fields.startClass s.grout.tankClass))).stage? x.key =
      some (x.activate (min x.fields.startClass s.grout.tankClass)) := by
    rw [stage_updStage _ x.key x.key (Stage.activate _) (fun _ => rfl), if_pos rfl, there, Option.map_some]
  rw [grantClaim_eq, ((formMixOrder_keeps _).2 .writes (by decide) : _ = _), writes_saveStage changed]
  rfl

theorem mixOrder_grantClaim (p : Port) (l : LineId) (x : Stage) (s : State) :
    (grantClaim p l x s).grout.mixOrder = lowestClass (grantClaim p l x s).orderInputs := by
  rw [grantClaim_eq]
  exact mixOrder_formMixOrder _

theorem raiseClass_eq (cls : Nat) :
    Progress.raiseClass cls = fun g => { g with maxClass := if g.maxClass < cls then cls else g.maxClass } := by
  funext g
  have highest : max g.maxClass cls = if g.maxClass < cls then cls else g.maxClass := by
    split <;> omega
  rw [Progress.raiseClass, highest]

/-- Settles O36: the line taken to OPENING under the grant, the stage ACTIVE and written, the mix order formed. -/
theorem claimIsGranted : Obligations.ClaimIsGranted := by
  intro s p tag a l x ready noStop noEstop quiet none hole hole' stage stage' hl found idle isReady some fresh cls
  have key : x.key = a.key := key_of_lookupStage found
  have free : (heard p s).stop.lockdown = false := by rw [heard_stop]; exact ready.2.2
  have grout := heard_grout p s
  have lines := heard_line_without (s := s) none
  have without : (heard p s).portGrant p = Option.none := by rw [heard_portGrant]; exact none
  have present : (heard p s).stage? x.key = Option.some x := by rw [heard_stage?, key]; exact found
  have thin : ¬ x.fields.startClass < (heard p s).grout.tankClass := by rw [grout]; omega
  have reply : claimReply p a (heard p s) = accept (claimAnswer l x.key (grantClaim p l x (heard p s)))
      (grantClaim p l x (heard p s)) := by
    rw [claimReply_permitted p a free (by rw [heard_stop]; exact ⟨noStop, noEstop⟩) (by rw [heard_exercise]; exact quiet),
      claimGrant_stage without hl ((valid_iff a.key).mpr ⟨hole, hole', stage, stage'⟩) (by rw [← key]; exact present),
      claimStage_fresh (by rw [lines]; exact idle) isReady (by rw [grout]; exact some) (by rw [grout]; exact fresh),
      if_neg thin]
  have line := line_grantClaim p l l x (heard p s)
  rw [if_pos rfl, lines, grout, heard_settings, key] at line
  have settings : (grantClaim p l x (heard p s)).settings = s.settings :=
    ((grantClaim_keeps p l x (heard p s)).2 .settings (by decide) :).trans (heard_settings p s)
  have answer : claimAnswer l x.key (grantClaim p l x (heard p s)) =
      .claim ⟨l, a.key, .opening, .none, min x.fields.startClass s.grout.tankClass, s.settings.acceptWindow,
        s.settings.keepalive⟩ := by
    rw [claimAnswer, line, settings, key]
    rfl
  have run := exec_claim ready tag a
  rw [reply, answer] at run
  have stages (j : StageKey) := stage_grantClaim p l j present
  have activated := raiseClass_eq (min x.fields.startClass s.grout.tankClass)
  refine ⟨_, run, line, fun m hm => ?_, portGrant_grantClaim without l x, cut_grantClaim p l x _, ?_, fun j hj => ?_, ?_,
    mixOrder_grantClaim p l x _⟩
  · rw [line_grantClaim, if_neg hm, lines]
  · rw [stages, if_pos key.symm, grout, Stage.activate, activated]
  · rw [stages, key, if_neg hj, heard_stage?]
  · rw [writes_grantClaim present, begun_heard, grout, Stage.activate, activated]

end


section
variable {s t u : State} {p : Port} {l m : LineId} {x : Line} {g : Grant} {n : Nat}

/-! ### PUMP_STATUS (R56, R57, R65) -/

theorem pumpStatusOk_iff (a : PumpStatusArgs) : PumpStatusArgs.ok a = true ↔ a.running ≤ 1 ∧ a.stroke ≤ 250 := by
  simp [PumpStatusArgs.ok, isFlag, within]

theorem exec_pumpStatus_held (ready : pumpReady s p) (held : holdsGrant s p l g) (tag : Byte) (a : PumpStatusArgs) :
    exec (.pumpStatus p tag (.args a)) s =
      .next (respond p RequestKind.pumpStatus.code tag (pumpReport a l g.heard (heard p s))) :=
  request_held (k := .pumpStatus) rfl tag a (pumpStatusWithout p a) (pumpReport a) ready held

theorem exec_pumpStatus_without (ready : pumpReady s p) (none : s.portGrant p = none) (tag : Byte) (a : PumpStatusArgs) :
    exec (.pumpStatus p tag (.args a)) s =
      .next (respond p RequestKind.pumpStatus.code tag (pumpStatusWithout p a (heard p s))) :=
  request_without (k := .pumpStatus) rfl tag a (pumpStatusWithout p a) (pumpReport a) ready none

theorem directive_granted (held : x.grant = some g) :
    x.directive = if g.phase = .ending then .quit else if x.state = .injecting then .run
      else if x.state = .holding then .hold else .none := by
  cases phase : g.phase with
  | live => rw [directive_live held phase]; rfl
  | ending =>
    unfold Line.directive
    rw [held]
    simp [phase]

theorem shownValues_eq (x : Line) :
    x.shownValues = if x.state ∈ [LineState.armed, .injecting, .holding] then x.values else none := by
  have evaluated : x.state.evaluated = true ↔ x.state ∈ [LineState.armed, .injecting, .holding] := by
    cases x.state <;> simp [LineState.evaluated]
  unfold Line.shownValues
  simp only [evaluated]

theorem volumeOf_eq (s : State) (k : StageKey) :
    s.volumeOf k = (((s.stage? k).bind Stage.progress).map Progress.v).getD 0 := by
  unfold State.volumeOf Stage.volume
  cases s.stage? k with
  | none => rfl
  | some x =>
    dsimp only [Option.bind_some]
    cases x.progress <;> rfl

/-- The line's report taken (R56). -/
def reported (a : PumpStatusArgs) (l : LineId) (s : State) : State :=
  s.updLine l (fun x => { x with grant := x.grant.map (fun g =>
    { g with report := some { running := a.running == 1, stroke := a.stroke, time := s.clock.site } }) })

theorem pumpReport_eq (a : PumpStatusArgs) (l : LineId) (g : Grant) (s : State) :
    pumpReport a l g s =
      if a.ok then accept (.pump (pumpAnswer l (reported a l s))) (reported a l s) else refuse .badArgument s := rfl

theorem line_reported (a : PumpStatusArgs) (held : (s.line l).grant = some g) :
    (reported a l s).line l = { s.line l with
      grant := some { g with report := some ⟨a.running == 1, a.stroke, s.clock.site⟩ } } := by
  rw [reported, line_updLine_self, held, Option.map_some]

/-- The answer made of a line under a grant (R56). -/
theorem pumpAnswer_granted (held : (s.line l).grant = some g) :
    pumpAnswer l s =
      ⟨l, (s.line l).stage.getD ⟨0, 0⟩, (s.line l).state, (s.line l).directive,
       if g.phase = .ending then g.endReason else none, (s.line l).valuesFlag,
       ((s.line l).shownValues.map Computed.cg).getD 0, ((s.line l).shownValues.map Computed.ce).getD 0,
       ((s.line l).shownValues.map Computed.pe).getD 0, ((s.line l).shownValues.map Computed.q).getD 0,
       s.volumeOf ((s.line l).stage.getD ⟨0, 0⟩), (s.line l).causes, (s.line l).effectiveClass⟩ := by
  have quit : (s.line l).directive = .quit ↔ g.phase = .ending := by
    rw [directive_granted held]
    split
    · exact iff_of_true rfl ‹_›
    · split
      · exact iff_of_false (by decide) ‹_›
      · split
        · exact iff_of_false (by decide) ‹_›
        · exact iff_of_false (by decide) ‹_›
  unfold pumpAnswer
  simp only [quit, held, Option.bind_some]
  cases (s.line l).shownValues <;> rfl

theorem effectiveClass_eq (x : Line) : x.effectiveClass = (x.classes.map Classes.effective).getD 0 := by
  unfold Line.effectiveClass
  cases x.classes <;> rfl

theorem heard_cut (p : Port) (s : State) : ((heard p s).port p).cut = (s.port p).cut :=
  heard_port_part PortRecord.cut (fun _ => rfl) p

theorem pumpStatusWithout_cut (a : PumpStatusArgs) {n : CutNotice} (cut : (s.port p).cut = some n) :
    pumpStatusWithout p a s =
      if a.ok then accept (.pump (noticeAnswer n s)) (s.updPort p (fun x => { x with cut := none }))
      else refuse .badArgument s := by
  rw [pumpStatusWithout, cut]

/-- Settles O39: the answer under a grant with the report kept in it, or made from the notice of a cut grant. -/
theorem pumpStatusReportsAndAnswers : Obligations.PumpStatusReportsAndAnswers := by
  intro s p tag a ready
  refine ⟨fun l g held => ⟨fun bad => ?_, fun ok => ?_⟩, fun none whole => ?_, fun n none cut => ⟨fun bad => ?_, fun ok => ?_⟩⟩
  · have run := exec_pumpStatus_held ready held tag a
    rw [pumpReport_eq, if_neg ((pumpStatusOk_iff a).not.mpr bad)] at run
    exact run
  · have run := exec_pumpStatus_held ready held tag a
    have line := line_reported a (heard_grant held)
    have grant : ((reported a l (heard p s)).line l).grant =
        some { g.heard with report := some ⟨a.running == 1, a.stroke, (heard p s).clock.site⟩ } := by rw [line]
    have part {α : Type} (f : Line → α) (hf : ∀ x g, f { x with grant := g } = f x) :
        f ((reported a l (heard p s)).line l) = f (s.line l) := by
      rw [line]
      exact (hf _ _).trans (heard_line_part p s f l hf)
    have volume : (reported a l (heard p s)).volumeOf = fun k => (((s.stage? k).bind Stage.progress).map Progress.v).getD 0 :=
      funext fun k => (volumeOf_eq _ k).trans (by rw [← heard_stage? p s k]; rfl)
    rw [pumpReport_eq, if_pos ((pumpStatusOk_iff a).mpr ok), pumpAnswer_granted grant, directive_granted grant, volume,
      part Line.stage (fun _ _ => rfl), part Line.state (fun _ _ => rfl), part Line.valuesFlag (fun _ _ => rfl),
      part Line.shownValues (fun _ _ => rfl), part Line.causes (fun _ _ => rfl), part Line.effectiveClass (fun _ _ => rfl),
      phase_heard, endReason_heard, effectiveClass_eq, reported, heard_clock] at run
    refine run.trans (congrArg (fun c => Host.Outcome.next (answering p .pumpStatus tag .ok (.pump c) _)) ?_)
    rw [Line.valuesFlag, shownValues_eq]
    generalize (if (s.line l).state ∈ [LineState.armed, .injecting, .holding] then (s.line l).values else none) = shown
    cases shown <;> rfl
  · have run := exec_pumpStatus_without ready none tag a
    rw [pumpStatusWithout, heard_cut, whole] at run
    exact run
  · have run := exec_pumpStatus_without ready none tag a
    rw [pumpStatusWithout_cut a (by rw [heard_cut]; exact cut), if_neg ((pumpStatusOk_iff a).not.mpr bad)] at run
    exact run
  · have run := exec_pumpStatus_without ready none tag a
    rw [pumpStatusWithout_cut a (by rw [heard_cut]; exact cut), if_pos ((pumpStatusOk_iff a).mpr ok), noticeAnswer,
      volumeOf_eq, heard_stage?, heard_line_state] at run
    exact run

end

end Sys2Proof.Machine
end

section
/-! PROOFS. Samples and channels (R70, R73 to R75). -/

namespace Sys2Proof.Machine

section
variable {s t u : State} {l m : LineId} {k : StageKey} {x : Stage} {g : GaugeId} {c : Channel}

/-! ### Conversion (R70) -/

theorem currentGood_iff (i : Nat) : currentGood i = true ↔ ¬ (i < 3600 ∨ 21000 < i) := by
  simp only [currentGood, Bool.and_eq_true, decide_eq_true_eq]
  omega

/-- Above 20000 µA a conversion is at its span, below 4000 at 0, and between them it is not clamped. -/
theorem convertSpan_eq (span i : Nat) :
    convertSpan span i =
      if i < 3600 ∨ 21000 < i then none
      else if i < 4000 then some 0
      else if 20000 < i then some (span : Int) else some (((i - 4000) * span / 16000 : Nat) : Int) := by
  unfold convertSpan
  by_cases bad : i < 3600 ∨ 21000 < i
  · rw [if_pos bad, if_neg ((currentGood_iff i).not.mpr (not_not.mpr bad))]
  · rw [if_neg bad, if_pos ((currentGood_iff i).mpr bad)]
    by_cases low : i < 4000
    · have none : i - 4000 = 0 := by omega
      rw [if_pos low, none, Nat.zero_mul, Nat.zero_div, Nat.min_zero]
      rfl
    · by_cases high : 20000 < i
      · have more : span ≤ (i - 4000) * span / 16000 := by
          rw [Nat.le_div_iff_mul_le (by decide), Nat.mul_comm]
          exact Nat.mul_le_mul_right span (by omega)
        rw [if_neg low, if_pos high, Nat.min_eq_left more]
      · have less : (i - 4000) * span / 16000 ≤ span := by
          apply Nat.div_le_of_le_mul
          exact Nat.mul_le_mul_right span (by omega)
        rw [if_neg low, if_neg high, Nat.min_eq_right less]

/-- Rounding toward zero is rounding the distance down, on either side of the middle of the range. -/
theorem tdiv_four {i : Nat} :
    Int.tdiv ((i : Int) - 12000) 4 =
      if i < 12000 then -(((12000 - i) / 4 : Nat) : Int) else (((i - 12000) / 4 : Nat) : Int) := by
  split
  · have below : (i : Int) - 12000 = -((12000 - i : Nat) : Int) := by omega
    rw [below, Int.neg_tdiv]
    rfl
  · have above : (i : Int) - 12000 = ((i - 12000 : Nat) : Int) := by omega
    rw [above]
    rfl

theorem convertUplift_eq (i : Nat) :
    convertUplift i =
      if i < 3600 ∨ 21000 < i then none
      else if i < 4000 then some (-2000)
      else if 20000 < i then some 2000
      else if i < 12000 then some (-(((12000 - i) / 4 : Nat) : Int)) else some (((i - 12000) / 4 : Nat) : Int) := by
  unfold convertUplift
  rw [tdiv_four]
  by_cases bad : i < 3600 ∨ 21000 < i
  · rw [if_pos bad, if_neg ((currentGood_iff i).not.mpr (not_not.mpr bad))]
  · rw [if_neg bad, if_pos ((currentGood_iff i).mpr bad)]
    split_ifs <;> simp only [Option.some.injEq] <;> omega

/-! ### Validity (R73 to R75) -/

theorem badSample_facts (top n : Nat) (c : Channel) :
    (c.badSample top n).channel.value = c.value ∧ (c.badSample top n).channel.noValue = c.noValue ∧
    (c.badSample top n).channel.counter = (c.counter.bump top).1 ∧ (c.badSample top n).channel.bad = min n (c.bad + 1) ∧
    (c.badSample top n).regain = false := by
  unfold Channel.badSample
  dsimp only
  cases c.validity with
  | suspect => dsimp only; split <;> exact ⟨rfl, rfl, rfl, rfl, rfl⟩
  | _ => exact ⟨rfl, rfl, rfl, rfl, rfl⟩

theorem badSample_valid (top n : Nat) (h : c.validity = .valid) :
    (c.badSample top n).channel.validity = .suspect ∧ (c.badSample top n).loss = false := by
  unfold Channel.badSample
  dsimp only
  rw [h]
  exact ⟨rfl, rfl⟩

theorem badSample_suspect (top n : Nat) (h : c.validity = .suspect) :
    (c.badSample top n).channel.validity = (if n ≤ c.bad + 1 then .lost else .suspect) ∧
    ((c.badSample top n).loss = true ↔ n ≤ c.bad + 1) := by
  have reached : n ≤ min n (c.bad + 1) ↔ n ≤ c.bad + 1 := by omega
  unfold Channel.badSample
  dsimp only
  rw [h]
  dsimp only
  by_cases late : n ≤ c.bad + 1
  · rw [if_pos (reached.mpr late), if_pos late]
    exact ⟨rfl, iff_of_true rfl late⟩
  · rw [if_neg (reached.not.mpr late), if_neg late]
    exact ⟨rfl, iff_of_false Bool.false_ne_true late⟩

theorem badSample_lost (top n : Nat) (h : c.validity ∈ [Validity.lost, .regain1, .regain2]) :
    (c.badSample top n).channel.validity = .lost ∧ (c.badSample top n).channel.ref = none ∧
    (c.badSample top n).loss = false := by
  unfold Channel.badSample
  dsimp only
  generalize c.validity = v at h
  cases v <;> simp at h <;> exact ⟨rfl, rfl, rfl⟩

theorem badSample_off (top n : Nat) (h : c.validity = .off) : (c.badSample top n).loss = false := by
  unfold Channel.badSample
  dsimp only
  rw [h]

theorem loss_badSample (top n : Nat) (c : Channel) :
    (c.badSample top n).loss = true ↔ c.validity = .suspect ∧ n ≤ c.bad + 1 := by
  cases h : c.validity with
  | suspect => simp [badSample_suspect top n h]
  | valid => simp [badSample_valid top n h]
  | off => simp [badSample_off top n h]
  | lost | regain1 | regain2 => simp [badSample_lost top n (c := c) (by simp [h])]

theorem goodSample_facts (band : Option Nat) (v : Int) (c : Channel) :
    (c.goodSample band v).channel.bad = 0 ∧ (c.goodSample band v).channel.counter = c.counter ∧
    (c.goodSample band v).loss = false ∧ (c.goodSample band v).saturated = false := by
  unfold Channel.goodSample
  dsimp only
  cases c.validity with
  | regain1 => dsimp only; split <;> exact ⟨rfl, rfl, rfl, rfl⟩
  | _ => exact ⟨rfl, rfl, rfl, rfl⟩

theorem goodSample_taken (band : Option Nat) (v : Int) (h : c.validity ∈ [Validity.valid, .suspect, .regain2]) :
    (c.goodSample band v).channel.validity = .valid ∧ (c.goodSample band v).channel.value = v ∧
    (c.goodSample band v).channel.noValue = false ∧ (c.goodSample band v).channel.ref = none := by
  unfold Channel.goodSample
  dsimp only
  generalize c.validity = w at h
  cases w <;> simp at h <;> exact ⟨rfl, rfl, rfl, rfl⟩

theorem goodSample_lost (band : Option Nat) (v : Int) (h : c.validity = .lost) :
    (c.goodSample band v).channel = { c with bad := 0, validity := .regain1, ref := some v } := by
  unfold Channel.goodSample
  dsimp only
  rw [h]

theorem goodSample_near {band : Option Nat} {v : Int} (h : c.validity = .regain1) (near : withinBand band c.ref v = true) :
    (c.goodSample band v).channel = { c with bad := 0, validity := .regain2 } := by
  unfold Channel.goodSample
  dsimp only
  rw [h]
  dsimp only
  rw [if_pos near]

theorem goodSample_far {band : Option Nat} {v : Int} (h : c.validity = .regain1) (far : ¬ withinBand band c.ref v = true) :
    (c.goodSample band v).channel = { c with bad := 0, ref := some v } := by
  unfold Channel.goodSample
  dsimp only
  rw [h]
  dsimp only
  rw [if_neg far]

theorem regain_goodSample (band : Option Nat) (v : Int) (c : Channel) :
    (c.goodSample band v).regain = true ↔ c.validity = .regain2 := by
  unfold Channel.goodSample
  dsimp only
  cases c.validity with
  | regain1 => dsimp only; split <;> simp
  | _ => simp

theorem withinBand_iff (band : Option Nat) (ref : Option Int) (v : Int) :
    withinBand band ref v = true ↔ ∀ b r, band = some b → ref = some r → v - r ≤ (b : Int) ∧ r - v ≤ b := by
  unfold withinBand
  cases band <;> cases ref <;> simp
  omega

/-- Settles O41: what a current stands for, and what a bad and a good sample make of a channel. -/
theorem samplesConvertAndChannelsMove : Obligations.SamplesConvertAndChannelsMove := by
  refine ⟨convertSpan_eq, convertUplift_eq, fun top n band c => ?_, fun top n band v c => ?_⟩
  · obtain ⟨value, noValue, counter, bad, regain⟩ := badSample_facts top n c
    exact ⟨value, noValue, (congrArg Counter.count counter).trans (count_bump _ _), bad, regain,
      fun h => (badSample_valid top n h).1, fun h => (badSample_suspect top n h).1,
      fun h => ⟨(badSample_lost top n h).1, (badSample_lost top n h).2.1⟩, loss_badSample top n c⟩
  · obtain ⟨bad, counter, loss, saturated⟩ := goodSample_facts band v c
    have near := withinBand_iff band c.ref v
    refine ⟨bad, counter, loss, saturated, goodSample_taken band v, fun h => ?_, fun h => ?_, fun h isNear => ?_,
      fun h far => ?_, regain_goodSample band v c⟩
    · show (c.goodSample band v).channel.value = c.value ∧ (c.goodSample band v).channel.noValue = c.noValue
      rcases (by simpa using h : c.validity = .lost ∨ c.validity = .regain1) with lost | first
      · rw [goodSample_lost band v lost]
        exact ⟨rfl, rfl⟩
      · by_cases within : withinBand band c.ref v = true
        · rw [goodSample_near first within]
          exact ⟨rfl, rfl⟩
        · rw [goodSample_far first within]
          exact ⟨rfl, rfl⟩
    · show (c.goodSample band v).channel.validity = .regain1 ∧ (c.goodSample band v).channel.ref = some v
      rw [goodSample_lost band v h]
      exact ⟨rfl, rfl⟩
    · exact congrArg Channel.validity (goodSample_near h (near.mpr isNear))
    · show (c.goodSample band v).channel.validity = .regain1 ∧ (c.goodSample band v).channel.ref = some v
      rw [goodSample_far h (near.not.mpr far)]
      exact ⟨h, rfl⟩

end

end Sys2Proof.Machine
end

section
/-! PROOFS. The stops: ESTOP, UPLIFT_STOP and the gauges (R62, R137 to R143). -/

namespace Sys2Proof.Machine

section
variable {s t u : State} {l m : LineId} {k : StageKey} {x : Stage} {g : GaugeId} {c : HoldCause} {r : EndReason}

/-! ### The stages at a stop (R62) -/

/-- A stage that has lost its claim: an ACTIVE one is READY again (R12). -/
def Stage.readied (x : Stage) : Stage := if x.status = .active then { x with status := .ready } else x

theorem key_readied (x : Stage) : x.readied.key = x.key := by
  unfold Stage.readied
  split <;> rfl

theorem readied_readied (x : Stage) : x.readied.readied = x.readied := by
  unfold Stage.readied
  split <;> simp_all

theorem stage_returnToReady (k j : StageKey) (s : State) :
    (returnToReady k s).stage? j = if j = k then (s.stage? k).map Stage.readied else s.stage? j := by
  cases found : s.stage? k with
  | none =>
    have same : returnToReady k s = s := by simp only [returnToReady, found]
    rw [same]
    split <;> simp_all
  | some x =>
    by_cases active : x.status = .active
    · have readied : x.readied = { x with status := .ready } := if_pos active
      have changed : returnToReady k s = saveStage k (s.updStage k (fun x => { x with status := .ready })) := by
        simp only [returnToReady, found, if_pos active]
      rw [changed, stage_saveStage, stage_updStage _ k j (fun x => { x with status := .ready }) (fun _ => rfl), found,
        Option.map_some, Option.map_some, readied]
    · have readied : x.readied = x := if_neg active
      rw [returnToReady_of_ne found active, Option.map_some, readied]
      split
      · subst j; exact found
      · rfl

theorem withBound_none (h : (s.line l).stage = none) (f : StageKey → State → State) : withBound l f s = s := by
  unfold withBound
  rw [h]

theorem stage_closeOpening (r : EndReason) (l : LineId) (j : StageKey) (s : State) :
    (closeOpening r l s).stage? j =
      if (s.line l).state = .opening ∧ (s.line l).stage = some j then (s.stage? j).map Stage.readied else s.stage? j := by
  unfold closeOpening
  by_cases opening : (s.line l).state = .opening
  · have bound : ((closeLine r l s).line l).stage = (s.line l).stage := by rw [line_closeLine, if_pos rfl]; rfl
    rw [if_pos opening]
    cases held : (s.line l).stage with
    | none => simp [withBound_none (bound.trans held), stage_closeLine]
    | some k =>
      rw [withBound_bound (bound.trans held), stage_returnToReady, stage_closeLine, stage_closeLine]
      by_cases same : j = k
      · subst j; simp [opening]
      · have other : ¬ k = j := fun e => same e.symm
        simp [same, other]
  · simp [opening]

/-- A stage is bound by a line in OPENING. -/
def State.openingWith (s : State) (j : StageKey) : Prop := ∃ l, (s.line l).state = .opening ∧ (s.line l).stage = some j

theorem stage_closeOpenings (ls : List LineId) (once : ls.Nodup) (s : State) (j : StageKey) :
    (ls.foldl (fun s l => closeOpening r l s) s).stage? j =
      if ∃ l ∈ ls, (s.line l).state = .opening ∧ (s.line l).stage = some j then (s.stage? j).map Stage.readied
      else s.stage? j := by
  induction ls generalizing s with
  | nil => simp
  | cons l ls ih =>
    obtain ⟨absent, once⟩ := List.nodup_cons.mp once
    have others (m : LineId) (hm : m ∈ ls) : (closeOpening r l s).line m = s.line m := by
      rw [line_closeOpening, if_neg fun e : m = l => absent (e ▸ hm)]
    have rest : (∃ m ∈ ls, ((closeOpening r l s).line m).state = .opening ∧ ((closeOpening r l s).line m).stage = some j) ↔
        ∃ m ∈ ls, (s.line m).state = .opening ∧ (s.line m).stage = some j :=
      exists_congr fun m => and_congr_right fun hm => by rw [others m hm]
    rw [List.foldl_cons, ih once, stage_closeOpening]
    simp only [rest, List.mem_cons, exists_eq_or_imp]
    by_cases here : (s.line l).state = .opening ∧ (s.line l).stage = some j
    · simp [here, Function.comp_def, readied_readied]
    · simp [here]

theorem stage_held (c : HoldCause) (x : Line) : (x.held c).stage = x.stage := by
  unfold Line.held
  split
  · rfl
  · split <;> rfl

open Classical in
theorem stage_stopLines (c : HoldCause) (r : EndReason) (s : State) (j : StageKey) :
    (stopLines c r s).stage? j = if s.openingWith j then (s.stage? j).map Stage.readied else s.stage? j := by
  have same : (forLines (addCause c) s).stage? j = s.stage? j :=
    (forLines_keeps _ s fun l s => addCause_keeps c l s).stage (by decide) j
  have opening : (∃ l ∈ lineIds, ((forLines (addCause c) s).line l).state = .opening ∧
      ((forLines (addCause c) s).line l).stage = some j) ↔ s.openingWith j :=
    exists_congr fun l => (and_iff_right (mem_lineIds l)).trans (by rw [line_holdLines, state_held, stage_held])
  rw [stopLines, forLines, stage_closeOpenings _ (by decide), same]
  simp only [opening]

/-- A stage at a stop, as R62 states it. -/
theorem stage_atStop (h : s.stage? k = some x) (c : HoldCause) (r : EndReason)
    [Decidable (x.status = .active ∧ ∃ l, (s.line l).state = .opening ∧ (s.line l).stage = some k)] :
    (stopLines c r s).stage? k = some (
      if x.status = .active ∧ ∃ l, (s.line l).state = .opening ∧ (s.line l).stage = some k then
        { x with status := .ready } else x) := by
  rw [stage_stopLines, h, Option.map_some, Stage.readied]
  unfold State.openingWith
  by_cases active : x.status = .active <;>
    by_cases opening : ∃ l, (s.line l).state = .opening ∧ (s.line l).stage = some k <;> simp only [active, opening] <;> simp

/-! ### ESTOP (R143) -/

/-- The part as ESTOP becomes active, its lines not yet stopped. -/
def estopEntered (s : State) : State :=
  enterFault .estop (.value 0) none .stop (postPart .estop none
    { s.updStop (fun x => { x with estop := true }) with exercise := 0 })

theorem beginEstop_eq (s : State) : beginEstop s = stopLines .estop .estop (estopEntered s) := rfl

theorem estopEntered_keeps (s : State) :
    keeps [.queues, .faults, .writes] ({ s.updStop (fun x => { x with estop := true }) with exercise := 0 } : State)
      (estopEntered s) :=
  (enterFault_keeps _ _ _ _ _).after (by decide) ((postPart_keeps _ _ _).mono (by decide))

theorem stop_beginEstop (s : State) : (beginEstop s).stop = { s.stop with estop := true } :=
  ((stopLines_keeps .estop .estop (estopEntered s)).stop (by decide)).trans ((estopEntered_keeps s).stop (by decide))

theorem exercise_beginEstop (s : State) : (beginEstop s).exercise = 0 :=
  ((stopLines_keeps .estop .estop (estopEntered s)).2 .exercise (by decide) :).trans
    ((estopEntered_keeps s).2 .exercise (by decide) :)

theorem latched_beginEstop (s : State) : .estop ∈ (beginEstop s).record.latched := by
  have entered : .estop ∈ (estopEntered s).record.latched := (mem_latched_enterFault _ _ _ _).mpr (.inl rfl)
  obtain ⟨-, -, latched⟩ := (stopLines_keeps .estop .estop (estopEntered s)).2 .faults (by decide)
  rw [beginEstop_eq, latched]
  exact entered

theorem stage_beginEstop (h : s.stage? k = some x)
    [Decidable (x.status = .active ∧ ∃ l, (s.line l).state = .opening ∧ (s.line l).stage = some k)] :
    (beginEstop s).stage? k = some (
      if x.status = .active ∧ ∃ l, (s.line l).state = .opening ∧ (s.line l).stage = some k then
        { x with status := .ready } else x) := by
  have line (l : LineId) : (estopEntered s).line l = s.line l :=
    (estopEntered_keeps s).line (by decide) (by decide) (by decide) l
  have found : (estopEntered s).stage? k = some x := ((estopEntered_keeps s).stage (by decide) k).trans h
  have atStop := stage_atStop found .estop .estop
  simp only [line] at atStop
  exact atStop

theorem permitClosed_of_estop (h : s.stop.estop = true) : s.permitClosed = false := by
  simp [State.permitClosed, h]

theorem permitClosed_of_upliftStop (h : s.stop.upliftStop = true) : s.permitClosed = false := by
  simp [State.permitClosed, h]

theorem stop_finishEstop (s : State) : (finishEstop s).stop = { s.stop with estop := false } :=
  stop_freeLines .estop (s.updStop (fun x => { x with estop := false }))

theorem line_finishEstop (s : State) (l : LineId) : (finishEstop s).line l = (s.line l).freed .estop :=
  line_freeLines .estop (s.updStop (fun x => { x with estop := false })) l

theorem faults_freeLines (c : HoldCause) (s : State) :
    (forLines (removeCause c) s).record.faults = s.record.faults := by
  obtain ⟨faults, -⟩ := (forLines_keeps (removeCause c) s fun l u => removeCause_keeps c l u).2 .faults (by decide)
  exact faults

theorem faults_updStop (f : StopUnit → StopUnit) (s : State) : (s.updStop f).record.faults = s.record.faults := rfl

theorem faults_finishEstop (s : State) : (finishEstop s).record.faults = s.record.faults := by
  rw [finishEstop, faults_freeLines, faults_updStop]

end


/-! ### The contact (R143) -/

section
variable {b : Bool}

theorem countContact_eq (b : Bool) (x : StopUnit) :
    x.countContact b = { x with openCount := if b = true then min 2 (x.openCount + 1) else 0,
                                closedCount := if b = true then 0 else min 8 (x.closedCount + 1) } := by
  cases b <;> rfl

theorem countContact_estop (b : Bool) (x : StopUnit) : (x.countContact b).estop = x.estop := by cases b <;> rfl

theorem countContact_open (b : Bool) (x : StopUnit) :
    (x.countContact b).openCount = 2 ↔ b = true ∧ 1 ≤ x.openCount := by
  cases b <;> simp [StopUnit.countContact]

theorem countContact_closed (b : Bool) (x : StopUnit) :
    (x.countContact b).closedCount = 8 ↔ b = false ∧ 7 ≤ x.closedCount := by
  cases b <;> simp [StopUnit.countContact]

/-- The part with the contact's sample counted. -/
def contactCounted (b : Bool) (s : State) : State := s.updStop (StopUnit.countContact b)

theorem stop_contactCounted (b : Bool) (s : State) : (contactCounted b s).stop = s.stop.countContact b := rfl

theorem line_contactCounted (b : Bool) (s : State) (l : LineId) : (contactCounted b s).line l = s.line l := rfl

theorem stage_contactCounted (b : Bool) (s : State) (k : StageKey) : (contactCounted b s).stage? k = s.stage? k := rfl

theorem settings_contactCounted (b : Bool) (s : State) : (contactCounted b s).settings = s.settings := rfl

theorem faults_contactCounted (b : Bool) (s : State) : (contactCounted b s).record.faults = s.record.faults := rfl

theorem exec_estopSample_begins (begins : b = true ∧ 1 ≤ s.stop.openCount ∧ s.stop.estop = false) :
    exec (.estopSample b) s = .next (beginEstop (contactCounted b s)) := by
  obtain ⟨contact, count, inactive⟩ := begins
  have opened : (contactCounted b s).stop.openCount = 2 ∧ (contactCounted b s).stop.estop = false := by
    rw [stop_contactCounted, countContact_open, countContact_estop]
    exact ⟨⟨contact, count⟩, inactive⟩
  exact congrArg Host.Outcome.next (if_pos opened)

theorem exec_estopSample_ends (ends : b = false ∧ 7 ≤ s.stop.closedCount ∧ s.stop.estop = true) :
    exec (.estopSample b) s = .next (finishEstop (contactCounted b s)) := by
  obtain ⟨contact, count, active⟩ := ends
  have opened : ¬ ((contactCounted b s).stop.openCount = 2 ∧ (contactCounted b s).stop.estop = false) := by
    rw [stop_contactCounted, countContact_estop, active]
    simp
  have closed : (contactCounted b s).stop.closedCount = 8 ∧ (contactCounted b s).stop.estop = true := by
    rw [stop_contactCounted, countContact_closed, countContact_estop]
    exact ⟨⟨contact, count⟩, active⟩
  exact congrArg Host.Outcome.next ((if_neg opened).trans (if_pos closed))

theorem exec_estopSample_counts (begins : ¬ (b = true ∧ 1 ≤ s.stop.openCount ∧ s.stop.estop = false))
    (ends : ¬ (b = false ∧ 7 ≤ s.stop.closedCount ∧ s.stop.estop = true)) :
    exec (.estopSample b) s = .next (contactCounted b s) := by
  have opened : ¬ ((contactCounted b s).stop.openCount = 2 ∧ (contactCounted b s).stop.estop = false) := by
    rw [stop_contactCounted, countContact_open, countContact_estop, and_assoc]
    exact begins
  have closed : ¬ ((contactCounted b s).stop.closedCount = 8 ∧ (contactCounted b s).stop.estop = true) := by
    rw [stop_contactCounted, countContact_closed, countContact_estop, and_assoc]
    exact ends
  exact congrArg Host.Outcome.next ((if_neg opened).trans (if_neg closed))

end

/-- Settles O53: ESTOP beginning on the second open sample, ending on the eighth closed one, else counted. -/
theorem estopContactStopsThePart : Obligations.EstopContactStopsThePart := by
  classical
  intro s b
  by_cases begins : b = true ∧ 1 ≤ s.stop.openCount ∧ s.stop.estop = false
  · have contact : b = true := begins.1
    refine ⟨_, exec_estopSample_begins begins, fun _ => ⟨?_, ?_, ?_, ?_, ?_, ?_⟩, ?_, fun no => absurd begins no⟩
    · rw [stop_beginEstop, stop_contactCounted, countContact_eq]
    · exact exercise_beginEstop _
    · exact permitClosed_of_estop (by rw [stop_beginEstop])
    · exact latched_beginEstop _
    · intro l
      rw [line_beginEstop, line_contactCounted, settings_contactCounted]
    · intro k z found
      exact stage_beginEstop (s := contactCounted b s) found
    · rintro ⟨closed, -⟩
      rw [contact] at closed
      nomatch closed
  · by_cases ends : b = false ∧ 7 ≤ s.stop.closedCount ∧ s.stop.estop = true
    · refine ⟨_, exec_estopSample_ends ends, fun yes => absurd yes begins, fun _ => ⟨?_, ?_, ?_⟩,
        fun _ no => absurd ends no⟩
      · rw [stop_finishEstop, stop_contactCounted, countContact_eq]
      · intro l
        rw [line_finishEstop, line_contactCounted]
      · rw [faults_finishEstop, faults_contactCounted]
    · refine ⟨_, exec_estopSample_counts begins ends, fun yes => absurd yes begins, fun yes => absurd yes ends,
        fun _ _ => ?_⟩
      rw [contactCounted, State.updStop, countContact_eq]


section
variable {s t u : State} {g : GaugeId} {b : Int} {i : Nat}

/-! ### UPLIFT_STOP (R141) -/

/-- The part as UPLIFT_STOP latches, its lines not yet stopped. -/
def upliftEntered (g : GaugeId) (s : State) : State :=
  enterFault .upliftStop (.value (s.gauge g).u) (some (.gauge g)) .stop (postPart .upliftStop (some (s.gauge g).u)
    { s.updStop (fun x => { x with upliftStop := true }) with exercise := 0 })

theorem latchUpliftStop_eq (g : GaugeId) (s : State) :
    latchUpliftStop g s = stopLines .uplift .upliftStop (upliftEntered g s) := rfl

theorem upliftEntered_keeps (g : GaugeId) (s : State) :
    keeps [.queues, .faults, .writes] ({ s.updStop (fun x => { x with upliftStop := true }) with exercise := 0 } : State)
      (upliftEntered g s) :=
  (enterFault_keeps _ _ _ _ _).after (by decide) ((postPart_keeps _ _ _).mono (by decide))

theorem stop_latchUpliftStop (g : GaugeId) (s : State) : (latchUpliftStop g s).stop = { s.stop with upliftStop := true } :=
  ((stopLines_keeps .uplift .upliftStop (upliftEntered g s)).stop (by decide)).trans
      ((upliftEntered_keeps g s).stop (by decide))

theorem exercise_latchUpliftStop (g : GaugeId) (s : State) : (latchUpliftStop g s).exercise = 0 :=
  ((stopLines_keeps .uplift .upliftStop (upliftEntered g s)).2 .exercise (by decide) :).trans
    ((upliftEntered_keeps g s).2 .exercise (by decide) :)

theorem latched_latchUpliftStop (g : GaugeId) (s : State) (f : FaultCode) :
    f ∈ (latchUpliftStop g s).record.latched ↔ f = .upliftStop ∨ f ∈ s.record.latched := by
  have before : (postPart .upliftStop (some (s.gauge g).u)
      { s.updStop (fun x => { x with upliftStop := true }) with exercise := 0 }).record.latched = s.record.latched := by
    obtain ⟨-, -, same⟩ := (postPart_keeps .upliftStop (some (s.gauge g).u)
      { s.updStop (fun x => { x with upliftStop := true }) with exercise := 0 }).2 .faults (by decide)
    exact same
  have entered : f ∈ (upliftEntered g s).record.latched ↔ f = .upliftStop ∨ f ∈ s.record.latched := by
    rw [← before]
    exact mem_latched_enterFault _ _ _ _
  obtain ⟨-, -, latched⟩ := (stopLines_keeps .uplift .upliftStop (upliftEntered g s)).2 .faults (by decide)
  rw [latchUpliftStop_eq, latched]
  exact entered

theorem stage_latchUpliftStop (h : s.stage? k = some x)
    [Decidable (x.status = .active ∧ ∃ l, (s.line l).state = .opening ∧ (s.line l).stage = some k)] :
    (latchUpliftStop g s).stage? k = some (
      if x.status = .active ∧ ∃ l, (s.line l).state = .opening ∧ (s.line l).stage = some k then
        { x with status := .ready } else x) := by
  have line (l : LineId) : (upliftEntered g s).line l = s.line l :=
    (upliftEntered_keeps g s).line (by decide) (by decide) (by decide) l
  have found : (upliftEntered g s).stage? k = some x := ((upliftEntered_keeps g s).stage (by decide) k).trans h
  have atStop := stage_atStop found .uplift .upliftStop
  simp only [line] at atStop
  exact atStop

/-! ### The gauge's sample and its judgement (R139) -/

/-- The gauge's channel after a sample at the current `i`. -/
def State.gaugeSampling (s : State) (g : GaugeId) (i : Nat) : Sampled :=
  (s.gauge g).channel.sample s.counterTop s.settings.lossCount (some 80) (convertUplift i)

/-- The part with the gauge's sample taken, the gauge not yet judged. -/
def gaugeSampled (g : GaugeId) (i : Nat) (s : State) : State :=
  partChannelEffects (16 + g.val) .upliftGaugeLost (some (.gauge g)) .derate i (s.gaugeSampling g i)
    (s.updGauge g (fun x => { x with channel := (s.gaugeSampling g i).channel }))

theorem gaugeSample_eq (g : GaugeId) (i : Nat) (s : State) :
    gaugeSample g i s = formWarn (judgeGauge g (gaugeSampled g i s)) := rfl

theorem gaugeSampled_keeps (g : GaugeId) (i : Nat) (s : State) :
    keeps [.gauges, .queues, .faults, .writes] s (gaugeSampled g i s) :=
  (partChannelEffects_keeps _ _ _ _ _ _ _).after (by decide) ((updGauge_keeps _ _ _).mono (by decide))

theorem gauge_gaugeSampled (g : GaugeId) (i : Nat) (s : State) (h : GaugeId) :
    (gaugeSampled g i s).gauge h =
      if h = g then { s.gauge g with channel := (s.gaugeSampling g i).channel } else s.gauge h :=
  ((partChannelEffects_keeps _ _ _ _ _ _ _).gauge (by decide) h).trans (gauge_updGauge s g h _)

/-- The gauge counted towards UPLIFT_STOP, by its rise over the baseline `b`. -/
def stopCounted (g : GaugeId) (b : Int) (s : State) : State :=
  s.setGauge g ((s.gauge g).countStop s.settings.stopThreshold ((s.gauge g).channel.value - b))

/-- The gauge's sample latches UPLIFT_STOP (R141). -/
def State.latches (s : State) (g : GaugeId) (b : Int) : Prop :=
  (s.settings.stopThreshold : Int) ≤ (s.gauge g).channel.value - b ∧ 1 ≤ (s.gauge g).stopCount ∧
    s.stop.upliftStop = false

theorem countStop_two (threshold : Nat) (d : Int) (x : Gauge) :
    (x.countStop threshold d).stopCount = 2 ↔ (threshold : Int) ≤ d ∧ 1 ≤ x.stopCount := by
  unfold Gauge.countStop
  dsimp only
  split <;> simp_all

theorem latches_iff (s : State) (g : GaugeId) (b : Int) :
    ((stopCounted g b s).gauge g).stopCount = 2 ∧ (stopCounted g b s).stop.upliftStop = false ↔ s.latches g b := by
  rw [stopCounted, gauge_setGauge, if_pos rfl, countStop_two, stop_setGauge, and_assoc]
  rfl

theorem judgeGauge_unjudged (h : (s.gauge g).channel.validity ≠ .valid ∨ (s.gauge g).baseline = none) :
    judgeGauge g s = s.setGauge g (s.gauge g).notJudged := by
  unfold judgeGauge Channel.isValid
  rcases h with bad | absent
  · have invalid : ((s.gauge g).channel.validity == .valid) = false := by simpa using bad
    simp only [invalid]
  · dsimp only
    rw [absent]
    cases (s.gauge g).channel.validity == .valid <;> rfl

theorem judgeGauge_judged (valid : (s.gauge g).channel.validity = .valid) (base : (s.gauge g).baseline = some b)
    [Decidable (s.latches g b)] :
    judgeGauge g s = (if s.latches g b then latchUpliftStop g (stopCounted g b s) else stopCounted g b s).updGauge g
      (Gauge.countWarn s.settings.warnThreshold s.settings.hysteresis) := by
  have judged : judgeGauge g s =
      (if ((stopCounted g b s).gauge g).stopCount = 2 ∧ (stopCounted g b s).stop.upliftStop = false then
        latchUpliftStop g (stopCounted g b s) else stopCounted g b s).updGauge g
      (Gauge.countWarn
        (if ((stopCounted g b s).gauge g).stopCount = 2 ∧ (stopCounted g b s).stop.upliftStop = false then
          latchUpliftStop g (stopCounted g b s) else stopCounted g b s).settings.warnThreshold
        (if ((stopCounted g b s).gauge g).stopCount = 2 ∧ (stopCounted g b s).stop.upliftStop = false then
          latchUpliftStop g (stopCounted g b s) else stopCounted g b s).settings.hysteresis) := by
    unfold judgeGauge Channel.isValid
    simp only [valid, base]
    rfl
  have settings : (latchUpliftStop g (stopCounted g b s)).settings = s.settings :=
    ((latchUpliftStop_keeps g (stopCounted g b s)).2 .settings (by decide) :)
  rw [judged]
  simp only [latches_iff]
  split
  · rw [settings]
  · rfl

/-- The gauge's record after a judged sample (R139). -/
def State.judgement (s : State) (g : GaugeId) (b : Int) : Gauge :=
  ((s.gauge g).countStop s.settings.stopThreshold ((s.gauge g).channel.value - b)).countWarn
    s.settings.warnThreshold s.settings.hysteresis

section
variable (valid : (s.gauge g).channel.validity = .valid) (base : (s.gauge g).baseline = some b)
include valid base

theorem gauge_judgeGauge (h : GaugeId) :
    (judgeGauge g s).gauge h = if h = g then s.judgement g b else s.gauge h := by
  classical
  have counted (h : GaugeId) :
      (if s.latches g b then latchUpliftStop g (stopCounted g b s) else stopCounted g b s).gauge h =
        (stopCounted g b s).gauge h := by
    split
    · exact (latchUpliftStop_keeps g (stopCounted g b s)).gauge (by decide) h
    · rfl
  rw [judgeGauge_judged valid base, gauge_updGauge, counted, counted, stopCounted, gauge_setGauge, gauge_setGauge,
    if_pos rfl]
  split <;> rfl

theorem judgeGauge_latching (h : s.latches g b) :
    judgeGauge g s = (latchUpliftStop g (stopCounted g b s)).updGauge g
      (Gauge.countWarn s.settings.warnThreshold s.settings.hysteresis) := by
  classical
  rw [judgeGauge_judged valid base, if_pos h]

theorem judgeGauge_counting (h : ¬ s.latches g b) :
    judgeGauge g s = (stopCounted g b s).updGauge g
      (Gauge.countWarn s.settings.warnThreshold s.settings.hysteresis) := by
  classical
  rw [judgeGauge_judged valid base, if_neg h]

end

theorem exercise_updGauge (s : State) (g : GaugeId) (f : Gauge → Gauge) : (s.updGauge g f).exercise = s.exercise := rfl

theorem record_updGauge (s : State) (g : GaugeId) (f : Gauge → Gauge) : (s.updGauge g f).record = s.record := rfl

theorem stage_updGauge (s : State) (g : GaugeId) (f : Gauge → Gauge) (k : StageKey) :
    (s.updGauge g f).stage? k = s.stage? k := rfl

/-! ### The part after the gauge's sample -/

theorem upliftStop_formWarn (s : State) : (formWarn s).stop.upliftStop = s.stop.upliftStop := by rw [stop_formWarn]

theorem latched_formWarn (s : State) : (formWarn s).record.latched = s.record.latched := by
  obtain ⟨-, -, same⟩ := (formWarn_keeps s).2 .faults (by decide)
  exact same

theorem degraded_formWarn (enabled : ∀ h, u.enabled h = s.enabled h) :
    (formWarn u).stop.degraded = true ↔
      (gaugeIds.filter (fun h => s.enabled h && ((formWarn u).gauge h).channel.isValid &&
        ((formWarn u).gauge h).baseline.isSome)).length < 2 := by
  have judged : u.judgedNow = fun h => s.enabled h && ((formWarn u).gauge h).channel.isValid &&
      ((formWarn u).gauge h).baseline.isSome :=
    funext fun h => by rw [State.judgedNow, enabled, (formWarn_keeps u).gauge (by decide)]
  rw [← judged, stop_formWarn]
  simp [State.forcedWarn]

theorem warn_formWarn (enabled : ∀ h, u.enabled h = s.enabled h) :
    (formWarn u).stop.warn = true ↔ (formWarn u).stop.degraded = true ∨ ∃ h, s.enabled h = true ∧
      (((formWarn u).gauge h).warning = true ∨
        ((formWarn u).gauge h).channel.validity ∈ [Validity.lost, .regain1, .regain2]) := by
  have warns : gaugeIds.any u.gaugeWarns = true ↔ ∃ h, s.enabled h = true ∧
      (((formWarn u).gauge h).warning = true ∨
        ((formWarn u).gauge h).channel.validity ∈ [Validity.lost, .regain1, .regain2]) := by
    rw [List.any_eq_true]
    refine exists_congr fun h => (and_iff_right (mem_gaugeIds h)).trans ?_
    rw [State.gaugeWarns, enabled, (formWarn_keeps u).gauge (by decide), ← inLoss_iff, Bool.and_eq_true,
        Bool.or_eq_true]
  rw [stop_formWarn, ← warns]
  simp [or_comm]

theorem countWarn_quiet (warn hysteresis : Nat) {x : Gauge} (quiet : x.warning = false) :
    x.countWarn warn hysteresis = { x with
      warning := decide ((warn : Int) ≤ x.u ∧ 3 ≤ x.warnCount)
      warnCount := if (warn : Int) ≤ x.u ∧ x.warnCount < 3 then x.warnCount + 1 else 0 } := by
  unfold Gauge.countWarn
  by_cases rise : (warn : Int) ≤ x.u <;> by_cases third : 3 ≤ x.warnCount <;> simp [quiet, rise, third]

theorem countWarn_warning (warn hysteresis : Nat) {x : Gauge} (warning : x.warning = true) :
    x.countWarn warn hysteresis = { x with
      warning := !decide (x.u < (warn : Int) - hysteresis ∧ 7 ≤ x.clearCount)
      clearCount := if x.u < (warn : Int) - hysteresis ∧ x.clearCount < 7 then x.clearCount + 1 else 0 } := by
  unfold Gauge.countWarn
  by_cases fall : x.u < (warn : Int) - hysteresis <;> by_cases seventh : 7 ≤ x.clearCount <;>
    simp [warning, fall, seventh]

end

section
variable {s : State} {g : GaugeId} {i : Nat} {b : Int}

theorem enabled_gaugeSample (g : GaugeId) (i : Nat) (s : State) (h : GaugeId) :
    (judgeGauge g (gaugeSampled g i s)).enabled h = s.enabled h :=
  ((judgeGauge_keeps g _).enabled (by decide) h).trans ((gaugeSampled_keeps g i s).enabled (by decide) h)

theorem latched_setGauge (s : State) (g : GaugeId) (x : Gauge) : (s.setGauge g x).record.latched = s.record.latched := rfl

theorem countWarn_sampling (warn hysteresis : Nat) (x : Gauge) :
    (x.countWarn warn hysteresis).channel = x.channel ∧ (x.countWarn warn hysteresis).baseline = x.baseline ∧
    (x.countWarn warn hysteresis).judged = x.judged ∧ (x.countWarn warn hysteresis).u = x.u ∧
    (x.countWarn warn hysteresis).stopCount = x.stopCount := by
  cases warning : x.warning
  · rw [countWarn_quiet _ _ warning]; exact ⟨rfl, rfl, rfl, rfl, rfl⟩
  · rw [countWarn_warning _ _ warning]; exact ⟨rfl, rfl, rfl, rfl, rfl⟩

/-- A judgement changes neither the gauge's channel nor its baseline, and no other gauge. -/
theorem gauge_judgeGauge_rest (g h : GaugeId) (s : State) :
    ((judgeGauge g s).gauge g).channel = (s.gauge g).channel ∧
    ((judgeGauge g s).gauge g).baseline = (s.gauge g).baseline ∧
    (h ≠ g → (judgeGauge g s).gauge h = s.gauge h) := by
  by_cases bad : (s.gauge g).channel.validity ≠ .valid ∨ (s.gauge g).baseline = none
  · rw [judgeGauge_unjudged bad, gauge_setGauge, gauge_setGauge, if_pos rfl]
    exact ⟨rfl, rfl, fun other => if_neg other⟩
  · obtain ⟨valid, based⟩ := not_or.mp bad
    obtain ⟨b, base⟩ := Option.ne_none_iff_exists'.mp based
    rw [gauge_judgeGauge (not_not.mp valid) base, gauge_judgeGauge (not_not.mp valid) base, if_pos rfl]
    obtain ⟨channel, baseline, -⟩ := countWarn_sampling s.settings.warnThreshold s.settings.hysteresis
      ((s.gauge g).countStop s.settings.stopThreshold ((s.gauge g).channel.value - b))
    exact ⟨channel, baseline, fun other => if_neg other⟩

/-- A judgement keeps every fault latched before it. -/
theorem latched_judgeGauge (g : GaugeId) {f : FaultCode} (h : f ∈ s.record.latched) :
    f ∈ (judgeGauge g s).record.latched := by
  by_cases bad : (s.gauge g).channel.validity ≠ .valid ∨ (s.gauge g).baseline = none
  · rw [judgeGauge_unjudged bad, latched_setGauge]
    exact h
  · obtain ⟨valid, based⟩ := not_or.mp bad
    obtain ⟨b, base⟩ := Option.ne_none_iff_exists'.mp based
    by_cases latches : s.latches g b
    · rw [judgeGauge_latching (not_not.mp valid) base latches, record_updGauge]
      exact (latched_latchUpliftStop _ _ _).mpr (.inr h)
    · rw [judgeGauge_counting (not_not.mp valid) base latches, record_updGauge]
      exact h

theorem gaugeLost_gaugeSampled (was : (s.gauge g).channel.validity = .suspect)
    (now : (s.gaugeSampling g i).channel.validity = .lost) : .upliftGaugeLost ∈ (gaugeSampled g i s).record.latched :=
  latched_partLoss ((loss_sample _ _ _ _ _).mpr ⟨was, now⟩) _

theorem gauge_sampled (g : GaugeId) (i : Nat) (s : State) :
    (gaugeSampled g i s).gauge g = { s.gauge g with channel := (s.gaugeSampling g i).channel } := by
  rw [gauge_gaugeSampled, if_pos rfl]

theorem line_gaugeSampled (g : GaugeId) (i : Nat) (s : State) (l : LineId) : (gaugeSampled g i s).line l = s.line l :=
  (gaugeSampled_keeps g i s).line (by decide) (by decide) (by decide) l

theorem settings_gaugeSampled (g : GaugeId) (i : Nat) (s : State) : (gaugeSampled g i s).settings = s.settings :=
  ((gaugeSampled_keeps g i s).2 .settings (by decide) :)

theorem stop_gaugeSampled (g : GaugeId) (i : Nat) (s : State) : (gaugeSampled g i s).stop = s.stop :=
  (gaugeSampled_keeps g i s).stop (by decide)

theorem line_formWarn (s : State) (l : LineId) : (formWarn s).line l = s.line l :=
  (formWarn_keeps s).line (by decide) (by decide) (by decide) l

theorem gauge_formWarn (s : State) (g : GaugeId) : (formWarn s).gauge g = s.gauge g := (formWarn_keeps s).gauge (by decide) g

theorem exercise_formWarn (s : State) : (formWarn s).exercise = s.exercise := ((formWarn_keeps s).2 .exercise (by decide) :)

theorem latches_gaugeSampled (g : GaugeId) (i : Nat) (s : State) (b : Int) :
    (gaugeSampled g i s).latches g b ↔
      (s.settings.stopThreshold : Int) ≤ (s.gaugeSampling g i).channel.value - b ∧ 1 ≤ (s.gauge g).stopCount ∧
        s.stop.upliftStop = false := by
  rw [State.latches, gauge_sampled, settings_gaugeSampled, stop_gaugeSampled]

/-- The gauge's record with a valid sample counted towards UPLIFT_STOP. -/
def State.gaugeCounted (s : State) (g : GaugeId) (i : Nat) (b : Int) : Gauge :=
  Gauge.countStop s.settings.stopThreshold ((s.gaugeSampling g i).channel.value - b)
    { s.gauge g with channel := (s.gaugeSampling g i).channel }

theorem judgement_gaugeSampled (g : GaugeId) (i : Nat) (s : State) (b : Int) :
    (gaugeSampled g i s).judgement g b =
      (s.gaugeCounted g i b).countWarn s.settings.warnThreshold s.settings.hysteresis := by
  rw [State.judgement, gauge_sampled, settings_gaugeSampled, State.gaugeCounted]

end

section
variable {s : State} {g : GaugeId} {i : Nat} {b : Int}

/-- The part after the gauge's sample (R139). -/
def gaugeDone (g : GaugeId) (i : Nat) (s : State) : State := formWarn (judgeGauge g (gaugeSampled g i s))

theorem gauge_gaugeDone (g : GaugeId) (i : Nat) (s : State) (h : GaugeId) :
    (gaugeDone g i s).gauge h = (judgeGauge g (gaugeSampled g i s)).gauge h := gauge_formWarn _ h

theorem line_gaugeDone (g : GaugeId) (i : Nat) (s : State) (l : LineId) :
    (gaugeDone g i s).line l = (judgeGauge g (gaugeSampled g i s)).line l := line_formWarn _ l

theorem upliftStop_gaugeDone (g : GaugeId) (i : Nat) (s : State) :
    (gaugeDone g i s).stop.upliftStop = (judgeGauge g (gaugeSampled g i s)).stop.upliftStop := upliftStop_formWarn _

theorem exercise_gaugeDone (g : GaugeId) (i : Nat) (s : State) :
    (gaugeDone g i s).exercise = (judgeGauge g (gaugeSampled g i s)).exercise := exercise_formWarn _

theorem stage_gaugeDone (g : GaugeId) (i : Nat) (s : State) (k : StageKey) :
    (gaugeDone g i s).stage? k = (judgeGauge g (gaugeSampled g i s)).stage? k := (formWarn_keeps _).stage (by decide) k

theorem gaugeDone_unjudged (bad : (s.gaugeSampling g i).channel.validity ≠ .valid ∨ (s.gauge g).baseline = none) :
    (gaugeDone g i s).gauge g = { s.gauge g with
      channel := (s.gaugeSampling g i).channel, warnCount := 0, clearCount := 0, stopCount := 0, judged := false } ∧
    (gaugeDone g i s).stop.upliftStop = s.stop.upliftStop ∧ ∀ l, (gaugeDone g i s).line l = s.line l := by
  have unjudged : judgeGauge g (gaugeSampled g i s) = (gaugeSampled g i s).setGauge g
      ((gaugeSampled g i s).gauge g).notJudged := judgeGauge_unjudged (by rw [gauge_sampled]; exact bad)
  refine ⟨?_, ?_, fun l => ?_⟩
  · rw [gauge_gaugeDone, unjudged, gauge_setGauge, if_pos rfl, gauge_sampled, Gauge.notJudged]
  · rw [upliftStop_gaugeDone, unjudged, stop_setGauge, stop_gaugeSampled]
  · rw [line_gaugeDone, unjudged, line_setGauge, line_gaugeSampled]

section
variable (valid : (s.gaugeSampling g i).channel.validity = .valid) (base : (s.gauge g).baseline = some b)
include valid base

theorem gaugeDone_judged :
    (gaugeDone g i s).gauge g = (s.gaugeCounted g i b).countWarn
        s.settings.warnThreshold s.settings.hysteresis := by
  rw [gauge_gaugeDone, gauge_judgeGauge (b := b) (by rw [gauge_sampled]; exact valid) (by rw [gauge_sampled]; exact base),
    if_pos rfl, judgement_gaugeSampled]

theorem judgeGauge_sampled_latching (latches : (gaugeSampled g i s).latches g b) :
    judgeGauge g (gaugeSampled g i s) = (latchUpliftStop g (stopCounted g b (gaugeSampled g i s))).updGauge g
      (Gauge.countWarn (gaugeSampled g i s).settings.warnThreshold (gaugeSampled g i s).settings.hysteresis) :=
  judgeGauge_latching (by rw [gauge_sampled]; exact valid) (by rw [gauge_sampled]; exact base) latches

theorem judgeGauge_sampled_counting (counts : ¬ (gaugeSampled g i s).latches g b) :
    judgeGauge g (gaugeSampled g i s) = (stopCounted g b (gaugeSampled g i s)).updGauge g
      (Gauge.countWarn (gaugeSampled g i s).settings.warnThreshold (gaugeSampled g i s).settings.hysteresis) :=
  judgeGauge_counting (by rw [gauge_sampled]; exact valid) (by rw [gauge_sampled]; exact base) counts

theorem upliftStop_judged :
    (gaugeDone g i s).stop.upliftStop = true ↔ s.stop.upliftStop = true ∨ (gaugeSampled g i s).latches g b := by
  rw [upliftStop_gaugeDone]
  by_cases latches : (gaugeSampled g i s).latches g b
  · rw [judgeGauge_sampled_latching valid base latches, stop_updGauge, stop_latchUpliftStop]
    simp [latches]
  · rw [judgeGauge_sampled_counting valid base latches, stop_updGauge, stopCounted, stop_setGauge, stop_gaugeSampled]
    simp [latches]

/-- UPLIFT_STOP latched by the sample: the part stopped (R62, R141, R166). -/
theorem gaugeDone_latching (latches : (gaugeSampled g i s).latches g b) :
    (gaugeDone g i s).exercise = 0 ∧ (gaugeDone g i s).permitClosed = false ∧
    .upliftStop ∈ (gaugeDone g i s).record.latched ∧
    (∀ l, (gaugeDone g i s).line l = (s.line l).stoppedBy .uplift .upliftStop s.settings.travelTime) ∧
    (∀ k z, s.stage? k = some z → ∀ [Decidable (z.status = .active ∧ ∃ l, (s.line l).state = .opening ∧ (s.line l).stage = some k)],
      (gaugeDone g i s).stage? k = some (
        if z.status = .active ∧ ∃ l, (s.line l).state = .opening ∧ (s.line l).stage = some k then
          { z with status := .ready } else z)) := by
  have judged := judgeGauge_sampled_latching valid base latches
  have line (l : LineId) : (stopCounted g b (gaugeSampled g i s)).line l = s.line l := line_gaugeSampled g i s l
  have settings : (stopCounted g b (gaugeSampled g i s)).settings = s.settings := settings_gaugeSampled g i s
  have stage (k : StageKey) : (stopCounted g b (gaugeSampled g i s)).stage? k = s.stage? k :=
    (gaugeSampled_keeps g i s).stage (by decide) k
  refine ⟨?_, ?_, ?_, fun l => ?_, fun k z found => ?_⟩
  · rw [exercise_gaugeDone, judged, exercise_updGauge, exercise_latchUpliftStop]
  · exact permitClosed_of_upliftStop ((upliftStop_judged valid base).mpr (.inr latches))
  · rw [gaugeDone, latched_formWarn, judged, record_updGauge]
    exact (latched_latchUpliftStop _ _ _).mpr (.inl rfl)
  · rw [line_gaugeDone, judged, line_updGauge, line_latchUpliftStop, line, settings]
  · intro
    have latched := stage_latchUpliftStop (g := g) ((stage k).trans found)
    simp only [line] at latched
    rw [stage_gaugeDone, judged, stage_updGauge]
    exact latched

theorem gaugeDone_counting (counts : ¬ (gaugeSampled g i s).latches g b) :
    (gaugeDone g i s).exercise = s.exercise ∧ ∀ l, (gaugeDone g i s).line l = s.line l := by
  have judged := judgeGauge_sampled_counting valid base counts
  refine ⟨?_, fun l => ?_⟩
  · rw [exercise_gaugeDone, judged, exercise_updGauge]
    exact ((gaugeSampled_keeps g i s).2 .exercise (by decide) :)
  · rw [line_gaugeDone, judged, line_updGauge]
    exact line_gaugeSampled g i s l

end

end

/-- Settles O52: the gauge sampled, judged over its baseline, and the stop latched on its second high sample. -/
theorem gaugeSampleJudgesAndLatches : Obligations.GaugeSampleJudgesAndLatches := by
  classical
  refine ⟨fun s g i off => ?_, fun s g i on => ?_⟩
  · exact congrArg Host.Outcome.next (if_neg (by rw [off]; decide))
  have run : exec (.gaugeSampleEvent g i) s = .next (gaugeDone g i s) := congrArg Host.Outcome.next (if_pos on)
  obtain ⟨channel, baseline, -⟩ := gauge_judgeGauge_rest g g (gaugeSampled g i s)
  rw [gauge_sampled] at channel baseline
  refine ⟨_, run, (congrArg Gauge.channel (gauge_gaugeDone g i s g)).trans channel,
    (congrArg Gauge.baseline (gauge_gaugeDone g i s g)).trans baseline, fun h other => ?_, fun was now => ?_,
    fun bad => gaugeDone_unjudged bad, fun b valid base => ?_,
    degraded_formWarn (enabled_gaugeSample g i s), warn_formWarn (enabled_gaugeSample g i s)⟩
  · obtain ⟨-, -, rest⟩ := gauge_judgeGauge_rest g h (gaugeSampled g i s)
    rw [gauge_gaugeDone, rest other, gauge_gaugeSampled, if_neg other]
  · rw [gaugeDone, latched_formWarn]
    exact latched_judgeGauge g (gaugeLost_gaugeSampled was now)
  · have latches := latches_gaugeSampled g i s b
    have gauge := gaugeDone_judged valid base
    obtain ⟨-, -, judged, rise, stopCount⟩ := countWarn_sampling s.settings.warnThreshold s.settings.hysteresis
      (s.gaugeCounted g i b)
    rw [← gauge] at judged rise stopCount
    refine ⟨judged, rise, stopCount, fun quiet => ?_, fun warning => ?_,
      (upliftStop_judged valid base).trans (or_congr_right latches),
      fun latching => ?_, fun counts => gaugeDone_counting valid base (latches.not.mpr counts)⟩
    · have counted : (s.gaugeCounted g i b).warning = false := quiet
      rw [gauge, countWarn_quiet _ _ counted]
      exact ⟨rfl, rfl, rfl⟩
    · have counted : (s.gaugeCounted g i b).warning = true := warning
      rw [gauge, countWarn_warning _ _ counted]
      exact ⟨rfl, rfl, rfl⟩
    · obtain ⟨exercise, permit, latched, line, stage⟩ := gaugeDone_latching valid base (latches.mpr latching)
      exact ⟨exercise, permit, latched, line, fun k z found => stage k z found⟩

end Sys2Proof.Machine
end

section
/-! PROOFS. The timers (R34, R42, R58 to R60). -/

namespace Sys2Proof.Machine

section
variable {s t u : State} {l m : LineId} {k : StageKey} {x : Stage} {g : Grant} {r : EndReason}

/-! ### An entry of the fault history (R162) -/

theorem mem_appendFault (e : FaultEntry) (h : List FaultEntry) : e ∈ appendFault e h := by
  have drop : (h ++ [e]).length - 16 ≤ h.length := by rw [List.length_append, List.length_singleton]; omega
  rw [appendFault, lastN, List.drop_append_of_le_length drop]
  exact List.mem_append_right _ List.mem_cons_self

theorem faults_enterFault (f : FaultCode) (d : FaultDetail) (loc : Option FaultLocation) (c : Consequence) (s : State) :
    (enterFault f d loc c s).record.faults = appendFault ⟨s.record.nextFault, f, d, s.clock.site, loc, c⟩ s.record.faults := by
  unfold enterFault writeThrough
  dsimp only
  split <;> rfl

/-- A fault entered stands in the history as it was entered. -/
theorem entry_enterFault (f : FaultCode) (d : FaultDetail) (loc : Option FaultLocation) (c : Consequence) (s : State) :
    ∃ e ∈ (enterFault f d loc c s).record.faults,
      e.code = f ∧ e.detail = d ∧ e.location = loc ∧ e.consequence = c ∧ e.time = s.clock.site :=
  ⟨_, by rw [faults_enterFault]; exact mem_appendFault _ _, rfl, rfl, rfl, rfl, rfl⟩

theorem keeps.record {A : List Part} (h : keeps A s t)
    (hA : ∀ q ∈ [Part.recordQueue, .completions, .faults], q ∉ A) : t.record = s.record := by
  simp only [List.forall_mem_cons] at hA
  obtain ⟨queue, completions, faults, -⟩ := hA
  obtain ⟨records, nextRecord, c0, c1⟩ := h.2 .recordQueue queue
  obtain ⟨faults, nextFault, latched⟩ := h.2 .faults faults
  have completions := h.2 .completions completions
  cases hs : s.record
  cases ht : t.record
  simp only [Part.same, hs, ht] at *
  simp_all

/-! ### A line closed, and what becomes of its stage (R60, R62) -/

/-- The line closed for the reason `r`, then its stage, where one is bound, changed by `f`. -/
def closedWith (r : EndReason) (l : LineId) (f : StageKey → State → State) (s : State) : State :=
  withBound l f (closeLine r l s)

section
variable {f : StageKey → State → State} (frame : ∀ k s, keeps [.stages, .writes, .queues] s (f k s))
  (inputs : ∀ k s, (f k s).orderInputs = s.orderInputs)
include frame

theorem line_closedWith (m : LineId) :
    (closedWith r l f s).line m = if m = l then (s.line l).closed r s.settings.travelTime else s.line m :=
  ((withBound_keeps l f (closeLine r l s) (fun k => frame k _)).line (by decide) (by decide) (by decide) m).trans
    (line_closeLine r l m s)

theorem closedWith_keeps : keeps [.lines, .mixOrder, .queues, .stages, .writes] s (closedWith r l f s) :=
  (withBound_keeps l f _ (fun k => frame k _)).after (by decide) ((closeLine_keeps r l s).mono (by decide))

omit frame in
theorem stage_closedWith (bound : (s.line l).stage = some k) (j : StageKey) :
    (closedWith r l f s).stage? j = (f k (closeLine r l s)).stage? j := by
  have held : ((closeLine r l s).line l).stage = some k := by rw [line_closeLine, if_pos rfl]; exact bound
  rw [closedWith, withBound_bound held]

include inputs in
theorem mixOrder_closedWith : (closedWith r l f s).grout.mixOrder = lowestClass (closedWith r l f s).orderInputs := by
  have order : (closedWith r l f s).grout.mixOrder = (closeLine r l s).grout.mixOrder :=
    (withBound_keeps l f _ (fun k => frame k _)).2 .mixOrder (by decide)
  have same : (closedWith r l f s).orderInputs = (closeLine r l s).orderInputs := by
    unfold closedWith withBound
    split
    · exact inputs _ _
    · rfl
  rw [order, same]
  exact mixOrder_formMixOrder _

include inputs in
/-- The line closed and its stage changed, then alerts and a fault entry. -/
theorem closedWith_then (rest : keeps [.queues, .faults, .writes] (closedWith r l f s) t) :
    t.line l = (s.line l).closed r s.settings.travelTime ∧ sameOtherLines l s t ∧
    t.grout.mixOrder = lowestClass t.orderInputs ∧ ∀ j, t.stage? j = (closedWith r l f s).stage? j := by
  have line (m : LineId) := rest.line (by decide) (by decide) (by decide) m
  have order : t.grout.mixOrder = (closedWith r l f s).grout.mixOrder := rest.2 .mixOrder (by decide)
  refine ⟨?_, fun m other => ?_, ?_, rest.stage (by decide)⟩
  · rw [line, line_closedWith frame, if_pos rfl]
  · rw [line, line_closedWith frame, if_neg other]
  · rw [order, mixOrder_closedWith frame inputs,
      rest.orderInputs (by decide) (by decide) (by decide) (by decide)]

end

/-- The stage of a line closed with a suspension (R14). -/
theorem stage_closedWith_suspend (c : EndCause) (bound : (s.line l).stage = some k) (found : s.stage? k = some x)
    (active : x.status = .active) (h : ∀ j, t.stage? j = (closedWith r l (fun k => suspendStage (some l) k c) s).stage? j) :
    t.stage? k = some (x.suspendedBy c) ∧ sameOtherStages k s t := by
  have changed (j : StageKey) : t.stage? j = if j = k then (s.stage? k).map (Stage.stopped c) else s.stage? j := by
    rw [h, stage_closedWith bound, stage_suspendStage, stage_closeLine, stage_closeLine]
  refine ⟨?_, fun j other => (changed j).trans (if_neg other)⟩
  rw [changed, if_pos rfl, found, Option.map_some, Stage.stopped, if_pos active]

/-- The stage of a line closed with the stage READY again (R12). -/
theorem stage_closedWith_ready (bound : (s.line l).stage = some k) (found : s.stage? k = some x)
    (active : x.status = .active) (h : ∀ j, t.stage? j = (closedWith r l returnToReady s).stage? j) :
    t.stage? k = some { x with status := .ready } ∧ sameOtherStages k s t := by
  have changed (j : StageKey) : t.stage? j = if j = k then (s.stage? k).map Stage.readied else s.stage? j := by
    rw [h, stage_closedWith bound, stage_returnToReady, stage_closeLine, stage_closeLine]
  refine ⟨?_, fun j other => (changed j).trans (if_neg other)⟩
  rw [changed, if_pos rfl, found, Option.map_some, Stage.readied, if_pos active]

/-! ### The hold limit (R42) -/

theorem holdExpired_iff (n : Nat) (x : Line) :
    x.holdExpired n = true ↔ x.state = .holding ∧ ∃ held, x.holdTimer = some held ∧ n * 60 ≤ held := by
  unfold Line.holdExpired
  cases x.holdTimer <;> simp

theorem timeoutHold_eq (l : LineId) (s : State) :
    timeoutHold l s = enterFault .holdTimeout (.causes (s.line l).causes) (some (.line l)) .suspend
      (closedWith .holdTimeout l (fun k => suspendStage (some l) k .holdTimeout) s) := rfl

/-! ### The accept window (R58) -/

theorem timerElapsed_iff (w : Option Timer) : timerElapsed w = true ↔ ∃ v, w = some v ∧ v.length ≤ v.elapsed := by
  cases w <;> simp [timerElapsed]

theorem acceptElapsed_iff (x : Line) :
    x.acceptElapsed = true ↔ x.state ∈ [LineState.opening, .armed] ∧
      ∃ g w, x.grant = some g ∧ g.phase = .live ∧ g.accept = some w ∧ w.length ≤ w.elapsed := by
  unfold Line.acceptElapsed
  cases x.grant <;> simp [timerElapsed_iff]

/-! ### The keepalive (R59, R60) -/

theorem lapsedGrant_iff (x : Line) (g : Grant) :
    x.lapsedGrant = some g ↔ x.grant = some g ∧ g.phase = .live ∧
      ∃ w, g.keepalive = some w ∧ w.length ≤ w.elapsed := by
  unfold Line.lapsedGrant
  rw [Option.filter_eq_some_iff]
  simp [timerElapsed_iff]

/-- What becomes of the stage of a grant whose keepalive expires. -/
def lapseStage (l : LineId) (g : Grant) (k : StageKey) : State → State :=
  if g.startTaken then suspendStage (some l) k .keepaliveLost else returnToReady k

theorem expireKeepalive_eq (l : LineId) (g : Grant) (s : State) :
    expireKeepalive l g s = enterFault .keepaliveLost (.port g.owner) (some (.line l))
      (if g.startTaken then .suspend else .record)
      (postLine l .keepaliveLost (some ((s.line l).state.code : Int)) (closedWith .keepaliveLost l (lapseStage l g) s)) := rfl

theorem lapseStage_keeps (l : LineId) (g : Grant) (k : StageKey) (s : State) :
    keeps [.stages, .writes, .queues] s (lapseStage l g k s) := by
  unfold lapseStage
  split
  · exact suspendStage_keeps _ _ _ _
  · exact (returnToReady_keeps _ _).mono (by decide)

theorem orderInputs_lapseStage (l : LineId) (g : Grant) (k : StageKey) (s : State) :
    (lapseStage l g k s).orderInputs = s.orderInputs := by
  unfold lapseStage
  split
  · exact orderInputs_suspendStage _ _ _ _
  · exact orderInputs_returnToReady _ _

/-- The stage of a grant whose keepalive expired: suspended once started, READY before (R60). -/
theorem stage_closedWith_lapse (bound : (s.line l).stage = some k) (found : s.stage? k = some x)
    (active : x.status = .active) (h : ∀ j, t.stage? j = (closedWith .keepaliveLost l (lapseStage l g) s).stage? j) :
    t.stage? k = some (if g.startTaken = true then x.suspendedBy .keepaliveLost else { x with status := .ready }) ∧
    sameOtherStages k s t := by
  by_cases started : g.startTaken = true
  · have lapse : lapseStage l g = fun k => suspendStage (some l) k .keepaliveLost := funext fun k => if_pos started
    rw [if_pos started]
    rw [lapse] at h
    exact stage_closedWith_suspend .keepaliveLost bound found active h
  · have lapse : lapseStage l g = returnToReady := funext fun k => if_neg started
    rw [if_neg started]
    rw [lapse] at h
    exact stage_closedWith_ready bound found active h

end

/-- Settles O54: the travel's timer, the hold limit, the accept window and the keepalive. -/
theorem timersEndHoldsAndGrants : Obligations.TimersEndHoldsAndGrants := by
  refine ⟨fun s l => rfl, fun s l => ⟨fun early => ?_, fun due => ?_⟩, fun s l => ⟨fun early => ?_, fun due => ?_⟩,
    fun s l => ⟨fun early => ?_, fun g due => ?_⟩⟩
  · exact congrArg Host.Outcome.next (if_neg ((holdExpired_iff _ _).not.mpr early))
  · have run : exec (.holdTimeout l) s = .next (timeoutHold l s) :=
      congrArg Host.Outcome.next (if_pos ((holdExpired_iff _ _).mpr due))
    rw [timeoutHold_eq] at run
    obtain ⟨line, others, order, stages⟩ := closedWith_then (fun k s => suspendStage_keeps _ _ _ _)
      (fun k s => orderInputs_suspendStage _ _ _ _)
      ((enterFault_keeps .holdTimeout (.causes (s.line l).causes) (some (.line l)) .suspend _).mono (by decide))
    exact ⟨_, run, line, others, (mem_latched_enterFault _ _ _ _).mpr (.inl rfl), order,
      fun k z bound found active => stage_closedWith_suspend _ bound found active stages⟩
  · exact congrArg Host.Outcome.next (if_neg ((acceptElapsed_iff _).not.mpr early))
  · have run : exec (.acceptWindowExpiry l) s = .next (closedWith .acceptExpired l returnToReady s) :=
      congrArg Host.Outcome.next (if_pos ((acceptElapsed_iff _).mpr due))
    have frame (k : StageKey) (s : State) : keeps [.stages, .writes, .queues] s (returnToReady k s) :=
      (returnToReady_keeps k s).mono (by decide)
    obtain ⟨line, others, order, stages⟩ := closedWith_then frame (fun k s => orderInputs_returnToReady k s)
      (keeps_refl _ (closedWith .acceptExpired l returnToReady s))
    exact ⟨_, run, line, others, (closedWith_keeps frame).record (by decide), order,
      fun k z bound found active => stage_closedWith_ready bound found active stages⟩
  · have none : (s.line l).lapsedGrant = none :=
      Option.eq_none_iff_forall_ne_some.mpr fun g lapsed => early g ((lapsedGrant_iff _ _).mp lapsed)
    simp only [exec, execKeepaliveExpiry, none]
  · have lapsed := (lapsedGrant_iff _ _).mpr due
    have run : exec (.keepaliveExpiry l) s = .next (expireKeepalive l g s) := by
      simp only [exec, execKeepaliveExpiry, lapsed]
    rw [expireKeepalive_eq] at run
    obtain ⟨line, others, order, stages⟩ := closedWith_then (lapseStage_keeps l g) (orderInputs_lapseStage l g)
      ((enterFault_keeps .keepaliveLost (.port g.owner) (some (.line l)) (if g.startTaken then .suspend else .record)
        (postLine l .keepaliveLost (some ((s.line l).state.code : Int))
          (closedWith .keepaliveLost l (lapseStage l g) s))).after (by decide)
              ((postLine_keeps _ _ _ _).mono (by decide)))
    obtain ⟨e, entered, code, detail, location, consequence, -⟩ :=
      entry_enterFault .keepaliveLost (.port g.owner) (some (.line l)) (if g.startTaken then .suspend else .record)
        (postLine l .keepaliveLost (some ((s.line l).state.code : Int)) (closedWith .keepaliveLost l (lapseStage l g) s))
    refine ⟨_, run, line, others, (mem_latched_enterFault _ _ _ _).mpr (.inl rfl), order,
      ⟨e, entered, code, detail, location, consequence⟩, fun k z bound found active => ?_⟩
    exact stage_closedWith_lapse bound found active stages

end Sys2Proof.Machine
end

section
/-! PROOFS. The events of the store (R23, R24). -/

namespace Sys2Proof.Machine

section
variable {s : State} {w : StoreWrite} {rest : List StoreWrite}

theorem exec_storeWriteCompleted (h : s.store.writes = w :: rest) :
    exec .storeWriteCompleted s = .next { s with store := { s.store with writes := rest, nv := s.store.nv.apply w } } := by
  simp only [exec, execStoreWriteCompleted, h]

/-- The part as a write fails: STORE_FAULT latched, nothing left to write (R24). -/
def writesFailed (s : State) : State := { s with store := { s.store with writes := [], fault := true } }

theorem exec_storeWriteFailed (h : s.store.writes = w :: rest) :
    exec .storeWriteFailed s = .next (reportStoreFault .absent w.location (writesFailed s)) := by
  simp only [exec, execStoreWriteFailed, h, writesFailed]

/-- Under STORE_FAULT a write-through leaves the store as it is (R24). -/
theorem writeThrough_faulted (h : s.store.fault = true) (w : StoreWrite) : writeThrough w s = s := if_pos h

theorem store_enterFault_faulted (h : s.store.fault = true) (f : FaultCode) (d : FaultDetail) (loc : Option FaultLocation)
    (c : Consequence) : (enterFault f d loc c s).store = s.store := by
  unfold enterFault
  rw [writeThrough_faulted (by exact h)]
  rfl

theorem store_postPart (k : AlertKind) (d : Option Int) (s : State) : (postPart k d s).store = s.store :=
  (postPart_keeps k d s).store (by decide) (by decide) (by decide) (by decide)

theorem store_reportStoreFault (h : s.store.fault = true) (d : FaultDetail) (loc : Option FaultLocation) :
    (reportStoreFault d loc s).store = s.store := by
  rw [reportStoreFault, store_enterFault_faulted (by rw [store_postPart]; exact h), store_postPart]

theorem removeStage_eq (k : StageKey) (xs : List Stage) : removeStage k xs = xs.filter (fun x => x.key ≠ k) :=
  List.filter_congr fun _ _ => by rw [bne_eq, decide_not, beq_eq_decide]

theorem dropSummary_eq (k : StageKey) (xs : List Summary) : dropSummary k xs = xs.filter (fun y => y.key ≠ k) :=
  List.filter_congr fun _ _ => by rw [bne_eq, decide_not, beq_eq_decide]

theorem lookupStage_insertStage_self (x : Stage) (xs : List Stage) : lookupStage x.key (insertStage x xs) = some x := by
  rw [lookupStage_insertStage, if_pos rfl]

end

/-- Settles O55: the oldest write completes into the copy, or its failure latches STORE_FAULT. -/
theorem storeWritesCompleteOrFail : Obligations.StoreWritesCompleteOrFail := by
  refine ⟨fun s none => ⟨?_, ?_⟩, fun s w rest writes => ⟨⟨_, exec_storeWriteCompleted writes, ?_, ?_, ?_, ?_, ?_, ?_, ?_⟩,
    ⟨_, exec_storeWriteFailed writes, ?_, ?_, ?_, ?_⟩⟩⟩
  · simp only [exec, execStoreWriteCompleted, none]
  · simp only [exec, execStoreWriteFailed, none]
  · rintro x rfl
    exact ⟨lookupStage_insertStage_self _ _, rfl, fun j other => by
      rw [NvCopy.apply, lookupStage_insertStage, if_neg other]⟩
  · rintro k rfl
    rw [NvCopy.apply, removeStage_eq, dropSummary_eq]
  · rintro l c rfl
    exact ⟨rfl, Vector.get_set_self _ _ _, fun m other => Vector.get_set_ne _ _ other⟩
  · rintro c rfl; rfl
  · rintro m rfl
    rw [NvCopy.apply, putSummary, dropSummary_eq]
  · rintro e rfl
    simp only [NvCopy.apply, appendFault, lastN, List.length_append, List.length_singleton, nextNumber]
  · rintro c0 c1 rfl; rfl
  · exact store_reportStoreFault rfl _ _
  · exact (mem_latched_enterFault _ _ _ _).mpr (.inl rfl)
  · exact congrArg Store.fault (store_reportStoreFault rfl _ _)
  · obtain ⟨e, entered, code, -, location, consequence, -⟩ :=
      entry_enterFault .storeWrite .absent w.location .record (postPart .storeFault none (writesFailed s))
    refine ⟨e, entered, code, consequence, ?_⟩
    rintro x rfl
    exact location

end Sys2Proof.Machine
end

section
/-! PROOFS. The line sample, its channels and its valve compare (R32 to R36, R68 to R78). -/

namespace Sys2Proof.Machine

section
variable {s t u : State} {l m : LineId} {x y : Line} {r p q : Sampled} {i : Nat} {f o c : Bool} {rb : Readback}

/-! ### A channel's consequences for its line (R40, R77, R78) -/

/-- The line once a loss of one of its channels has had its effect. -/
def Line.lossed (r : Sampled) (x : Line) : Line := if r.loss then x.held .sensor else x

/-- The line once the sample of one of its channels has had its effect. -/
def Line.affected (r : Sampled) (x : Line) : Line :=
  if r.regain && !(x.lossed r).sensorLoss then (x.lossed r).freed .sensor else x.lossed r

/-- What a hold cause never changes of its line. -/
def Line.steady (x : Line) : Line := { x with state := .idle, causes := [], holdTimer := none, decision := none }

theorem steady_held (c : HoldCause) (x : Line) : (x.held c).steady = x.steady := by
  unfold Line.held
  split
  · rfl
  · split <;> rfl

theorem steady_freed (c : HoldCause) (x : Line) : (x.freed c).steady = x.steady := by
  unfold Line.freed
  split <;> rfl

theorem steady_lossed (r : Sampled) (x : Line) : (x.lossed r).steady = x.steady := by
  unfold Line.lossed
  split
  · exact steady_held _ _
  · rfl

theorem steady_affected (r : Sampled) (x : Line) : (x.affected r).steady = x.steady := by
  unfold Line.affected
  split
  · rw [steady_freed, steady_lossed]
  · exact steady_lossed r x

theorem held_of_unevaluated (h : x.state.evaluated = false) (c : HoldCause) : x.held c = x := by
  unfold Line.held
  split
  · rfl
  · split <;> simp_all [LineState.evaluated]

theorem freed_of_unevaluated (h : x.state.evaluated = false) (c : HoldCause) : x.freed c = x := by
  unfold Line.freed
  split <;> simp_all [LineState.evaluated]

/-- A line with no envelope takes no SENSOR cause. -/
theorem affected_of_unevaluated (h : x.state.evaluated = false) (r : Sampled) : x.affected r = x := by
  unfold Line.affected Line.lossed
  simp only [held_of_unevaluated h, freed_of_unevaluated h, ite_self]

theorem sensorLoss_congr (h : y.steady = x.steady) : y.sensorLoss = x.sensorLoss := by
  have pressure : y.pressure = x.pressure := (congrArg Line.pressure h :)
  have flow : y.flow = x.flow := (congrArg Line.flow h :)
  rw [Line.sensorLoss, Line.sensorLoss, pressure, flow]

/-- The state once a saturation and a loss of the channel have had their effect. -/
def lossTaken (k : LineChannel) (i : Nat) (r : Sampled) (l : LineId) (s : State) : State :=
  let n : Int := (k.number l : Nat)
  let s := if r.saturated then postLine l .counterSaturated (some n) s else s
  if r.loss then
    addCause .sensor l (enterFault k.code (.value i) (some (.line l))
      (if (s.line l).state.evaluated then .hold else .record) (postLine l .sensorLost (some n) s))
  else s

theorem lineChannelEffects_eq (k : LineChannel) (i : Nat) (r : Sampled) (l : LineId) (s : State) :
    lineChannelEffects k i r l s =
      if r.regain && !((lossTaken k i r l s).line l).sensorLoss then removeCause .sensor l (lossTaken k i r l s)
      else lossTaken k i r l s := rfl

theorem line_saturated (b : Bool) (d : Option Int) (s : State) (m : LineId) :
    (if b then postLine l .counterSaturated d s else s).line m = s.line m := by
  split
  · exact line_postLine _ _ _ _ _
  · rfl

theorem line_enterFault (f : FaultCode) (d : FaultDetail) (loc : Option FaultLocation) (q : Consequence) (s : State)
    (m : LineId) : (enterFault f d loc q s).line m = s.line m :=
  (enterFault_keeps f d loc q s).line (by decide) (by decide) (by decide) m

theorem line_lossTaken (k : LineChannel) (i : Nat) (r : Sampled) (l : LineId) (s : State) (m : LineId) :
    (lossTaken k i r l s).line m = if m = l then (s.line l).lossed r else s.line m := by
  unfold lossTaken Line.lossed
  dsimp only
  by_cases loss : r.loss = true
  · simp only [if_pos loss]
    rw [line_addCause, line_enterFault, line_enterFault, line_postLine, line_postLine, line_saturated, line_saturated]
  · simp only [if_neg loss]
    rw [line_saturated]
    split
    · subst m; rfl
    · rfl

theorem line_lineChannelEffects (k : LineChannel) (i : Nat) (r : Sampled) (l : LineId) (s : State) (m : LineId) :
    (lineChannelEffects k i r l s).line m = if m = l then (s.line l).affected r else s.line m := by
  have here : (lossTaken k i r l s).line l = (s.line l).lossed r := by
    rw [line_lossTaken, if_pos rfl]
  rw [lineChannelEffects_eq, here, Line.affected]
  by_cases same : m = l
  · subst m
    rw [if_pos rfl]
    split
    · rw [line_removeCause, if_pos rfl, here]
    · exact here
  · rw [if_neg same]
    split
    · rw [line_removeCause, if_neg same, line_lossTaken, if_neg same]
    · rw [line_lossTaken, if_neg same]

/-! ### Both samples of a line (R68, R69, R71) -/

/-- The line with both samples applied, and what they brought about. -/
def State.sampling (s : State) (l : LineId) (i : Nat) (f : Bool) : Line × Sampled × Sampled :=
  sampleLine s.counterTop s.settings.lossCount i f (s.line l)

/-- The line once both samples have had their effects. -/
def State.sampledLine (s : State) (l : LineId) (i : Nat) (f : Bool) : Line :=
  ((s.sampling l i f).1.affected (s.sampling l i f).2.1).affected (s.sampling l i f).2.2

/-- The part once both samples of the line have had their effects. -/
def channelsTaken (l : LineId) (i : Nat) (f : Bool) (s : State) : State :=
  lineChannelEffects .flow 0 (s.sampling l i f).2.2 l
    (lineChannelEffects .pressure i (s.sampling l i f).2.1 l (s.setLine l (s.sampling l i f).1))

theorem line_channelsTaken (l : LineId) (i : Nat) (f : Bool) (s : State) (m : LineId) :
    (channelsTaken l i f s).line m = if m = l then s.sampledLine l i f else s.line m := by
  rw [channelsTaken, line_lineChannelEffects, line_lineChannelEffects, line_lineChannelEffects, line_setLine,
    line_setLine, if_pos rfl, if_pos rfl]
  split
  · rfl
  · rfl

theorem channelsTaken_keeps (l : LineId) (i : Nat) (f : Bool) (s : State) :
    keeps [.lines, .lineSettings, .meters, .queues, .faults, .writes] s (channelsTaken l i f s) :=
  (lineChannelEffects_keeps _ _ _ _ _).after (by decide) ((lineChannelEffects_keeps _ _ _ _ _).after (by decide)
    ((setLine_keeps_all _ _ _).mono (by decide)))

theorem sampledLine_steady (s : State) (l : LineId) (i : Nat) (f : Bool) :
    (s.sampledLine l i f).steady = (s.sampling l i f).1.steady := by
  rw [State.sampledLine, steady_affected, steady_affected]

theorem sampling_state (s : State) (l : LineId) (i : Nat) (f : Bool) :
    (s.sampling l i f).1.state = (s.line l).state := rfl

theorem sampledLine_of_unevaluated (h : (s.line l).state.evaluated = false) (i : Nat) (f : Bool) :
    s.sampledLine l i f = (s.sampling l i f).1 := by
  have first : (s.sampling l i f).1.state.evaluated = false := by rw [sampling_state]; exact h
  rw [State.sampledLine, affected_of_unevaluated first, affected_of_unevaluated first]

/-! ### The valve compare (R32 to R36) -/

/-- The line with the readback of this sample. -/
def State.readLine (s : State) (l : LineId) (i : Nat) (f : Bool) (rb : Readback) : Line :=
  (s.sampledLine l i f).readValve rb

/-- The part with both samples and the readback of the line taken. -/
def sampleRead (l : LineId) (i : Nat) (f : Bool) (rb : Readback) (s : State) : State :=
  (channelsTaken l i f s).setLine l (s.readLine l i f rb)

theorem line_sampleRead (l : LineId) (i : Nat) (f : Bool) (rb : Readback) (s : State) (m : LineId) :
    (sampleRead l i f rb s).line m = if m = l then s.readLine l i f rb else s.line m := by
  rw [sampleRead, line_setLine]
  split
  · rfl
  · rw [line_channelsTaken, if_neg ‹_›]

theorem sampleRead_keeps (l : LineId) (i : Nat) (f : Bool) (rb : Readback) (s : State) :
    keeps [.lines, .lineSettings, .meters, .queues, .faults, .writes] s (sampleRead l i f rb s) :=
  (setLine_keeps_all _ _ _).after (by decide) (channelsTaken_keeps _ _ _ _)

/-- The compare of this sample finds no fault. -/
def State.readsCalm (s : State) (l : LineId) (rb : Readback) : Prop :=
  valveFaultOf (s.line l) rb ((s.line l).readValve rb).invalid = none

theorem valveFaultOf_congr {n : Nat} (travel : y.travel = x.travel) (command : y.command = x.command) :
    valveFaultOf y rb n = valveFaultOf x rb n := by
  unfold valveFaultOf
  rw [travel, command]

theorem sampledLine_travel (s : State) (l : LineId) (i : Nat) (f : Bool) :
    (s.sampledLine l i f).travel = (s.line l).travel := (congrArg Line.travel (sampledLine_steady s l i f) :)

theorem sampledLine_command (s : State) (l : LineId) (i : Nat) (f : Bool) :
    (s.sampledLine l i f).command = (s.line l).command := (congrArg Line.command (sampledLine_steady s l i f) :)

theorem sampledLine_invalid (s : State) (l : LineId) (i : Nat) (f : Bool) :
    (s.sampledLine l i f).invalid = (s.line l).invalid := (congrArg Line.invalid (sampledLine_steady s l i f) :)

theorem invalid_readValve (rb : Readback) (x : Line) :
    (x.readValve rb).invalid = if rb = .invalid then min 3 (x.invalid + 1) else 0 := rfl

theorem faultOf_sampledLine (s : State) (l : LineId) (i : Nat) (f : Bool) (rb : Readback) :
    valveFaultOf (s.sampledLine l i f) rb ((s.sampledLine l i f).readValve rb).invalid =
      valveFaultOf (s.line l) rb ((s.line l).readValve rb).invalid := by
  rw [invalid_readValve, invalid_readValve, sampledLine_invalid]
  exact valveFaultOf_congr (sampledLine_travel s l i f) (sampledLine_command s l i f)

theorem held_isolated (c : HoldCause) (x : Line) : (x.held c).state = .isolated ↔ x.state = .isolated := by
  unfold Line.held
  split
  · rfl
  · split <;> simp_all

theorem freed_state (c : HoldCause) (x : Line) : (x.freed c).state = x.state := by
  unfold Line.freed
  split <;> simp_all

theorem affected_isolated (r : Sampled) (x : Line) : (x.affected r).state = .isolated ↔ x.state = .isolated := by
  have lossed : (x.lossed r).state = .isolated ↔ x.state = .isolated := by
    unfold Line.lossed
    split
    · exact held_isolated _ _
    · rfl
  unfold Line.affected
  split
  · rw [freed_state, lossed]
  · exact lossed

theorem sampledLine_isolated (s : State) (l : LineId) (i : Nat) (f : Bool) :
    (s.sampledLine l i f).state = .isolated ↔ (s.line l).state = .isolated := by
  rw [State.sampledLine, affected_isolated, affected_isolated, sampling_state]

theorem valveCompare_calm (free : (s.line l).state ≠ .isolated) (calm : s.readsCalm l rb) (i : Nat) (f : Bool) :
    valveCompare l rb (channelsTaken l i f s) = confirmValve l (sampleRead l i f rb s) := by
  have here : (channelsTaken l i f s).line l = s.sampledLine l i f := by rw [line_channelsTaken, if_pos rfl]
  have moving : (s.sampledLine l i f).state ≠ .isolated := (sampledLine_isolated s l i f).not.mpr free
  have none : valveFaultOf (s.sampledLine l i f) rb ((s.sampledLine l i f).readValve rb).invalid = none :=
    (faultOf_sampledLine s l i f rb).trans calm
  unfold valveCompare
  simp only [here, if_neg moving, none]
  rfl

theorem valveCompare_isolated (isolated : (s.line l).state = .isolated) (i : Nat) (f : Bool) (rb : Readback) :
    valveCompare l rb (channelsTaken l i f s) = sampleRead l i f rb s := by
  have here : (channelsTaken l i f s).line l = s.sampledLine l i f := by rw [line_channelsTaken, if_pos rfl]
  unfold valveCompare
  simp only [here, if_pos ((sampledLine_isolated s l i f).mpr isolated)]
  rfl

/-! ### The whole event -/

/-- What the sample brings about once the valve is compared (R87, R115). -/
def sampleUsed (l : LineId) (regain wasOpening : Bool) (s : State) : State :=
  match (s.line l).state with
  | .armed | .injecting | .holding => if wasOpening then s else evaluate l s
  | .watch => watchEvaluation l regain s
  | .idle | .opening | .closing | .isolated => s

theorem exec_lineSample (present : (s.line l).settings.present = true) (i : Nat) (f o c : Bool) :
    exec (.lineSampleEvent l i f o c) s = .next (settleStartCheck (sampleUsed l (s.sampling l i f).2.1.regain
      (((channelsTaken l i f s).line l).state == .opening)
      (valveCompare l (readbackOf o c) (channelsTaken l i f s)))) :=
  congrArg Host.Outcome.next (if_pos present)

theorem exec_lineSample_absent (absent : (s.line l).settings.present = false) (i : Nat) (f o c : Bool) :
    exec (.lineSampleEvent l i f o c) s = .next s :=
  congrArg Host.Outcome.next (if_neg (by rw [absent]; decide))

theorem sampleUsed_idle (h : (s.line l).state = .idle ∨ (s.line l).state = .opening ∨ (s.line l).state = .closing ∨
    (s.line l).state = .isolated) (r w : Bool) : sampleUsed l r w s = s := by
  unfold sampleUsed
  rcases h with h | h | h | h <;> rw [h]

theorem sampleUsed_entered (h : (s.line l).state = .armed) (r : Bool) : sampleUsed l r true s = s := by
  unfold sampleUsed
  rw [h]
  rfl

theorem line_settleStartCheck (s : State) (m : LineId) : (settleStartCheck s).line m = s.line m :=
  (settleStartCheck_keeps s).line (by decide) (by decide) (by decide) m

end

end Sys2Proof.Machine
end

section
/-! PROOFS. A valve confirmed (R30, R31, R33). -/

namespace Sys2Proof.Machine

section
variable {s t u : State} {l m : LineId} {x y : Line} {i : Nat} {f o c : Bool} {rb : Readback} {w : Travel}

/-! ### The valve confirmed (R30, R31, R33) -/

theorem valveFaultOf_arrived {n : Nat} {pos : ValvePos} (command : x.command = pos)
    (towards : ∀ w, x.travel = some w → w.target = pos) (arrived : rb.at pos = true) (few : n ≠ 3) :
    valveFaultOf x rb n = none := by
  unfold valveFaultOf
  rw [if_neg few]
  cases travel : x.travel with
  | none => simp [command, arrived]
  | some w => simp [towards w travel, arrived]

theorem travel_readValve_arrived {pos : ValvePos} (towards : ∀ w, x.travel = some w → w.target = pos)
    (arrived : rb.at pos = true) : (x.readValve rb).travel = none := by
  unfold Line.readValve
  cases travel : x.travel with
  | none => rfl
  | some w => simp [towards w travel, arrived]

theorem valveFaultOf_travelling {n : Nat} (travel : x.travel = some w) (time : w.elapsed < w.allowed)
    (away : rb.at w.target = false) (few : n ≠ 3) : valveFaultOf x rb n = none := by
  unfold valveFaultOf
  rw [if_neg few, travel]
  simp [away, time]

theorem travel_readValve_travelling (travel : x.travel = some w) (away : rb.at w.target = false) :
    (x.readValve rb).travel = some w := by
  unfold Line.readValve
  simp [travel, away]

theorem readLine_of_unevaluated (h : (s.line l).state.evaluated = false) :
    s.readLine l i f rb = (s.sampling l i f).1.readValve rb := by
  rw [State.readLine, sampledLine_of_unevaluated h]

/-! ### OPENING to ARMED (R30) -/

theorem confirmValve_opening (opening : (s.line l).state = .opening) (travel : (s.line l).travel = none)
    (readback : (s.line l).readback = .opened) : confirmValve l s = enterArmed l s := by
  unfold confirmValve
  simp only [opening]
  exact if_pos ⟨travel, readback⟩

theorem confirmValve_closing (closing : (s.line l).state = .closing) (travel : (s.line l).travel = none)
    (readback : (s.line l).readback = .closed) : confirmValve l s = s.updLine l Line.toIdle := by
  unfold confirmValve
  simp only [closing]
  exact if_pos ⟨travel, readback⟩

theorem confirmValve_still (travel : (s.line l).travel = some w) : confirmValve l s = s := by
  unfold confirmValve
  cases state : (s.line l).state <;> simp [travel, state]

theorem confirmValve_other (h : (s.line l).state ≠ .opening) (h' : (s.line l).state ≠ .closing) : confirmValve l s = s := by
  unfold confirmValve
  cases state : (s.line l).state <;> simp_all

theorem line_enterArmed (l : LineId) (s : State) (m : LineId) :
    (enterArmed l s).line m = if m = l then
      { s.line l with state := .armed, causes := s.standingCauses (s.line l), recordTimer := some 0 } else s.line m := by
  rw [enterArmed, line_formMixOrder, line_updLine]

theorem mixOrder_enterArmed (l : LineId) (s : State) :
    (enterArmed l s).grout.mixOrder = lowestClass (enterArmed l s).orderInputs := mixOrder_formMixOrder _

theorem mem_standingCauses (s : State) (x : Line) (d : HoldCause) :
    d ∈ s.standingCauses x ↔ d = .console ∧ s.holdAll = true ∨
      d = .sensor ∧ (x.pressure.inLoss = true ∨ x.flow.inLoss = true) ∨ d = .aged ∧ s.grout.aged = true := by
  unfold State.standingCauses Line.sensorLoss
  cases s.holdAll <;> cases x.pressure.inLoss <;> cases x.flow.inLoss <;> cases s.grout.aged <;> simp

theorem mixOrder_settled (h : s.grout.mixOrder = lowestClass s.orderInputs) :
    (settleStartCheck s).grout.mixOrder = lowestClass (settleStartCheck s).orderInputs := by
  have kept := settleStartCheck_keeps s
  have order : (settleStartCheck s).grout.mixOrder = s.grout.mixOrder := kept.2 .mixOrder (by decide)
  rw [order, h, kept.orderInputs (by decide) (by decide) (by decide) (by decide)]

/-- A line OPENING whose valve is read OPEN enters ARMED. -/
theorem lineSample_arms (present : (s.line l).settings.present = true) (opening : (s.line l).state = .opening)
    (command : (s.line l).command = .opened) (towards : ∀ w, (s.line l).travel = some w → w.target = .opened)
    (i : Nat) (f : Bool) :
    exec (.lineSampleEvent l i f true false) s =
      .next (settleStartCheck (enterArmed l (sampleRead l i f .opened s))) := by
  have sampled : ((channelsTaken l i f s).line l).state = .opening := by
    rw [line_channelsTaken, if_pos rfl, sampledLine_of_unevaluated (by rw [opening]; rfl)]
    exact opening
  have calm : s.readsCalm l .opened := valveFaultOf_arrived command towards rfl (by decide : 0 ≠ 3)
  have here : (sampleRead l i f .opened s).line l = (s.sampling l i f).1.readValve .opened := by
    rw [line_sampleRead, if_pos rfl, readLine_of_unevaluated (by rw [opening]; rfl)]
  have confirm : confirmValve l (sampleRead l i f .opened s) = enterArmed l (sampleRead l i f .opened s) :=
    confirmValve_opening (by rw [here]; exact opening)
      (by rw [here]; exact travel_readValve_arrived towards rfl) (by rw [here]; rfl)
  have armed : ((enterArmed l (sampleRead l i f .opened s)).line l).state = .armed := by
    rw [line_enterArmed, if_pos rfl]
  rw [exec_lineSample present, sampled]
  have compare : valveCompare l (readbackOf true false) (channelsTaken l i f s) =
      enterArmed l (sampleRead l i f .opened s) :=
    (valveCompare_calm (rb := .opened) (by rw [opening]; decide) calm i f).trans confirm
  rw [compare]
  exact congrArg (fun u => Host.Outcome.next (settleStartCheck u)) (sampleUsed_entered armed _)

/-- A line CLOSING whose valve is read CLOSED reaches IDLE. -/
theorem lineSample_rests (present : (s.line l).settings.present = true) (closing : (s.line l).state = .closing)
    (command : (s.line l).command = .closed) (towards : ∀ w, (s.line l).travel = some w → w.target = .closed)
    (i : Nat) (f : Bool) :
    exec (.lineSampleEvent l i f false true) s =
      .next (settleStartCheck ((sampleRead l i f .closed s).updLine l Line.toIdle)) := by
  have calm : s.readsCalm l .closed := valveFaultOf_arrived command towards rfl (by decide : 0 ≠ 3)
  have here : (sampleRead l i f .closed s).line l = (s.sampling l i f).1.readValve .closed := by
    rw [line_sampleRead, if_pos rfl, readLine_of_unevaluated (by rw [closing]; rfl)]
  have confirm : confirmValve l (sampleRead l i f .closed s) = (sampleRead l i f .closed s).updLine l Line.toIdle :=
    confirmValve_closing (by rw [here]; exact closing)
      (by rw [here]; exact travel_readValve_arrived towards rfl) (by rw [here]; rfl)
  have idle : (((sampleRead l i f .closed s).updLine l Line.toIdle).line l).state = .idle := by
    rw [line_updLine_self]; rfl
  have compare : valveCompare l (readbackOf false true) (channelsTaken l i f s) =
      (sampleRead l i f .closed s).updLine l Line.toIdle :=
    (valveCompare_calm (rb := .closed) (by rw [closing]; decide) calm i f).trans confirm
  rw [exec_lineSample present, compare, sampleUsed_idle (.inl idle)]

theorem readbackOf_invalid (h : readbackOf o c = .invalid) : o = true ∧ c = true := by
  cases o <;> cases c <;> simp_all [readbackOf]

/-- A line whose valve is still on its way, within its time, stays as it was. -/
theorem lineSample_travels (present : (s.line l).settings.present = true)
    (state : (s.line l).state ∈ [LineState.opening, .closing])
    (travel : (s.line l).travel = some w) (time : w.elapsed < w.allowed) (away : (readbackOf o c).at w.target = false)
    (few : readbackOf o c = .invalid → (s.line l).invalid < 2) (i : Nat) (f : Bool) :
    exec (.lineSampleEvent l i f o c) s = .next (settleStartCheck (sampleRead l i f (readbackOf o c) s)) := by
  have moving : (s.line l).state.evaluated = false ∧ (s.line l).state ≠ .isolated := by
    simp only [List.mem_cons, List.not_mem_nil, or_false] at state
    rcases state with h | h <;> rw [h] <;> exact ⟨rfl, by decide⟩
  obtain ⟨unevaluated, free⟩ := moving
  have count : ((s.line l).readValve (readbackOf o c)).invalid ≠ 3 := by
    rw [invalid_readValve]
    split
    · have := few ‹_›
      omega
    · decide
  have calm : s.readsCalm l (readbackOf o c) := valveFaultOf_travelling travel time away count
  have here : (sampleRead l i f (readbackOf o c) s).line l = (s.sampling l i f).1.readValve (readbackOf o c) := by
    rw [line_sampleRead, if_pos rfl, readLine_of_unevaluated unevaluated]
  have confirm : confirmValve l (sampleRead l i f (readbackOf o c) s) = sampleRead l i f (readbackOf o c) s :=
    confirmValve_still (w := w) (by rw [here]; exact travel_readValve_travelling travel away)
  have still : ((sampleRead l i f (readbackOf o c) s).line l).state = (s.line l).state := by rw [here]; rfl
  have compare : valveCompare l (readbackOf o c) (channelsTaken l i f s) = sampleRead l i f (readbackOf o c) s :=
    (valveCompare_calm free calm i f).trans confirm
  rw [exec_lineSample present, compare, sampleUsed_idle]
  rw [still]
  simp only [List.mem_cons, List.not_mem_nil, or_false] at state
  rcases state with h | h
  · exact .inr (.inl h)
  · exact .inr (.inr (.inl h))

theorem stop_settled (started : s.stop.startCheck = true) (left : ∀ m, (s.line m).startCheck = false) :
    (settleStartCheck s).stop = { s.stop with startCheck := false, checkDone := true } := by
  have none : s.anyLine (fun x => x.startCheck) = false := by
    rw [State.anyLine, List.any_eq_false]
    intro m _
    simp [left m]
  rw [stop_settleStartCheck started, none]
  simp

theorem stages_settled (s : State) : (settleStartCheck s).store.stages = s.store.stages :=
  (settleStartCheck_keeps s).2 .stages (by decide)

end

/-- Settles O43: a line is ARMED or IDLE once its valve has arrived, and waits while it travels. -/
theorem readbackConfirmsTheValve : Obligations.ReadbackConfirmsTheValve := by
  intro s l i f present
  refine ⟨fun opening ⟨command, towards⟩ => ?_, fun closing ⟨command, towards⟩ => ?_,
    fun o c w state travel time few opens closes => ?_⟩
  · have read := sampleRead_keeps l i f .opened s
    have here : (sampleRead l i f .opened s).line l = (s.sampling l i f).1.readValve .opened := by
      rw [line_sampleRead, if_pos rfl, readLine_of_unevaluated (by rw [opening]; rfl)]
    have line : (settleStartCheck (enterArmed l (sampleRead l i f .opened s))).line l =
        { (s.sampling l i f).1.readValve .opened with
          state := .armed, recordTimer := some 0,
          causes := (sampleRead l i f .opened s).standingCauses ((s.sampling l i f).1.readValve .opened) } := by
      rw [line_settleStartCheck, line_enterArmed, if_pos rfl, here]
    have holdAll : (sampleRead l i f .opened s).holdAll = s.holdAll := read.2 .holdAll (by decide)
    have aged : (sampleRead l i f .opened s).grout.aged = s.grout.aged := read.2 .aged (by decide)
    refine ⟨_, lineSample_arms present opening command towards i f, ?_, ?_, ?_, ?_, ?_, ?_, ?_, fun d => ?_, ?_, ?_, ?_⟩
    · rw [line]
    · rw [line]; exact travel_readValve_arrived towards rfl
    · rw [line]
    · rw [line]; rfl
    · rw [line]; rfl
    · rw [line]; rfl
    · rw [line]; rfl
    · rw [line, ← holdAll, ← aged]
      exact mem_standingCauses _ _ d
    · exact mixOrder_settled (mixOrder_enterArmed _ _)
    · intro m other
      rw [line_settleStartCheck, line_enterArmed, if_neg other, line_sampleRead, if_neg other]
    · rw [stages_settled]
      exact ((enterArmed_keeps l _).2 .stages (by decide) :).trans (read.2 .stages (by decide) :)
  · have read := sampleRead_keeps l i f .closed s
    have here : (sampleRead l i f .closed s).line l = (s.sampling l i f).1.readValve .closed := by
      rw [line_sampleRead, if_pos rfl, readLine_of_unevaluated (by rw [closing]; rfl)]
    have line : ((sampleRead l i f .closed s).updLine l Line.toIdle).line l =
        ((s.sampling l i f).1.readValve .closed).toIdle := by
      rw [line_updLine_self, here]
    have others (m : LineId) (other : m ≠ l) :
        ((sampleRead l i f .closed s).updLine l Line.toIdle).line m = s.line m := by
      rw [line_updLine, if_neg other, line_sampleRead, if_neg other]
    have stop : (sampleRead l i f .closed s).stop = s.stop := read.stop (by decide)
    refine ⟨_, lineSample_rests present closing command towards i f, ?_, ?_, ?_, ?_, ?_, ?_, ?_, ?_, ?_, ?_, ?_⟩
    · rw [line_settleStartCheck, line]; rfl
    · rw [line_settleStartCheck, line]; exact travel_readValve_arrived towards rfl
    · rw [line_settleStartCheck, line]; rfl
    · rw [line_settleStartCheck, line]; rfl
    · rw [line_settleStartCheck, line]; rfl
    · rw [line_settleStartCheck, line]; rfl
    · rw [line_settleStartCheck, line]; rfl
    · rw [line_settleStartCheck, line]; rfl
    · intro m other
      rw [line_settleStartCheck, others m other]
    · rw [stages_settled]
      exact (read.2 .stages (by decide) :)
    · intro started left
      have begun : ((sampleRead l i f .closed s).updLine l Line.toIdle).stop = s.stop := stop
      rw [stop_settled (by rw [begun]; exact started) (fun m => ?_), begun]
      by_cases same : m = l
      · rw [same, line]; rfl
      · rw [others m same, left m same]
  · have away : (readbackOf o c).at w.target = false := by
      cases o <;> cases c <;> cases target : w.target <;> simp_all [readbackOf, Readback.at]
    have line : (settleStartCheck (sampleRead l i f (readbackOf o c) s)).line l =
        (s.sampling l i f).1.readValve (readbackOf o c) := by
      have unevaluated : (s.line l).state.evaluated = false := by
        simp only [List.mem_cons, List.not_mem_nil, or_false] at state
        rcases state with h | h <;> rw [h] <;> rfl
      rw [line_settleStartCheck, line_sampleRead, if_pos rfl, readLine_of_unevaluated unevaluated]
    refine ⟨_, lineSample_travels present state travel time away
      (fun h => few (readbackOf_invalid h).1 (readbackOf_invalid h).2) i f, ?_, ?_, ?_, ?_, ?_, ?_, ?_⟩
    · rw [line]; rfl
    · rw [line]; rfl
    · rw [line, travel]; exact travel_readValve_travelling travel away
    · rw [line]; rfl
    · rw [line]; rfl
    · intro m other
      rw [line_settleStartCheck, line_sampleRead, if_neg other]
    · rw [stages_settled]
      exact ((sampleRead_keeps l i f _ s).2 .stages (by decide) :)

end Sys2Proof.Machine
end

section
/-! PROOFS. The fault entries of a line sample (R77, R162). -/

namespace Sys2Proof.Machine

section
variable {s t u : State} {r : Records} {e : FaultEntry} {n : Nat} {k : LineChannel} {q : Sampled} {l m : LineId} {i : Nat}
  {f : Bool}

/-! ### The records once a fault is entered (R162, R163) -/

/-- The records with a fault entered. -/
def Records.entered (code : FaultCode) (d : FaultDetail) (site : Nat) (loc : Option FaultLocation) (c : Consequence)
    (r : Records) : Records :=
  { r with faults := appendFault ⟨r.nextFault, code, d, site, loc, c⟩ r.faults
           nextFault := nextNumber r.nextFault
           latched := if r.latched.contains code then r.latched else r.latched ++ [code] }

theorem record_enterFault (code : FaultCode) (d : FaultDetail) (loc : Option FaultLocation) (c : Consequence) (s : State) :
    (enterFault code d loc c s).record = s.record.entered code d s.clock.site loc c := by
  unfold enterFault
  rw [record_writeThrough]
  rfl

theorem mem_latched_entered (code g : FaultCode) (d : FaultDetail) (site : Nat) (loc : Option FaultLocation)
    (c : Consequence) (r : Records) :
    g ∈ (r.entered code d site loc c).latched ↔ g = code ∨ g ∈ r.latched := by
  unfold Records.entered
  dsimp only
  split
  case isTrue present =>
    have : code ∈ r.latched := by simpa using present
    exact ⟨.inr, fun h => h.elim (fun same => same ▸ this) id⟩
  case isFalse => simp [or_comm]

/-- The entry stands in the history with at most `n` newer ones. -/
def Records.entryWithin (n : Nat) (e : FaultEntry) (r : Records) : Prop :=
  ∃ old new, r.faults = old ++ e :: new ∧ new.length ≤ n

theorem Records.entryWithin.mem (h : r.entryWithin n e) : e ∈ r.faults := by
  obtain ⟨old, new, faults, -⟩ := h
  rw [faults]
  simp

theorem Records.entryWithin.mono {n' : Nat} (h : r.entryWithin n e) (le : n ≤ n') : r.entryWithin n' e := by
  obtain ⟨old, new, faults, few⟩ := h
  exact ⟨old, new, faults, few.trans le⟩

/-- What is appended to the history stands there, with what was newer than the 15th before. -/
theorem faults_appendFault (new : List FaultEntry) (e e' : FaultEntry) (old : List FaultEntry) (few : new.length ≤ 14) :
    ∃ older, appendFault e' (old ++ e :: new) = older ++ e :: (new ++ [e']) := by
  have short : (old ++ e :: (new ++ [e'])).length - 16 ≤ old.length := by simp; omega
  refine ⟨old.drop ((old ++ e :: (new ++ [e'])).length - 16), ?_⟩
  rw [appendFault, lastN, List.append_assoc, List.cons_append]
  exact List.drop_append_of_le_length short

theorem entryWithin_entered (h : r.entryWithin n e) (few : n ≤ 14) (code : FaultCode) (d : FaultDetail) (site : Nat)
    (loc : Option FaultLocation) (c : Consequence) : (r.entered code d site loc c).entryWithin (n + 1) e := by
  obtain ⟨old, new, faults, le⟩ := h
  obtain ⟨older, appended⟩ := faults_appendFault new e ⟨r.nextFault, code, d, site, loc, c⟩ old (le.trans few)
  refine ⟨older, new ++ [⟨r.nextFault, code, d, site, loc, c⟩], ?_, ?_⟩
  · rw [← appended, ← faults, Records.entered]
  · rw [List.length_append, List.length_singleton]
    omega

theorem entryWithin_entered_self (code : FaultCode) (d : FaultDetail) (site : Nat) (loc : Option FaultLocation)
    (c : Consequence) (r : Records) :
    (r.entered code d site loc c).entryWithin 0 ⟨r.nextFault, code, d, site, loc, c⟩ := by
  refine ⟨r.faults.drop ((r.faults ++ [(⟨r.nextFault, code, d, site, loc, c⟩ : FaultEntry)]).length - 16), [], ?_, le_rfl⟩
  have short : (r.faults ++ [(⟨r.nextFault, code, d, site, loc, c⟩ : FaultEntry)]).length - 16 ≤ r.faults.length := by
    simp
  exact List.drop_append_of_le_length short

/-! ### A channel's fault entry (R77) -/

/-- The consequence of a loss, by the state of its line (R77). -/
def LineState.lossClass (x : LineState) : Consequence := if x.evaluated then .hold else .record

theorem record_saturated (b : Bool) (d : Option Int) (l : LineId) (s : State) :
    (if b then postLine l .counterSaturated d s else s).record = s.record := by
  split
  · exact (postLine_keeps _ _ _ _).record (by decide)
  · rfl

theorem site_saturated (b : Bool) (d : Option Int) (l : LineId) (s : State) :
    (if b then postLine l .counterSaturated d s else s).clock.site = s.clock.site := by
  split
  · exact congrArg Clock.site ((postLine_keeps _ _ _ _).2 .clock (by decide) :)
  · rfl

theorem record_lossTaken (k : LineChannel) (i : Nat) (q : Sampled) (l : LineId) (s : State) :
    (lossTaken k i q l s).record = if q.loss = true then
      s.record.entered k.code (.value i) s.clock.site (some (.line l)) (s.line l).state.lossClass else s.record := by
  unfold lossTaken
  dsimp only
  by_cases loss : q.loss = true
  · simp only [if_pos loss]
    have site (u : State) (d : Option Int) : (postLine l .sensorLost d u).clock.site = u.clock.site :=
      congrArg Clock.site ((postLine_keeps _ _ _ _).2 .clock (by decide) :)
    rw [(addCause_keeps _ _ _).record (by decide), record_enterFault, (postLine_keeps _ _ _ _).record (by decide),
        site, record_saturated,
      site_saturated, line_saturated, LineState.lossClass]
  · simp only [if_neg loss]
    exact record_saturated _ _ _ _

theorem record_lineChannelEffects (k : LineChannel) (i : Nat) (q : Sampled) (l : LineId) (s : State) :
    (lineChannelEffects k i q l s).record = if q.loss = true then
      s.record.entered k.code (.value i) s.clock.site (some (.line l)) (s.line l).state.lossClass else s.record := by
  rw [lineChannelEffects_eq]
  split
  · rw [(removeCause_keeps _ _ _).record (by decide), record_lossTaken]
  · exact record_lossTaken k i q l s

/-! ### The line's state and its causes -/

theorem lossed_state (q : Sampled) (x : Line) :
    (x.lossed q).state = x.state ∨ x.state = .injecting ∧ (x.lossed q).state = .holding := by
  unfold Line.lossed
  split
  · unfold Line.held
    split
    · exact .inl rfl
    · split <;> simp_all
  · exact .inl rfl

theorem affected_state (q : Sampled) (x : Line) :
    (x.affected q).state = x.state ∨ x.state = .injecting ∧ (x.affected q).state = .holding := by
  have same : (x.affected q).state = (x.lossed q).state := by
    unfold Line.affected
    split
    · exact freed_state _ _
    · rfl
  rw [same]
  exact lossed_state q x

theorem affected_evaluated (q : Sampled) (x : Line) : (x.affected q).state.evaluated = x.state.evaluated := by
  rcases affected_state q x with same | ⟨was, now⟩
  · rw [same]
  · rw [was, now]; rfl

theorem sampledLine_evaluated (s : State) (l : LineId) (i : Nat) (f : Bool) :
    (s.sampledLine l i f).state.evaluated = (s.line l).state.evaluated := by
  rw [State.sampledLine, affected_evaluated, affected_evaluated, sampling_state]

theorem sampledLine_state_of_unevaluated (h : (s.line l).state.evaluated = false) (i : Nat) (f : Bool) :
    (s.sampledLine l i f).state = (s.line l).state := by
  rw [sampledLine_of_unevaluated h, sampling_state]

/-- The records after both samples of the line. -/
def State.sampledRecord (s : State) (l : LineId) (i : Nat) (f : Bool) : Records :=
  let pressure := if (s.sampling l i f).2.1.loss = true then
    s.record.entered .pressureLost (.value i) s.clock.site (some (.line l)) (s.line l).state.lossClass else s.record
  if (s.sampling l i f).2.2.loss = true then
    pressure.entered .flowLost (.value 0) s.clock.site (some (.line l)) (s.line l).state.lossClass else pressure

theorem record_channelsTaken (l : LineId) (i : Nat) (f : Bool) (s : State) :
    (channelsTaken l i f s).record = s.sampledRecord l i f := by
  have site : (lineChannelEffects .pressure i (s.sampling l i f).2.1 l
      (s.setLine l (s.sampling l i f).1)).clock.site = s.clock.site :=
    congrArg Clock.site ((lineChannelEffects_keeps _ _ _ _ _).2 .clock (by decide) :)
  have evaluated : ((lineChannelEffects .pressure i (s.sampling l i f).2.1 l
      (s.setLine l (s.sampling l i f).1)).line l).state.lossClass = (s.line l).state.lossClass := by
    rw [line_lineChannelEffects, if_pos rfl, LineState.lossClass, affected_evaluated, line_setLine_self, sampling_state,
      LineState.lossClass]
  rw [channelsTaken, record_lineChannelEffects, record_lineChannelEffects, site, evaluated, record_setLine,
    clock_setLine, line_setLine_self, sampling_state]
  rfl

theorem record_sampleRead (l : LineId) (i : Nat) (f : Bool) (rb : Readback) (s : State) :
    (sampleRead l i f rb s).record = s.sampledRecord l i f := record_channelsTaken l i f s

theorem latched_sampledRecord {g : FaultCode} (h : g ∈ s.record.latched) : g ∈ (s.sampledRecord l i f).latched := by
  unfold State.sampledRecord
  dsimp only
  split <;> split <;> simp [mem_latched_entered, h]

theorem latched_of_sampledRecord {g : FaultCode} (h : g ∈ (s.sampledRecord l i f).latched) (hp : g ≠ .pressureLost)
    (hf : g ≠ .flowLost) : g ∈ s.record.latched := by
  unfold State.sampledRecord at h
  dsimp only at h
  revert h
  split <;> split <;> simp [mem_latched_entered, hp, hf]

end

end Sys2Proof.Machine
end

section
/-! PROOFS. Valve faults and LOCKDOWN (R37, R38, R46 to R48, R64). -/

namespace Sys2Proof.Machine

section
variable {s t u : State} {l m : LineId} {k : StageKey} {z : Stage} {x y : Line} {f : ValveFault} {rb : Readback} {p : Port}
  {i : Nat} {b : Bool} {r : EndReason} {g : Grant}

/-! ### A grant cut (R64) -/

/-- What the owner of a cut grant is told. -/
def cutNotice (r : EndReason) (l : LineId) (x : Line) (g : Grant) : CutNotice :=
  ⟨l, x.stage.getD ⟨0, 0⟩, if g.phase = .live then r else g.endReason.getD r⟩

theorem cutGrant_held (r : EndReason) (h : (s.line l).grant = some g) :
    cutGrant r l s = (s.updLine l (fun x => { x with grant := none })).updPort g.owner
      (fun x => { x with cut := some (cutNotice r l (s.line l) g) }) := by
  unfold cutGrant cutNotice
  rw [h]
  dsimp only
  cases g.phase <;> rfl

theorem cut_cutGrant_owner (r : EndReason) (h : (s.line l).grant = some g) :
    ((cutGrant r l s).port g.owner).cut = some (cutNotice r l (s.line l) g) := by
  rw [cutGrant_held r h, State.updPort, port_setPort, if_pos rfl]

theorem cut_cutGrant_other (r : EndReason) (h : (s.line l).owner ≠ some p) :
    ((cutGrant r l s).port p).cut = (s.port p).cut := by
  cases held : (s.line l).grant with
  | none =>
    have same : cutGrant r l s = s := by unfold cutGrant; rw [held]
    rw [same]
  | some g =>
    have other : p ≠ g.owner := fun e => h (by rw [Line.owner, held, e]; rfl)
    rw [cutGrant_held r held, State.updPort, port_setPort, if_neg other, port_updLine]

/-! ### The lines and stages at LOCKDOWN (R48) -/

theorem lockedBy_eq (n : Nat) (x : Line) :
    x.lockedBy n = if x.state.live = true then { x.closed .lockdown n with grant := none }
      else if x.state = .closing then { x with grant := none } else x := by
  unfold Line.lockedBy
  cases state : x.state <;> rfl

theorem owner_lockedBy (n : Nat) (x : Line) : (x.lockedBy n).owner = none ∨ (x.lockedBy n).owner = x.owner := by
  unfold Line.lockedBy Line.owner
  cases x.state <;> simp [Line.toClosing, Line.drive]

theorem cut_lockLine (h : (s.line m).owner ≠ some p) : ((lockLine m s).port p).cut = (s.port p).cut := by
  have bound (u : State) :
      ((withBound m (fun k s => suspendStage (some m) k .lockdown s) u).port p).cut = (u.port p).cut :=
    (withBound_keeps m _ u (fun k => suspendStage_keeps _ k _ _)).2 .cuts (by decide) p
  unfold lockLine
  split
  case h_5 => exact cut_cutGrant_other _ h
  case h_6 => rfl
  case h_7 => rfl
  case h_8 => rfl
  all_goals rw [bound, port_updLine, cut_cutGrant_other _ h]

theorem cut_lockLines (h : ∀ m, (s.line m).owner ≠ some p) : ((forLines lockLine s).port p).cut = (s.port p).cut := by
  have each (ls : List LineId) (s : State) (h : ∀ m, (s.line m).owner ≠ some p) :
      ((ls.foldl (fun s l => lockLine l s) s).port p).cut = (s.port p).cut := by
    induction ls generalizing s with
    | nil => rfl
    | cons l ls ih =>
      have still (m : LineId) : ((lockLine l s).line m).owner ≠ some p := by
        rw [line_lockLine]
        split
        · rcases owner_lockedBy s.settings.travelTime (s.line l) with none | same
          · rw [none]; exact fun e => nomatch e
          · rw [same]; exact h l
        · exact h m
      rw [List.foldl_cons, ih _ still, cut_lockLine (h l)]
  exact each lineIds s h

theorem lockLine_rest (h : (s.line l).state.live = false) : keeps [.lines, .cuts] s (lockLine l s) := by
  unfold lockLine
  cases state : (s.line l).state <;> rw [state] at h
  case closing => exact cutGrant_keeps _ _ _
  case opening | armed | injecting | holding => exact Bool.noConfusion h
  all_goals exact keeps_refl _ _

/-- A line let go at LOCKDOWN, its stage not yet suspended. -/
def lineLocked (l : LineId) (s : State) : State :=
  (cutGrant .lockdown l s).updLine l (Line.toClosing s.settings.travelTime)

theorem lockLine_live (h : (s.line l).state.live = true) :
    lockLine l s = withBound l (fun k s => suspendStage (some l) k .lockdown s) (lineLocked l s) := by
  unfold lockLine lineLocked
  cases state : (s.line l).state <;> rw [state] at h <;> first | rfl | exact Bool.noConfusion h

theorem stage_lineLocked (l : LineId) (s : State) (j : StageKey) : (lineLocked l s).stage? j = s.stage? j :=
  (cutGrant_keeps .lockdown l s).stage (by decide) j

theorem boundKey_lineLocked (l : LineId) (s : State) : ((lineLocked l s).line l).stage = (s.line l).stage := by
  rw [lineLocked, line_updLine_self, line_cutGrant, if_pos rfl]
  rfl

theorem stage_lockLine (l : LineId) (s : State) (j : StageKey) :
    (lockLine l s).stage? j =
      if (s.line l).carried = some j then (s.stage? j).map (Stage.stopped .lockdown) else s.stage? j := by
  unfold Line.carried
  cases live : (s.line l).state.live
  · simp only [Bool.false_eq_true, if_false, reduceCtorEq]
    exact (lockLine_rest live).stage (by decide) j
  · rw [if_pos rfl, lockLine_live live]
    cases held : (s.line l).stage with
    | none => rw [withBound_none ((boundKey_lineLocked l s).trans held), stage_lineLocked, if_neg (by simp)]
    | some k =>
      rw [withBound_bound ((boundKey_lineLocked l s).trans held), stage_suspendStage, stage_lineLocked, stage_lineLocked]
      by_cases same : j = k
      · subst j; simp
      · have other : ¬ k = j := fun e => same e.symm
        simp [same, other]

theorem stopped_stopped (c : EndCause) (x : Stage) : (x.stopped c).stopped c = x.stopped c := by
  unfold Stage.stopped Stage.suspendedBy
  split <;> simp_all

theorem carried_lockLine (other : m ≠ l) (s : State) : ((lockLine l s).line m).carried = (s.line m).carried := by
  rw [line_lockLine, if_neg other]

theorem stage_lockLines (s : State) (j : StageKey) [Decidable (∃ m, (s.line m).carried = some j)] :
    (forLines lockLine s).stage? j =
      if ∃ m, (s.line m).carried = some j then (s.stage? j).map (Stage.stopped .lockdown) else s.stage? j := by
  classical
  have each (ls : List LineId) (once : ls.Nodup) (s : State) :
      (ls.foldl (fun s l => lockLine l s) s).stage? j =
        if ∃ m ∈ ls, (s.line m).carried = some j then (s.stage? j).map (Stage.stopped .lockdown) else s.stage? j := by
    induction ls generalizing s with
    | nil => simp
    | cons l ls ih =>
      obtain ⟨absent, once⟩ := List.nodup_cons.mp once
      have rest : (∃ m ∈ ls, ((lockLine l s).line m).carried = some j) ↔ ∃ m ∈ ls, (s.line m).carried = some j :=
        exists_congr fun m => and_congr_right fun hm => by rw [carried_lockLine fun e : m = l => absent (e ▸ hm)]
      rw [List.foldl_cons, ih once, stage_lockLine]
      simp only [rest, List.mem_cons, exists_eq_or_imp]
      by_cases here : (s.line l).carried = some j
      · simp [here, Function.comp_def, stopped_stopped]
      · simp [here]
  have all : (∃ m ∈ lineIds, (s.line m).carried = some j) ↔ ∃ m, (s.line m).carried = some j :=
    exists_congr fun m => and_iff_right (mem_lineIds m)
  rw [forLines, each _ (by decide) s]
  simp only [all]

/-! ### Entry to LOCKDOWN (R147, R148) -/

/-- The part in LOCKDOWN, its lines not yet let go. -/
def lockdownEntered (code : FaultCode) (l : LineId) (s : State) : State :=
  let s := s.updStop (fun u => { u with lockdown := true })
  let s := post { kind := .lockdown, line := some l, key := none, detail := some (code.code : Int),
                  exercise := false } (s.partRoute .lockdown) s
  let s := enterFault .lockdown (.value code.code) (some (.line l)) .lockdown s
  { s with exercise := 0 }

theorem enterLockdown_eq (code : FaultCode) (l : LineId) (s : State) :
    enterLockdown code l s = formMixOrder (forLines lockLine (lockdownEntered code l s)) := rfl

theorem lockdownEntered_keeps (code : FaultCode) (l : LineId) (s : State) :
    keeps [.lockdown, .queues, .faults, .writes, .exercise] s (lockdownEntered code l s) :=
  (setExercise_keeps _ _).after (by decide) ((enterFault_keeps _ _ _ _ _).after (by decide)
    ((post_keeps _ _ _).after (by decide) ((setLockdown_keeps _ _).mono (by decide))))

theorem lockLines_keeps (s : State) :
    keeps [.mixOrder, .lines, .cuts, .stages, .writes, .queues] s (formMixOrder (forLines lockLine s)) :=
  (formMixOrder_keeps _).after (by decide)
    ((forLines_keeps (A := [.lines, .cuts, .stages, .writes, .queues]) _ _ lockLine_keeps).mono (by decide))

theorem record_lockdownEntered (code : FaultCode) (l : LineId) (s : State) :
    (lockdownEntered code l s).record =
      s.record.entered .lockdown (.value code.code) s.clock.site (some (.line l)) .lockdown := by
  have before (u : State) (a : Posting) (ps : List Port) : (post a ps u).record = u.record :=
      (post_keeps _ _ _).record (by decide)
  have site (u : State) (a : Posting) (ps : List Port) : (post a ps u).clock.site = u.clock.site :=
    congrArg Clock.site ((post_keeps _ _ _).2 .clock (by decide) :)
  have exercise (u : State) (n : Nat) : ({ u with exercise := n } : State).record = u.record := rfl
  unfold lockdownEntered
  dsimp only
  rw [record_enterFault, before, site]
  rfl

theorem record_enterLockdown (code : FaultCode) (l : LineId) (s : State) :
    (enterLockdown code l s).record =
      s.record.entered .lockdown (.value code.code) s.clock.site (some (.line l)) .lockdown := by
  rw [enterLockdown_eq, (lockLines_keeps _).record (by decide), record_lockdownEntered]

theorem stop_lockdownEntered (code : FaultCode) (l : LineId) (s : State) :
    (lockdownEntered code l s).stop = { s.stop with lockdown := true } := by
  have entered : keeps [.queues, .faults, .writes, .exercise] (s.updStop (fun u => { u with lockdown := true }))
      (lockdownEntered code l s) :=
    (setExercise_keeps _ _).after (by decide) ((enterFault_keeps _ _ _ _ _).after (by decide)
      ((post_keeps _ _ _).mono (by decide)))
  exact entered.stop (by decide)

theorem stop_enterLockdown (code : FaultCode) (l : LineId) (s : State) :
    (enterLockdown code l s).stop = { s.stop with lockdown := true } := by
  rw [enterLockdown_eq, (lockLines_keeps _).stop (by decide), stop_lockdownEntered]

theorem exercise_lockdownEntered (code : FaultCode) (l : LineId) (s : State) : (lockdownEntered code l s).exercise = 0 := rfl

theorem exercise_lockLines (s : State) : (formMixOrder (forLines lockLine s)).exercise = s.exercise :=
  ((lockLines_keeps s).2 .exercise (by decide) :)

theorem exercise_enterLockdown (code : FaultCode) (l : LineId) (s : State) : (enterLockdown code l s).exercise = 0 := by
  rw [enterLockdown_eq, exercise_lockLines, exercise_lockdownEntered]

theorem line_lockdownEntered (code : FaultCode) (l : LineId) (s : State) (m : LineId) :
    (lockdownEntered code l s).line m = s.line m :=
  (lockdownEntered_keeps code l s).line (by decide) (by decide) (by decide) m

theorem settings_lockdownEntered (code : FaultCode) (l : LineId) (s : State) :
    (lockdownEntered code l s).settings = s.settings := ((lockdownEntered_keeps code l s).2 .settings (by decide) :)

theorem line_enterLockdown (code : FaultCode) (l : LineId) (s : State) (m : LineId) :
    (enterLockdown code l s).line m = (s.line m).lockedBy s.settings.travelTime := by
  rw [enterLockdown_eq, line_formMixOrder, line_forLines_settings (fun l s => lockLine_keeps l s) (by decide)
    (fun l m s => line_lockLine l m s), line_lockdownEntered, settings_lockdownEntered]

theorem stage_enterLockdown (code : FaultCode) (l : LineId) (s : State) (j : StageKey)
    [Decidable (∃ m, (s.line m).carried = some j)] :
    (enterLockdown code l s).stage? j =
      if ∃ m, (s.line m).carried = some j then (s.stage? j).map (Stage.stopped .lockdown) else s.stage? j := by
  classical
  have order (u : State) : (formMixOrder u).stage? j = u.stage? j := (formMixOrder_keeps u).stage (by decide) j
  have entered : (lockdownEntered code l s).stage? j = s.stage? j :=
      (lockdownEntered_keeps code l s).stage (by decide) j
  rw [enterLockdown_eq, order, stage_lockLines, entered]
  simp only [line_lockdownEntered]

theorem cut_enterLockdown (code : FaultCode) (l : LineId) (h : ∀ m, (s.line m).owner ≠ some p) :
    ((enterLockdown code l s).port p).cut = (s.port p).cut := by
  have order (u : State) : ((formMixOrder u).port p).cut = (u.port p).cut :=
      (formMixOrder_keeps u).2 .cuts (by decide) p
  have entered : ((lockdownEntered code l s).port p).cut = (s.port p).cut :=
    (lockdownEntered_keeps code l s).2 .cuts (by decide) p
  have none (m : LineId) : ((lockdownEntered code l s).line m).owner ≠ some p := by
    rw [line_lockdownEntered]
    exact h m
  rw [enterLockdown_eq, order, cut_lockLines none, entered]

end

end Sys2Proof.Machine
end

section
/-! PROOFS. A valve fault on a line (R33 to R38, R46, R64). -/

namespace Sys2Proof.Machine

section
variable {s t u : State} {l m : LineId} {k : StageKey} {z : Stage} {x y : Line} {f : ValveFault} {rb : Readback} {p : Port}
  {i : Nat} {b o c : Bool} {g : Grant}

/-! ### What a valve fault makes of its line (R37) -/

theorem command_isolateFor (f : ValveFault) (n : Nat) (x : Line) : (x.isolateFor f n).command = .closed := by
  unfold Line.isolateFor Line.drive
  by_cases closed : x.command = .closed <;> simp [closed]

theorem invalid_isolateFor (f : ValveFault) (n : Nat) (x : Line) : (x.isolateFor f n).invalid = x.invalid := by
  unfold Line.isolateFor Line.drive
  by_cases closed : x.command = .closed <;> simp [closed]

theorem grant_isolateFor (f : ValveFault) (n : Nat) (x : Line) : (x.isolateFor f n).grant = x.grant := by
  unfold Line.isolateFor Line.drive
  by_cases closed : x.command = .closed <;> simp [closed]

/-- The line isolated, its grant cut, its stage not yet changed. -/
def lineIsolated (f : ValveFault) (l : LineId) (s : State) : State :=
  formMixOrder ((cutGrant .valveFault l s).updLine l
    (Line.isolateFor f (cutGrant .valveFault l s).settings.travelTime))

theorem lineIsolated_keeps (f : ValveFault) (l : LineId) (s : State) :
    keeps [.lines, .cuts, .mixOrder, .queues] s (lineIsolated f l s) :=
  (formMixOrder_keeps _).after (by decide)
    ((updLine_keeps l _ _ (isolateFor_settings f _) (isolateFor_meters f _)).after (by decide)
      ((cutGrant_keeps _ _ _).mono (by decide)))

theorem settings_cutGrant (r : EndReason) (l : LineId) (s : State) : (cutGrant r l s).settings = s.settings :=
  ((cutGrant_keeps r l s).2 .settings (by decide) :)

theorem line_lineIsolated (f : ValveFault) (l : LineId) (s : State) (m : LineId) :
    (lineIsolated f l s).line m =
      if m = l then Line.isolateFor f s.settings.travelTime { s.line l with grant := none } else s.line m := by
  rw [lineIsolated, line_formMixOrder, line_updLine, line_cutGrant, line_cutGrant, if_pos rfl, settings_cutGrant]
  split
  · rfl
  · rfl

theorem cut_lineIsolated (f : ValveFault) (l : LineId) (s : State) (p : Port) :
    ((lineIsolated f l s).port p).cut = ((cutGrant .valveFault l s).port p).cut :=
  ((formMixOrder_keeps _).2 .cuts (by decide) p :)

/-- The line isolated, its stage changed, the alert posted; the fault not yet entered. -/
def faultPosted (f : ValveFault) (l : LineId) (s : State) : State :=
  post { kind := .valveFault, line := some l, key := (s.line l).stage, detail := some (f.faultCode.code : Int),
         exercise := false } ((s.line l).owner.toList ++ consolePorts)
    (faultStage l (s.line l).state (s.line l).stage (lineIsolated f l s))

theorem faultPosted_keeps (f : ValveFault) (l : LineId) (s : State) :
    keeps [.stages, .writes, .queues] (lineIsolated f l s) (faultPosted f l s) :=
  (post_keeps _ _ _).after (by decide) ((faultStage_keeps _ _ _ _).mono (by decide))

theorem faultLine_eq (f : ValveFault) (rb : Readback) (l : LineId) (s : State) :
    faultLine f rb l s = enterFault f.faultCode (.readback rb) (some (.line l))
      (if s.triggersLockdown f rb (s.line l) then .lockdown else (s.line l).state.faultClass) (faultPosted f l s) := rfl

theorem faultLine_after (f : ValveFault) (rb : Readback) (l : LineId) (s : State) :
    keeps [.stages, .writes, .queues, .faults] (lineIsolated f l s) (faultLine f rb l s) :=
  (enterFault_keeps _ _ _ _ _).after (by decide) ((faultPosted_keeps f l s).mono (by decide))

theorem line_faultLine (f : ValveFault) (rb : Readback) (l : LineId) (s : State) (m : LineId) :
    (faultLine f rb l s).line m =
      if m = l then Line.isolateFor f s.settings.travelTime { s.line l with grant := none } else s.line m :=
  ((faultLine_after f rb l s).line (by decide) (by decide) (by decide) m).trans (line_lineIsolated f l s m)

theorem cut_faultLine (f : ValveFault) (rb : Readback) (l : LineId) (s : State) (p : Port) :
    ((faultLine f rb l s).port p).cut = ((cutGrant .valveFault l s).port p).cut :=
  ((faultLine_after f rb l s).2 .cuts (by decide) p :).trans (cut_lineIsolated f l s p)

theorem record_faultPosted (f : ValveFault) (l : LineId) (s : State) : (faultPosted f l s).record = s.record :=
  ((faultPosted_keeps f l s).record (by decide)).trans ((lineIsolated_keeps f l s).record (by decide))

theorem site_faultPosted (f : ValveFault) (l : LineId) (s : State) : (faultPosted f l s).clock.site = s.clock.site :=
  congrArg Clock.site (((faultPosted_keeps f l s).2 .clock (by decide) :).trans
    ((lineIsolated_keeps f l s).2 .clock (by decide) :))

theorem record_faultLine (f : ValveFault) (rb : Readback) (l : LineId) (s : State) :
    (faultLine f rb l s).record = s.record.entered f.faultCode (.readback rb) s.clock.site (some (.line l))
      (if s.triggersLockdown f rb (s.line l) then .lockdown else (s.line l).state.faultClass) := by
  rw [faultLine_eq, record_enterFault, record_faultPosted, site_faultPosted]

/-- What a valve fault makes of the stage its line is bound to, by the line's state (R37). -/
def LineState.faultedStage (st : LineState) (z : Stage) : Stage :=
  if st = .opening then z.readied else if st.evaluated then z.stopped .valveFault else z

theorem stage_faultLine (f : ValveFault) (rb : Readback) (l : LineId) (s : State) (j : StageKey) :
    (faultLine f rb l s).stage? j =
      if (s.line l).stage = some j then (s.stage? j).map (s.line l).state.faultedStage else s.stage? j := by
  have isolated (j : StageKey) : (lineIsolated f l s).stage? j = s.stage? j :=
      (lineIsolated_keeps f l s).stage (by decide) j
  have posted : (faultLine f rb l s).stage? j =
      (faultStage l (s.line l).state (s.line l).stage (lineIsolated f l s)).stage? j :=
    ((enterFault_keeps _ _ _ _ _).stage (by decide) j).trans ((post_keeps _ _ _).stage (by decide) j)
  rw [posted]
  unfold faultStage
  cases held : (s.line l).stage with
  | none => simp [isolated]
  | some k =>
    by_cases same : j = k
    · subst j
      unfold LineState.faultedStage
      cases state : (s.line l).state <;>
        simp [stage_returnToReady, stage_suspendStage, isolated, LineState.evaluated]
    · have other : ¬ k = j := fun e => same e.symm
      cases state : (s.line l).state <;>
        simp [stage_returnToReady, stage_suspendStage, isolated, same, other]

/-! ### The fault decided (R33 to R36) -/

/-- The line as the fault finds it: both samples and the readback taken (R35). -/
def State.faultedLine (s : State) (f : ValveFault) (l : LineId) (i : Nat) (b : Bool) (rb : Readback) : Line :=
  if f = .bothSwitches then { s.readLine l i b rb with invalid := 0 } else s.readLine l i b rb

/-- The part as the fault finds it. -/
def faultRead (f : ValveFault) (l : LineId) (i : Nat) (b : Bool) (rb : Readback) (s : State) : State :=
  (channelsTaken l i b s).setLine l (s.faultedLine f l i b rb)

theorem line_faultRead (f : ValveFault) (l : LineId) (i : Nat) (b : Bool) (rb : Readback) (s : State) (m : LineId) :
    (faultRead f l i b rb s).line m = if m = l then s.faultedLine f l i b rb else s.line m := by
  rw [faultRead, line_setLine]
  split
  · rfl
  · rw [line_channelsTaken, if_neg ‹_›]

theorem faultRead_keeps (f : ValveFault) (l : LineId) (i : Nat) (b : Bool) (rb : Readback) (s : State) :
    keeps [.lines, .lineSettings, .meters, .queues, .faults, .writes] s (faultRead f l i b rb s) :=
  (setLine_keeps_all _ _ _).after (by decide) (channelsTaken_keeps _ _ _ _)

theorem record_faultRead (f : ValveFault) (l : LineId) (i : Nat) (b : Bool) (rb : Readback) (s : State) :
    (faultRead f l i b rb s).record = s.sampledRecord l i b := record_channelsTaken l i b s

theorem valveCompare_fault (free : (s.line l).state ≠ .isolated)
    (decided : valveFaultOf (s.line l) rb ((s.line l).readValve rb).invalid = some f) (i : Nat) (b : Bool) :
    valveCompare l rb (channelsTaken l i b s) = valveFault f rb l (faultRead f l i b rb s) := by
  have here : (channelsTaken l i b s).line l = s.sampledLine l i b := by rw [line_channelsTaken, if_pos rfl]
  have moving : (s.sampledLine l i b).state ≠ .isolated := (sampledLine_isolated s l i b).not.mpr free
  have fault : valveFaultOf (s.sampledLine l i b) rb ((s.sampledLine l i b).readValve rb).invalid = some f :=
    (faultOf_sampledLine s l i b rb).trans decided
  unfold valveCompare
  simp only [here, if_neg moving, fault]
  cases f <;> rfl

theorem readback_at_iff (rb : Readback) (pos : ValvePos) :
    rb.at pos = true ↔ pos = .opened ∧ rb = .opened ∨ pos = .closed ∧ rb = .closed := by
  cases rb <;> cases pos <;> simp [Readback.at]

theorem invalid_three (rb : Readback) (x : Line) : (x.readValve rb).invalid = 3 ↔ rb = .invalid ∧ 2 ≤ x.invalid := by
  rw [invalid_readValve]
  split <;> simp_all

theorem valveFaultOf_both {n : Nat} (three : n = 3) : valveFaultOf x rb n = some .bothSwitches := if_pos three

/-- The fault of a travel that is late (R34). -/
def lateFault : ValvePos → ValveFault
  | .opened => .noOpen
  | .closed => .noClose

theorem valveFaultOf_late {n : Nat} {w : Travel} {pos : ValvePos} (few : n ≠ 3) (travel : x.travel = some w)
    (target : w.target = pos) (time : w.allowed ≤ w.elapsed) (away : rb.at pos = false) :
    valveFaultOf x rb n = some (lateFault pos) := by
  unfold valveFaultOf
  rw [if_neg few, travel]
  cases pos <;> simp [target, away, time, lateFault]

theorem valveFaultOf_uncommanded {n : Nat} (few : n ≠ 3) (travel : x.travel = none) (away : rb.at x.command = false)
    (valid : rb ≠ .invalid) : valveFaultOf x rb n = some .uncommanded := by
  unfold valveFaultOf
  rw [if_neg few, travel]
  simp [away, valid]

theorem triggersLockdown_iff (s : State) (f : ValveFault) (rb : Readback) (x : Line) :
    s.triggersLockdown f rb x = true ↔ s.stop.lockdown = false ∧
      ((s.stop.upliftStop = true ∨ s.stop.estop = true) ∧ (f = .noClose ∨ f = .uncommanded) ∨
        f = .noClose ∧ rb = .opened ∧ x.startCheck = true) := by
  unfold State.triggersLockdown
  cases s.stop.lockdown <;> cases s.stop.upliftStop <;> cases s.stop.estop <;> cases f <;> simp

/-! ### The part after the fault -/

/-- A valve fault, before a start check is settled. -/
abbrev faulted (f : ValveFault) (l : LineId) (i : Nat) (b : Bool) (rb : Readback) (s : State) : State :=
  valveFault f rb l (faultRead f l i b rb s)

theorem line_valveFault (f : ValveFault) (rb : Readback) (l : LineId) (s : State) (m : LineId) :
    (valveFault f rb l s).line m =
      if m = l then Line.isolateFor f s.settings.travelTime { s.line l with grant := none }
      else if s.triggersLockdown f rb (s.line l) = true then (s.line m).lockedBy s.settings.travelTime else s.line m := by
  have settings : (faultLine f rb l s).settings = s.settings := ((faultLine_keeps f rb l s).2 .settings (by decide) :)
  rw [valveFault_eq]
  by_cases trigger : s.triggersLockdown f rb (s.line l) = true
  · rw [if_pos trigger, line_enterLockdown, line_faultLine, settings, if_pos trigger]
    split
    · rfl
    · rfl
  · rw [if_neg trigger, line_faultLine, if_neg trigger]

theorem record_valveFault (f : ValveFault) (rb : Readback) (l : LineId) (s : State) :
    (valveFault f rb l s).record =
      if s.triggersLockdown f rb (s.line l) = true then
        (s.record.entered f.faultCode (.readback rb) s.clock.site (some (.line l)) .lockdown).entered .lockdown
          (.value f.faultCode.code) s.clock.site (some (.line l)) .lockdown
      else s.record.entered f.faultCode (.readback rb) s.clock.site (some (.line l)) (s.line l).state.faultClass := by
  have site : (faultLine f rb l s).clock.site = s.clock.site :=
    congrArg Clock.site ((faultLine_keeps f rb l s).2 .clock (by decide) :)
  rw [valveFault_eq]
  by_cases trigger : s.triggersLockdown f rb (s.line l) = true
  · rw [if_pos trigger, record_enterLockdown, record_faultLine, site, if_pos trigger, if_pos trigger]
  · rw [if_neg trigger, record_faultLine, if_neg trigger, if_neg trigger]

theorem exec_lineSample_fault (present : (s.line l).settings.present = true) (free : (s.line l).state ≠ .isolated)
    (decided : valveFaultOf (s.line l) (readbackOf o c) ((s.line l).readValve (readbackOf o c)).invalid = some f)
    (i : Nat) (b : Bool) :
    exec (.lineSampleEvent l i b o c) s = .next (settleStartCheck (faulted f l i b (readbackOf o c) s)) := by
  have isolated : ((faulted f l i b (readbackOf o c) s).line l).state = .isolated := by
    rw [line_valveFault, if_pos rfl]; rfl
  rw [exec_lineSample present, valveCompare_fault free decided,
    sampleUsed_idle (.inr (.inr (.inr isolated)))]

end

end Sys2Proof.Machine
end

section
/-! PROOFS. The part after a valve fault (R37, R38, R46 to R48). -/

namespace Sys2Proof.Machine

section
variable {s t u : State} {l m : LineId} {k : StageKey} {z : Stage} {x y : Line} {f : ValveFault} {rb : Readback} {p : Port}
  {i : Nat} {b o c : Bool} {g : Grant}

/-! ### The line as the fault finds it -/

theorem faultedLine_state (s : State) (f : ValveFault) (l : LineId) (i : Nat) (b : Bool) (rb : Readback) :
    (s.faultedLine f l i b rb).state = (s.sampledLine l i b).state := by
  unfold State.faultedLine
  split <;> rfl

theorem faultedLine_stage (s : State) (f : ValveFault) (l : LineId) (i : Nat) (b : Bool) (rb : Readback) :
    (s.faultedLine f l i b rb).stage = (s.line l).stage := by
  have kept : (s.sampledLine l i b).stage = (s.line l).stage := (congrArg Line.stage (sampledLine_steady s l i b) :)
  unfold State.faultedLine
  split
  · exact kept
  · exact kept

theorem faultedLine_grant (s : State) (f : ValveFault) (l : LineId) (i : Nat) (b : Bool) (rb : Readback) :
    (s.faultedLine f l i b rb).grant = (s.line l).grant := by
  have kept : (s.sampledLine l i b).grant = (s.line l).grant := (congrArg Line.grant (sampledLine_steady s l i b) :)
  unfold State.faultedLine
  split
  · exact kept
  · exact kept

theorem faultedLine_startCheck (s : State) (f : ValveFault) (l : LineId) (i : Nat) (b : Bool) (rb : Readback) :
    (s.faultedLine f l i b rb).startCheck = (s.line l).startCheck := by
  have kept : (s.sampledLine l i b).startCheck = (s.line l).startCheck :=
    (congrArg Line.startCheck (sampledLine_steady s l i b) :)
  unfold State.faultedLine
  split
  · exact kept
  · exact kept

theorem sampledLine_state (s : State) (l : LineId) (i : Nat) (b : Bool) :
    (s.sampledLine l i b).state = (s.line l).state ∨
      (s.line l).state = .injecting ∧ (s.sampledLine l i b).state = .holding := by
  unfold State.sampledLine
  rcases affected_state (s.sampling l i b).2.1 (s.sampling l i b).1 with first | ⟨was, first⟩ <;>
    rcases affected_state (s.sampling l i b).2.2 ((s.sampling l i b).1.affected (s.sampling l i b).2.1) with
      second | ⟨held, second⟩
  · exact .inl (second.trans first)
  · exact .inr ⟨first.symm.trans held, second⟩
  · exact .inr ⟨was, second.trans first⟩
  · exact .inr ⟨was, second⟩

theorem faultedStage_sampledLine (s : State) (l : LineId) (i : Nat) (b : Bool) :
    (s.sampledLine l i b).state.faultedStage = (s.line l).state.faultedStage := by
  rcases sampledLine_state s l i b with same | ⟨was, now⟩
  · rw [same]
  · rw [was, now]; rfl

theorem evaluated_iff (st : LineState) : st.evaluated = true ↔ st ∈ [LineState.armed, .injecting, .holding] := by
  cases st <;> simp [LineState.evaluated]

theorem faultClass_eq (st : LineState) : st.faultClass = if st.evaluated = true then .suspend else .isolate := by
  cases st <;> rfl

/-- A line that carries no stage leaves the one it names as it is. -/
theorem faultedStage_of_rest {st : LineState} (h : st.live = false) (z : Stage) : st.faultedStage z = z := by
  cases st <;> first | rfl | exact Bool.noConfusion h

theorem rest_of_uncarried (bound : x.stage = some k) (apart : x.carried ≠ some k) : x.state.live = false := by
  by_contra live
  exact apart ((if_pos (by simpa using live)).trans bound)

theorem faultClass_sampledLine (s : State) (l : LineId) (i : Nat) (b : Bool) :
    (s.sampledLine l i b).state.faultClass = (s.line l).state.faultClass := by
  rw [faultClass_eq, faultClass_eq, sampledLine_evaluated]

/-- The fault puts the part in LOCKDOWN (R38, R46). -/
def State.locksDown (s : State) (f : ValveFault) (l : LineId) (rb : Readback) : Prop :=
  s.stop.lockdown = false ∧
    ((s.stop.upliftStop = true ∨ s.stop.estop = true) ∧ (f = .noClose ∨ f = .uncommanded) ∨
      f = .noClose ∧ rb = .opened ∧ (s.line l).startCheck = true)

theorem stop_faultRead (f : ValveFault) (l : LineId) (i : Nat) (b : Bool) (rb : Readback) (s : State) :
    (faultRead f l i b rb s).stop = s.stop := (faultRead_keeps f l i b rb s).stop (by decide)

theorem settings_faultRead (f : ValveFault) (l : LineId) (i : Nat) (b : Bool) (rb : Readback) (s : State) :
    (faultRead f l i b rb s).settings = s.settings := ((faultRead_keeps f l i b rb s).2 .settings (by decide) :)

theorem stage_faultRead (f : ValveFault) (l : LineId) (i : Nat) (b : Bool) (rb : Readback) (s : State) (j : StageKey) :
    (faultRead f l i b rb s).stage? j = s.stage? j := (faultRead_keeps f l i b rb s).stage (by decide) j

theorem line_faultRead_self (f : ValveFault) (l : LineId) (i : Nat) (b : Bool) (rb : Readback) (s : State) :
    (faultRead f l i b rb s).line l = s.faultedLine f l i b rb := by rw [line_faultRead, if_pos rfl]

theorem triggers_faultRead (f : ValveFault) (l : LineId) (i : Nat) (b : Bool) (rb : Readback) (s : State) :
    (faultRead f l i b rb s).triggersLockdown f rb ((faultRead f l i b rb s).line l) = true ↔ s.locksDown f l rb := by
  rw [triggersLockdown_iff, stop_faultRead, line_faultRead_self, faultedLine_startCheck]
  rfl

/-! ### The part after the fault -/

/-- The part after a sample that decides a valve fault. -/
def faultSettled (f : ValveFault) (l : LineId) (i : Nat) (b : Bool) (rb : Readback) (s : State) : State :=
  settleStartCheck (faulted f l i b rb s)

theorem line_faultSettled (f : ValveFault) (l : LineId) (i : Nat) (b : Bool) (rb : Readback) (s : State) :
    (faultSettled f l i b rb s).line l =
      Line.isolateFor f s.settings.travelTime { s.faultedLine f l i b rb with grant := none } := by
  rw [faultSettled, line_settleStartCheck, line_valveFault, if_pos rfl, line_faultRead_self, settings_faultRead]

theorem line_faultSettled_other (other : m ≠ l) (calm : ¬ s.locksDown f l rb) :
    (faultSettled f l i b rb s).line m = s.line m := by
  rw [faultSettled, line_settleStartCheck, line_valveFault, if_neg other, if_neg ((triggers_faultRead ..).not.mpr calm),
    line_faultRead, if_neg other]

theorem line_faultSettled_locked (other : m ≠ l) (trigger : s.locksDown f l rb) :
    (faultSettled f l i b rb s).line m = (s.line m).lockedBy s.settings.travelTime := by
  rw [faultSettled, line_settleStartCheck, line_valveFault, if_neg other, if_pos ((triggers_faultRead ..).mpr trigger),
    line_faultRead, if_neg other, settings_faultRead]

theorem record_faultSettled (f : ValveFault) (l : LineId) (i : Nat) (b : Bool) (rb : Readback) (s : State)
    [Decidable (s.locksDown f l rb)] :
    (faultSettled f l i b rb s).record =
      if s.locksDown f l rb then
        ((s.sampledRecord l i b).entered f.faultCode (.readback rb) s.clock.site (some (.line l)) .lockdown).entered
          .lockdown (.value f.faultCode.code) s.clock.site (some (.line l)) .lockdown
      else (s.sampledRecord l i b).entered f.faultCode (.readback rb) s.clock.site (some (.line l))
        (s.line l).state.faultClass := by
  have site : (faultRead f l i b rb s).clock.site = s.clock.site :=
    congrArg Clock.site ((faultRead_keeps f l i b rb s).2 .clock (by decide) :)
  rw [faultSettled, (settleStartCheck_keeps _).record (by decide), record_valveFault, record_faultRead, site]
  simp only [triggers_faultRead]
  rw [line_faultRead_self, faultedLine_state, faultClass_sampledLine]

theorem latched_faultSettled (f : ValveFault) (l : LineId) (i : Nat) (b : Bool) (rb : Readback) (s : State) :
    f.faultCode ∈ (faultSettled f l i b rb s).record.latched := by
  classical
  rw [record_faultSettled]
  split <;> simp [mem_latched_entered]

/-- The valve fault stands in the history, whatever LOCKDOWN enters after it. -/
theorem entry_faultSettled {st : Consequence} (locked : s.locksDown f l rb → st = .lockdown)
    (calm : ¬ s.locksDown f l rb → st = (s.line l).state.faultClass) (i : Nat) (b : Bool) :
    ∃ e ∈ (faultSettled f l i b rb s).record.faults,
      e.code = f.faultCode ∧ e.detail = .readback rb ∧ e.location = some (.line l) ∧ e.consequence = st := by
  classical
  rw [record_faultSettled]
  by_cases trigger : s.locksDown f l rb
  · rw [if_pos trigger, locked trigger]
    exact ⟨_, (entryWithin_entered (entryWithin_entered_self _ _ _ _ _ _) (by decide) _ _ _ _ _).mem, rfl, rfl, rfl,
        rfl⟩
  · rw [if_neg trigger, calm trigger]
    exact ⟨_, (entryWithin_entered_self _ _ _ _ _ _).mem, rfl, rfl, rfl, rfl⟩

theorem cut_faultSettled (held : (s.line l).grant = some g) (alone : ∀ m, m ≠ l → (s.line m).owner ≠ some g.owner)
    (f : ValveFault) (i : Nat) (b : Bool) (rb : Readback) :
    ((faultSettled f l i b rb s).port g.owner).cut = some (cutNotice .valveFault l (s.line l) g) := by
  have grant : ((faultRead f l i b rb s).line l).grant = some g := by
    rw [line_faultRead_self, faultedLine_grant]; exact held
  have notice : cutNotice .valveFault l ((faultRead f l i b rb s).line l) g = cutNotice .valveFault l (s.line l) g := by
    rw [cutNotice, cutNotice, line_faultRead_self, faultedLine_stage]
  have settled : ((faultSettled f l i b rb s).port g.owner).cut = ((faulted f l i b rb s).port g.owner).cut :=
    (settleStartCheck_keeps _).2 .cuts (by decide) g.owner
  have line : ((faultLine f rb l (faultRead f l i b rb s)).port g.owner).cut =
      some (cutNotice .valveFault l (s.line l) g) := by
    rw [cut_faultLine, cut_cutGrant_owner _ grant, notice]
  rw [settled, faulted, valveFault_eq]
  split
  · rw [cut_enterLockdown _ _ fun m => ?_, line]
    rw [line_faultLine]
    split
    · rw [Line.owner, grant_isolateFor]; exact fun e => nomatch e
    · rw [line_faultRead, if_neg ‹_›]
      exact alone m ‹_›
  · exact line

theorem stage_faultLine_read (f : ValveFault) (l : LineId) (i : Nat) (b : Bool) (rb : Readback) (s : State) (j : StageKey) :
    (faultLine f rb l (faultRead f l i b rb s)).stage? j =
      if (s.line l).stage = some j then (s.stage? j).map (s.line l).state.faultedStage else s.stage? j := by
  rw [stage_faultLine, line_faultRead_self, faultedLine_stage, faultedLine_state, faultedStage_sampledLine, stage_faultRead]

theorem stage_faultSettled (f : ValveFault) (l : LineId) (i : Nat) (b : Bool) (rb : Readback) (s : State) (j : StageKey) :
    (faultSettled f l i b rb s).stage? j = (faulted f l i b rb s).stage? j :=
  (settleStartCheck_keeps _).stage (by decide) j

theorem stage_faultSettled_calm (calm : ¬ s.locksDown f l rb) (j : StageKey) :
    (faultSettled f l i b rb s).stage? j =
      if (s.line l).stage = some j then (s.stage? j).map (s.line l).state.faultedStage else s.stage? j := by
  rw [stage_faultSettled, faulted, valveFault_eq, if_neg ((triggers_faultRead ..).not.mpr calm), stage_faultLine_read]

open Classical in
theorem stage_faultSettled_locked (trigger : s.locksDown f l rb) (j : StageKey) :
    (faultSettled f l i b rb s).stage? j =
      if ∃ m, m ≠ l ∧ (s.line m).carried = some j then
        (if (s.line l).stage = some j then (s.stage? j).map (s.line l).state.faultedStage else s.stage? j).map
          (Stage.stopped .lockdown)
      else if (s.line l).stage = some j then (s.stage? j).map (s.line l).state.faultedStage else s.stage? j := by
  have carried : (∃ m, ((faultLine f rb l (faultRead f l i b rb s)).line m).carried = some j) ↔
      ∃ m, m ≠ l ∧ (s.line m).carried = some j := by
    refine exists_congr fun m => ?_
    rw [line_faultLine]
    by_cases same : m = l
    · rw [if_pos same]
      exact iff_of_false (fun h => nomatch h) (fun h => h.1 same)
    · rw [if_neg same, line_faultRead, if_neg same, and_iff_right same]
  rw [stage_faultSettled, faulted, valveFault_eq, if_pos ((triggers_faultRead ..).mpr trigger), stage_enterLockdown,
    stage_faultLine_read]
  simp only [carried]

/-- A stage that the fault has taken from ACTIVE is left so by LOCKDOWN. -/
theorem stage_faultSettled_bound (bound : (s.line l).stage = some k) (found : s.stage? k = some z)
    (idle : ((s.line l).state.faultedStage z).status ≠ .active) :
    (faultSettled f l i b rb s).stage? k = some ((s.line l).state.faultedStage z) := by
  classical
  have stopped : Stage.stopped .lockdown ((s.line l).state.faultedStage z) = (s.line l).state.faultedStage z :=
    if_neg idle
  by_cases trigger : s.locksDown f l rb
  · rw [stage_faultSettled_locked trigger, if_pos bound, found]
    split
    · rw [Option.map_some, Option.map_some, stopped]
    · rfl
  · rw [stage_faultSettled_calm trigger, if_pos bound, found]
    rfl

theorem stop_faultSettled_locked (trigger : s.locksDown f l rb) (i : Nat) (b : Bool) :
    (faultSettled f l i b rb s).stop.lockdown = true ∧
    (faultSettled f l i b rb s).stop.upliftStop = s.stop.upliftStop ∧
    (faultSettled f l i b rb s).stop.estop = s.stop.estop ∧ (faultSettled f l i b rb s).exercise = 0 := by
  have settled := settleStartCheck_keeps (faulted f l i b rb s)
  have entered : faulted f l i b rb s =
      enterLockdown f.faultCode l (faultLine f rb l (faultRead f l i b rb s)) := by
    rw [faulted, valveFault_eq, if_pos ((triggers_faultRead ..).mpr trigger)]
  have stop : (faulted f l i b rb s).stop = { s.stop with lockdown := true } := by
    rw [entered, stop_enterLockdown, (faultLine_keeps f rb l _).stop (by decide), stop_faultRead]
  have lockdown : (faultSettled f l i b rb s).stop.lockdown = (faulted f l i b rb s).stop.lockdown :=
    settled.2 .lockdown (by decide)
  have uplift : (faultSettled f l i b rb s).stop.upliftStop = (faulted f l i b rb s).stop.upliftStop :=
    settled.2 .upliftStop (by decide)
  have estop : (faultSettled f l i b rb s).stop.estop = (faulted f l i b rb s).stop.estop :=
    (settled.2 .estop (by decide) :).1
  have exercise : (faultSettled f l i b rb s).exercise = (faulted f l i b rb s).exercise :=
    settled.2 .exercise (by decide)
  refine ⟨?_, ?_, ?_, ?_⟩
  · rw [lockdown, stop]
  · rw [uplift, stop]
  · rw [estop, stop]
  · rw [exercise, entered, exercise_enterLockdown]

theorem lockdown_faultSettled_calm (calm : ¬ s.locksDown f l rb) (i : Nat) (b : Bool) :
    (faultSettled f l i b rb s).stop.lockdown = s.stop.lockdown := by
  have settled : (faultSettled f l i b rb s).stop.lockdown = (faulted f l i b rb s).stop.lockdown :=
    (settleStartCheck_keeps _).2 .lockdown (by decide)
  have line : (faulted f l i b rb s) = faultLine f rb l (faultRead f l i b rb s) := by
    rw [faulted, valveFault_eq, if_neg ((triggers_faultRead ..).not.mpr calm)]
  rw [settled, line, (faultLine_keeps f rb l _).stop (by decide), stop_faultRead]

theorem holdAll_faultSettled (f : ValveFault) (l : LineId) (i : Nat) (b : Bool) (rb : Readback) (s : State) :
    (faultSettled f l i b rb s).holdAll = s.holdAll :=
  (((settleStartCheck_keeps _).2 .holdAll (by decide) :).trans
      ((valveFault_keeps f rb l _).2 .holdAll (by decide) :)).trans
    ((faultRead_keeps f l i b rb s).2 .holdAll (by decide) :)

theorem latched_lockdown (trigger : s.locksDown f l rb) (i : Nat) (b : Bool) :
    .lockdown ∈ (faultSettled f l i b rb s).record.latched := by
  classical
  rw [record_faultSettled, if_pos trigger]
  exact (mem_latched_entered ..).mpr (.inl rfl)

theorem permitClosed_of_lockdown (h : s.stop.lockdown = true) : s.permitClosed = false := by
  simp [State.permitClosed, h]

theorem readbackOf_eq (o c : Bool) :
    readbackOf o c = if o = true then (if c = true then .invalid else .opened)
      else (if c = true then .closed else .travel) := by
  cases o <;> cases c <;> rfl

/-! ### Which fault is decided, as R34 to R36 state it -/

/-- The readback stands where the position is. -/
def arrivedAt (rb : Readback) (pos : ValvePos) : Prop := pos = .opened ∧ rb = .opened ∨ pos = .closed ∧ rb = .closed

theorem at_eq_false {pos : ValvePos} (away : ¬ arrivedAt rb pos) : rb.at pos = false :=
  Bool.eq_false_iff.mpr ((readback_at_iff rb pos).not.mpr away)

/-- A travel towards the position has had its time and has not arrived (R34). -/
def Line.lateTo (x : Line) (rb : Readback) (pos : ValvePos) : Prop :=
  ∃ w, x.travel = some w ∧ w.target = pos ∧ w.allowed ≤ w.elapsed ∧ ¬ arrivedAt rb pos

theorem valveFaultOf_decided
    (h : (rb = .invalid ∧ 2 ≤ x.invalid) ∧ f = .bothSwitches ∨
      ¬ (rb = .invalid ∧ 2 ≤ x.invalid) ∧ x.lateTo rb .opened ∧ f = .noOpen ∨
      ¬ (rb = .invalid ∧ 2 ≤ x.invalid) ∧ x.lateTo rb .closed ∧ f = .noClose ∨
      x.travel = none ∧ rb ≠ .invalid ∧ ¬ arrivedAt rb x.command ∧ f = .uncommanded) :
    valveFaultOf x rb (x.readValve rb).invalid = some f := by
  rcases h with ⟨both, rfl⟩ | ⟨few, ⟨w, travel, target, time, away⟩, rfl⟩ | ⟨few, ⟨w, travel, target, time, away⟩, rfl⟩ |
    ⟨travel, valid, away, rfl⟩
  · exact valveFaultOf_both ((invalid_three rb x).mpr both)
  · exact valveFaultOf_late ((invalid_three rb x).not.mpr few) travel target time (at_eq_false away)
  · exact valveFaultOf_late ((invalid_three rb x).not.mpr few) travel target time (at_eq_false away)
  · exact valveFaultOf_uncommanded ((invalid_three rb x).not.mpr fun both => valid both.1) travel (at_eq_false away) valid

end

/-- Settles O44: an ISOLATED line raises no fault, any other is isolated, and the part locked down where R38 or R46 says. -/
theorem valveFaultIsolatesTheLine : Obligations.ValveFaultIsolatesTheLine := by
  intro s l i b o c present
  dsimp only
  rw [← readbackOf_eq]
  generalize hrb : readbackOf o c = rb
  refine ⟨fun isolated => ?_, fun f free decided => ?_⟩
  · have read := sampleRead_keeps l i b (readbackOf o c) s
    have line : (settleStartCheck (sampleRead l i b (readbackOf o c) s)).line l = s.readLine l i b (readbackOf o c) := by
      rw [line_settleStartCheck, line_sampleRead, if_pos rfl]
    have state : (s.readLine l i b (readbackOf o c)).state = .isolated := (sampledLine_isolated s l i b).mpr isolated
    have run : exec (.lineSampleEvent l i b o c) s =
        .next (settleStartCheck (sampleRead l i b (readbackOf o c) s)) := by
      rw [exec_lineSample present, valveCompare_isolated isolated, sampleUsed_idle]
      rw [line_sampleRead, if_pos rfl]
      exact .inr (.inr (.inr state))
    refine ⟨_, run, ?_, ?_, ?_, fun m other => ?_, fun f latched => ?_⟩
    · rw [line, state]
    · rw [line]; exact (congrArg Line.isolation (sampledLine_steady s l i b) :)
    · rw [line]; exact sampledLine_command s l i b
    · rw [line_settleStartCheck, line_sampleRead, if_neg other]
    · rw [(settleStartCheck_keeps _).record (by decide), record_sampleRead] at latched
      exact latched_of_sampledRecord latched (by cases f <;> decide) (by cases f <;> decide)
  · have fault := valveFaultOf_decided (x := s.line l) (rb := rb) (f := f) decided
    subst rb
    have run := exec_lineSample_fault present free fault i b
    have line := line_faultSettled f l i b (readbackOf o c) s
    refine ⟨_, run, ?_, ?_, ?_, ?_, ?_, ?_, ?_, ?_, ?_, ?_, ?_, ?_, fun both => ?_, latched_faultSettled _ _ _ _ _ _,
      fun st locked evaluated rest => entry_faultSettled locked (fun calm => ?_) i b, fun g held alone => ?_,
      fun k z bound found active => ⟨fun opening => ?_, fun evaluated => ?_, fun closing calm => ?_⟩,
      fun calm => ⟨fun m other => line_faultSettled_other other calm, lockdown_faultSettled_calm calm i b⟩,
      fun trigger => ?_⟩
    · exact (congrArg Line.state line :)
    · exact (congrArg Line.isolation line :)
    · exact (congrArg Line.command line).trans (command_isolateFor _ _ _)
    · exact (congrArg Line.stage line :)
    · exact (congrArg Line.grant line).trans (grant_isolateFor _ _ _)
    · exact (congrArg Line.causes line :)
    · exact (congrArg Line.holdTimer line :)
    · exact (congrArg Line.watch line :)
    · exact (congrArg Line.values line :)
    · exact (congrArg Line.classes line :)
    · exact (congrArg Line.transit line :)
    · exact (congrArg Line.startCheck line :)
    · refine (congrArg Line.invalid line).trans ((invalid_isolateFor _ _ _).trans ?_)
      rw [State.faultedLine, if_pos both]
    · rw [faultClass_eq]
      by_cases active : (s.line l).state.evaluated = true
      · rw [if_pos active, evaluated calm ((evaluated_iff _).mp active)]
      · rw [if_neg active, rest calm ((evaluated_iff _).not.mp active)]
    · exact cut_faultSettled held alone f i b _
    · have ready : (s.line l).state.faultedStage z = { z with status := .ready } := by
        rw [LineState.faultedStage, if_pos opening, Stage.readied, if_pos active]
      rw [← ready]
      exact stage_faultSettled_bound bound found (by rw [ready]; exact fun e => nomatch e)
    · have suspended : (s.line l).state.faultedStage z = z.suspendedBy .valveFault := by
        have away : (s.line l).state ≠ .opening := fun opening => by rw [opening] at evaluated; simp at evaluated
        rw [LineState.faultedStage, if_neg away, if_pos ((evaluated_iff _).mpr evaluated), Stage.stopped, if_pos active]
      rw [← suspended]
      exact stage_faultSettled_bound bound found (by rw [suspended]; exact fun e => nomatch e)
    · refine (stage_faultSettled_calm calm k).trans ?_
      rw [if_pos bound, found, Option.map_some, closing]
      rfl
    · obtain ⟨lockdown, uplift, estop, exercise⟩ := stop_faultSettled_locked trigger i b
      refine ⟨lockdown, uplift, estop, holdAll_faultSettled _ _ _ _ _ _, exercise, permitClosed_of_lockdown lockdown,
        latched_lockdown trigger i b, fun m other => ?_, fun m k z other carries apart found active => ?_⟩
      · exact (line_faultSettled_locked other trigger).trans (lockedBy_eq _ _)
      · classical
        refine (stage_faultSettled_locked trigger k).trans ?_
        rw [if_pos ⟨m, other, carries⟩, found]
        have same : (if (s.line l).stage = some k then (some z).map (s.line l).state.faultedStage else some z) = some z := by
          split
          · rw [Option.map_some, faultedStage_of_rest (rest_of_uncarried ‹_› apart)]
          · rfl
        rw [same, Option.map_some, Stage.stopped, if_pos active]

end Sys2Proof.Machine
end

section
/-! PROOFS. One evaluation of a line (R86 to R114, R133). -/

namespace Sys2Proof.Machine

section
variable {s t u : State} {l m : LineId} {k : StageKey} {z : Stage} {x y : Line} {c : Computed} {d : DecisionRecord}

/-! ### The values of an evaluation (R86 to R99) -/

theorem headOf_eq (cls depth : Nat) :
    headOf cls depth = (if cls = 1 then 111 else if cls = 2 then 118 else if cls = 3 then 127 else if cls = 4 then 149
      else if cls = 5 then 158 else if cls = 6 then 171 else 0) * depth / 1000 := by
  have gradients : gradient cls = if cls = 1 then 111 else if cls = 2 then 118 else if cls = 3 then 127
      else if cls = 4 then 149 else if cls = 5 then 158 else if cls = 6 then 171 else 0 := by
    match cls with
    | 0 | 1 | 2 | 3 | 4 | 5 | 6 => rfl
    | n + 7 => simp [gradient]
  rw [headOf, gradients]

theorem clamp_eq (top : Nat) (n : Int) :
    (min (top : Int) (max 0 n)).toNat = if n < 0 then 0 else if (top : Int) < n then top else n.toNat := by
  split
  · omega
  · split <;> omega

theorem effectivePressure_eq (pg head friction : Nat) :
    effectivePressure pg head friction =
      if (pg : Int) + head - friction < 0 then 0 else if 20000 < (pg : Int) + head - friction then 20000
      else ((pg : Int) + head - friction).toNat := clamp_eq 20000 _

theorem intensityOf_eq (pe v : Nat) :
    intensityOf pe v = if pe * v / 10 ≤ 999999999 then pe * v / 10 else 999999999 := by
  unfold intensityOf
  split <;> omega

theorem volume_eq (z : Stage) : z.volume = (z.progress.map Progress.v).getD 0 := by
  unfold Stage.volume
  cases z.progress <;> rfl

theorem stale_eq (x : Line) : x.stale = decide (x.pressure.validity ≠ .valid ∨ x.flow.validity ≠ .valid) := by
  unfold Line.stale Channel.isValid
  cases x.pressure.validity <;> cases x.flow.validity <;> rfl

/-- The values that an evaluation forms are those of section 5. -/
theorem evaluationOf_eq (s : State) (x : Line) (z : Stage) :
    s.evaluationOf x z = envelope s.stop.warn s.settings.derate x.inForce z ((x.classes.map Classes.effective).getD 0)
      x.pressure x.flow := by
  unfold State.evaluationOf computeValues Computed.withCeilings envelope
  simp only [headOf_eq, frictionOf, effectivePressure_eq, volumePerMetre, Stage.midDepth, Stage.length, ceilingOf,
    applyDerate, gaugeCeiling, refusalThresholdOf, overpressureLimitOf, intensityOf_eq, volume_eq, stale_eq,
    effectiveClass_eq, clamp_eq]

/-! ### Steps 1 to 3: the values recorded (R81, R100) -/

/-- The line with the values of an evaluation and its ring. -/
def Line.valued (c : Computed) (x : Line) : Line :=
  { x with values := some c, ring := if c.stale then [] else pushRing (c.pe, c.q) x.ring }

/-- The highest effective pressure raised (R22). -/
def Progress.raisePe (pe : Nat) (g : Progress) : Progress := { g with maxPe := max g.maxPe pe }

theorem recordEvaluation_eq (l : LineId) (c : Computed) (s : State) :
    recordEvaluation l c s =
      if c.stale then s.updLine l (Line.valued c) else addProgress l (Progress.raisePe c.pe) (s.updLine l (Line.valued c)) :=
  rfl

theorem line_recordEvaluation (l : LineId) (c : Computed) (s : State) (m : LineId) :
    (recordEvaluation l c s).line m = if m = l then (s.line l).valued c else s.line m := by
  rw [recordEvaluation_eq]
  split
  · exact line_updLine _ _ _ _
  · rw [line_addProgress, line_updLine]

theorem stage_recordEvaluation_stale (stale : c.stale = true) (j : StageKey) :
    (recordEvaluation l c s).stage? j = s.stage? j := by
  rw [recordEvaluation_eq, if_pos stale]
  rfl

theorem stage_updLine (s : State) (l : LineId) (f : Line → Line) (j : StageKey) : (s.updLine l f).stage? j = s.stage? j := rfl

theorem stage_recordEvaluation (fresh : c.stale = false) (j : StageKey) :
    (recordEvaluation l c s).stage? j =
      if (s.line l).carried = some j then (s.stage? j).map (Stage.addProgress (Progress.raisePe c.pe)) else s.stage? j := by
  have carried : ((s.updLine l (Line.valued c)).line l).carried = (s.line l).carried := by
    rw [line_updLine_self]; rfl
  rw [recordEvaluation_eq, if_neg (by rw [fresh]; decide), stage_addProgress, carried, stage_updLine]

/-! ### Overpressure (R111, R112) -/

/-- The overpressure counts of a fresh evaluation, on the line. -/
def Line.pressed (c : Computed) (x : Line) : Line :=
  match x.decision with
  | none => x
  | some d =>
    if x.causes.contains .overpressure then
      if 4 ≤ (if c.pe ≤ c.ce then d.clear + 1 else 0) then
        ({ x with decision := some { d with clear := 0 } } : Line).freed .overpressure
      else { x with decision := some { d with clear := if c.pe ≤ c.ce then d.clear + 1 else 0 } }
    else if 2 ≤ (if c.overpressureLimit < c.pe then d.raise + 1 else 0) then
      ({ x with decision := some { d with raise := 0, clear := 0 } } : Line).held .overpressure
    else { x with decision := some { d with raise := if c.overpressureLimit < c.pe then d.raise + 1 else 0 } }

/-- The evaluation raises OVERPRESSURE (R111). -/
def Line.overpressed (c : Computed) (x : Line) : Prop :=
  ∃ d, x.decision = some d ∧ .overpressure ∉ x.causes ∧ c.overpressureLimit < c.pe ∧ 1 ≤ d.raise

theorem line_updDecision (l : LineId) (f : DecisionRecord → DecisionRecord) (s : State) (m : LineId) :
    (updDecision l f s).line m = if m = l then { s.line l with decision := (s.line l).decision.map f } else s.line m :=
  line_updLine _ _ _ _

theorem line_overpressureStep (l : LineId) (c : Computed) (s : State) (m : LineId) :
    (overpressureStep l c s).line m = if m = l then (s.line l).pressed c else s.line m := by
  unfold overpressureStep Line.pressed
  dsimp only
  cases decision : (s.line l).decision with
  | none =>
    dsimp only
    split
    · subst m; rfl
    · rfl
  | some d =>
    dsimp only
    by_cases raised : (s.line l).causes.contains .overpressure = true
    · rw [if_pos raised, if_pos raised]
      by_cases enough : 4 ≤ (if c.pe ≤ c.ce then d.clear + 1 else 0)
      · rw [if_pos enough, if_pos enough, line_removeCause, line_updDecision, line_updDecision, if_pos rfl, decision]
        split
        · rfl
        · rfl
      · rw [if_neg enough, if_neg enough, line_updDecision, decision, Option.map_some]
    · rw [if_neg raised, if_neg raised]
      by_cases enough : 2 ≤ (if c.overpressureLimit < c.pe then d.raise + 1 else 0)
      · rw [if_pos enough, if_pos enough, line_postLine, line_addProgress, line_addCause, line_updDecision,
          line_updDecision, if_pos rfl, decision]
        split
        · rfl
        · rfl
      · rw [if_neg enough, if_neg enough, line_updDecision, decision, Option.map_some]

end


section
variable {s t u : State} {l m : LineId} {k : StageKey} {z : Stage} {x y : Line} {c : Computed} {d : DecisionRecord}
  {cause : EndCause} {reason : EndReason}

theorem carried_held (q : HoldCause) (x : Line) : (x.held q).carried = x.carried := by
  unfold Line.held
  split
  · rfl
  · cases state : x.state <;> simp [Line.carried, LineState.live, state]

theorem steady_pressed (c : Computed) (x : Line) : (x.pressed c).steady = x.steady := by
  unfold Line.pressed
  cases x.decision with
  | none => rfl
  | some d =>
    dsimp only
    split
    · by_cases enough : 4 ≤ (if c.pe ≤ c.ce then d.clear + 1 else 0)
      · rw [if_pos enough, steady_freed]; rfl
      · rw [if_neg enough]; rfl
    · by_cases enough : 2 ≤ (if c.overpressureLimit < c.pe then d.raise + 1 else 0)
      · rw [if_pos enough, steady_held]; rfl
      · rw [if_neg enough]; rfl

/-- A stage's overpressure events counted (R111). -/
def Progress.countOverpressure (top : Nat) (g : Progress) : Progress := { g with overpressure := satSucc top g.overpressure }

open Classical in
theorem stage_overpressureStep (l : LineId) (c : Computed) (s : State) (j : StageKey) :
    (overpressureStep l c s).stage? j =
      if (s.line l).overpressed c ∧ (s.line l).carried = some j then
        (s.stage? j).map (Stage.addProgress (Progress.countOverpressure s.counterTop)) else s.stage? j := by
  have decided (f : DecisionRecord → DecisionRecord) : (updDecision l f s).stage? j = s.stage? j := rfl
  unfold overpressureStep Line.overpressed
  dsimp only
  cases decision : (s.line l).decision with
  | none => simp
  | some d =>
    dsimp only
    by_cases raised : (s.line l).causes.contains .overpressure = true
    · have present : .overpressure ∈ (s.line l).causes := by simpa using raised
      have no : ¬ ((∃ d', some d = some d' ∧ .overpressure ∉ (s.line l).causes ∧ c.overpressureLimit < c.pe ∧
          1 ≤ d'.raise) ∧ (s.line l).carried = some j) := fun ⟨⟨_, _, absent, _⟩, _⟩ => absent present
      rw [if_pos raised, if_neg no]
      by_cases enough : 4 ≤ (if c.pe ≤ c.ce then d.clear + 1 else 0)
      · rw [if_pos enough]
        exact ((removeCause_keeps _ _ _).stage (by decide) j).trans (decided _)
      · rw [if_neg enough]
        exact decided _
    · have absent : .overpressure ∉ (s.line l).causes := by simpa using raised
      rw [if_neg raised]
      by_cases high : c.overpressureLimit < c.pe ∧ 1 ≤ d.raise
      · have enough : 2 ≤ (if c.overpressureLimit < c.pe then d.raise + 1 else 0) := by
          rw [if_pos high.1]; omega
        have carried (f : DecisionRecord → DecisionRecord) :
            ((addCause .overpressure l (updDecision l f s)).line l).carried = (s.line l).carried := by
          rw [line_addCause, if_pos rfl, carried_held, line_updDecision, if_pos rfl]; rfl
        have held (f : DecisionRecord → DecisionRecord) :
            (addCause .overpressure l (updDecision l f s)).stage? j = s.stage? j :=
          ((addCause_keeps _ _ _).stage (by decide) j).trans (decided f)
        have posted (v : Option Int) (u : State) : (postLine l .overpressure v u).stage? j = u.stage? j :=
          (postLine_keeps _ _ _ _).stage (by decide) j
        rw [if_pos enough, posted, stage_addProgress, carried, held]
        simp only [absent, Option.some.injEq, exists_eq_left', not_false_eq_true, true_and, high]
        rfl
      · have few : ¬ 2 ≤ (if c.overpressureLimit < c.pe then d.raise + 1 else 0) := by
          split <;> simp_all
        rw [if_neg few, decided, if_neg]
        rintro ⟨⟨d', same, -, limit, count⟩, -⟩
        obtain rfl := Option.some.inj same
        exact high ⟨limit, count⟩

/-! ### Fracture (R113, R114) -/

/-- The ring of five shows a suspected fracture (R113). -/
def suspects (f : StageFields) (c : Computed) (ring : List (Nat × Nat)) : Bool :=
  match ring with
  | [old, _, _, _, new] => fractureSuspected f c.ce old new
  | _ => false

theorem suspects_cons (f : StageFields) (c : Computed) (a₁ a₂ a₃ a₄ a₅ : Nat × Nat) :
    suspects f c [a₁, a₂, a₃, a₄, a₅] = fractureSuspected f c.ce a₁ a₅ := rfl

/-- A fracture added to a pending decision (R15). -/
def PendingDecision.addFracture (d : PendingDecision) : PendingDecision := { d with fracture := true }

/-- The part once a suspected fracture has been taken up (R114). -/
def fractureTaken (l : LineId) (k : StageKey) (drop : Int) (s : State) : State :=
  postLine l .fracture (some drop) (addPending k PendingDecision.addFracture (addCause .fracture l s))

theorem fractureStep_eq (l : LineId) (z : Stage) (c : Computed) (s : State) :
    (suspects z.fields c (s.line l).ring = true ∧ ∃ drop, fractureStep l z c s = fractureTaken l z.key drop s) ∨
    (suspects z.fields c (s.line l).ring = false ∧ fractureStep l z c s = s) := by
  unfold fractureStep
  split
  case h_1 old a b e new ring =>
    rw [ring, suspects_cons]
    cases found : fractureSuspected z.fields c.ce old new
    · exact .inr ⟨rfl, if_neg (by decide)⟩
    · exact .inl ⟨rfl, _, if_pos rfl⟩
  case h_2 short =>
    refine .inr ⟨?_, rfl⟩
    unfold suspects
    split
    · exact absurd ‹_› (short _ _ _ _ _)
    · rfl

theorem line_addPending (k : StageKey) (f : PendingDecision → PendingDecision) (s : State) (m : LineId) :
    (addPending k f s).line m = s.line m :=
  (addPending_keeps k f s).line (by decide) (by decide) (by decide) m

/-- A stage with a hazard more pending, if it is ACTIVE (R15). -/
def Stage.pend (f : PendingDecision → PendingDecision) (x : Stage) : Stage :=
  if x.status = .active then { x with decision := f x.decision } else x

theorem stage_addPending (k j : StageKey) (f : PendingDecision → PendingDecision) (s : State) :
    (addPending k f s).stage? j = if j = k then (s.stage? k).map (Stage.pend f) else s.stage? j :=
  stage_updStage s k j (Stage.pend f) fun x => by unfold Stage.pend; split <;> rfl

theorem line_fractureStep (l : LineId) (z : Stage) (c : Computed) (s : State) (m : LineId) :
    (fractureStep l z c s).line m =
      if m = l ∧ suspects z.fields c (s.line l).ring = true then (s.line l).held .fracture else s.line m := by
  rcases fractureStep_eq l z c s with ⟨found, drop, taken⟩ | ⟨clear, same⟩
  · rw [taken, fractureTaken, line_postLine, line_addPending, line_addCause]
    simp only [found, and_true]
  · rw [same, if_neg (by simp [clear])]

theorem stage_fractureStep (l : LineId) (z : Stage) (c : Computed) (s : State) (j : StageKey) :
    (fractureStep l z c s).stage? j =
      if j = z.key ∧ suspects z.fields c (s.line l).ring = true then
        (s.stage? j).map (Stage.pend PendingDecision.addFracture) else s.stage? j := by
  rcases fractureStep_eq l z c s with ⟨found, drop, taken⟩ | ⟨clear, same⟩
  · have posted (u : State) : (postLine l .fracture (some drop) u).stage? j = u.stage? j :=
      (postLine_keeps _ _ _ _).stage (by decide) j
    have held (j : StageKey) : (addCause .fracture l s).stage? j = s.stage? j :=
        (addCause_keeps _ _ _).stage (by decide) j
    rw [taken, fractureTaken, posted, stage_addPending, held, held]
    simp only [found, and_true]
    split
    · subst j; rfl
    · rfl
  · rw [same, if_neg (by simp [clear])]

/-! ### The end conditions (R104 to R109) -/

/-- The counts before the evaluation and its values decide which end condition it meets. -/
theorem endCondition_countEnds (f : StageFields) (c : Computed) (d : DecisionRecord) (some : 1 ≤ f.tRef) :
    endCondition f c (d.countEnds f c) = endDecided f c d := by
  have intensity : (d.countEnds f c).intensity = 4 ↔ f.jMax ≤ c.j ∧ 3 ≤ d.intensity := by
    unfold DecisionRecord.countEnds
    dsimp only
    split <;> simp_all
  have refusal : (d.countEnds f c).refusal = 4 * f.tRef ↔
      c.q ≤ f.qRef ∧ c.refusalThreshold ≤ c.pe ∧ 4 * f.tRef ≤ d.refusal + 1 := by
    unfold DecisionRecord.countEnds
    dsimp only
    split
    case isTrue low => simp [low]
    case isFalse high =>
      have positive : ¬ 0 = 4 * f.tRef := by omega
      exact iff_of_false positive fun h => high ⟨h.1, h.2.1⟩
  unfold endCondition endDecided
  simp only [intensity, refusal]

theorem countEnds_of_going (f : StageFields) (c : Computed) (d : DecisionRecord) (going : endDecided f c d = none) :
    d.countEnds f c = { d with
      intensity := if f.jMax ≤ c.j then d.intensity + 1 else 0
      refusal := if c.q ≤ f.qRef ∧ c.refusalThreshold ≤ c.pe then d.refusal + 1 else 0 } := by
  unfold endDecided at going
  split at going
  · nomatch going
  split at going
  · nomatch going
  split at going
  · nomatch going
  case isFalse intensity refusal =>
    unfold DecisionRecord.countEnds
    congr 1
    · split
      · have := fun h => refusal ⟨(‹_ ∧ _› : _ ∧ _).1, (‹_ ∧ _› : _ ∧ _).2, h⟩
        omega
      · rfl
    · split
      · have := fun h => intensity ⟨‹_›, h⟩
        omega
      · rfl

end

end Sys2Proof.Machine
end

section
/-! PROOFS. The outcomes of an evaluation (R100, R104, R133). -/

namespace Sys2Proof.Machine

section
variable {s t u : State} {l m : LineId} {k : StageKey} {z : Stage} {x y : Line} {c : Computed} {d : DecisionRecord}
  {cause : EndCause} {reason : EndReason}

/-! ### Thickening (R133, R134) -/

/-- A line INJECTING after the Grout Supply Unit has taken up its evaluation. -/
def Line.thickened (z : Stage) (pe : Nat) (x : Line) : Line :=
  match x.classes with
  | some c =>
    if (c.thicken z.fields pe).2 then
      { x with classes := some (c.thicken z.fields pe).1,
               mixLag := ({ x with classes := some (c.thicken z.fields pe).1 } : Line).lagging }
    else { x with classes := some (c.thicken z.fields pe).1 }
  | none => x

theorem line_thickenLine (l : LineId) (z : Stage) (pe : Nat) (s : State) (m : LineId) :
    (thickenLine l z pe s).line m = if m = l then (s.line l).thickened z pe else s.line m := by
  unfold thickenLine Line.thickened
  cases classes : (s.line l).classes with
  | none =>
    dsimp only
    split
    · subst m; rfl
    · rfl
  | some c =>
    dsimp only
    split
    · rw [line_decideMixLag, line_formMixOrder, line_formMixOrder, line_updLine, line_updLine, if_pos rfl]
      split
      · rfl
      · rfl
    · exact line_updLine _ _ _ _

/-! ### The outcomes of an evaluation (R100, R104) -/

/-- The part with the evaluation recorded and the ends counted. -/
def endsCounted (l : LineId) (z : Stage) (c : Computed) (s : State) : State :=
  updDecision l (DecisionRecord.countEnds z.fields c) (recordEvaluation l c s)

/-- The part with the hazards of an evaluation that ends nothing taken up. -/
def hazardsTaken (l : LineId) (z : Stage) (c : Computed) (s : State) : State :=
  fractureStep l z c (overpressureStep l c (endsCounted l z c s))

theorem stageEndUnit_stale (stale : c.stale = true) (st : LineState) (s : State) :
    stageEndUnit l st z c s = updDecision l (fun _ => ⟨0, 0, 0, 0⟩) s := if_pos stale

theorem stageEndUnit_armed (fresh : c.stale = false) (s : State) : stageEndUnit l .armed z c s = s :=
  if_neg (by rw [fresh]; decide)

theorem stageEndUnit_holding (fresh : c.stale = false) (s : State) :
    stageEndUnit l .holding z c s = overpressureStep l c s := if_neg (by rw [fresh]; decide)

theorem decision_counted (decision : (s.line l).decision = some d) :
    ((updDecision l (DecisionRecord.countEnds z.fields c) s).line l).decision = some (d.countEnds z.fields c) := by
  rw [line_updDecision, if_pos rfl, decision]
  rfl

theorem stageEndUnit_ended (fresh : c.stale = false) (decision : (s.line l).decision = some d)
    (ended : endCondition z.fields c (d.countEnds z.fields c) = some (cause, reason)) :
    stageEndUnit l .injecting z c s =
      endStage l z.key cause reason (updDecision l (DecisionRecord.countEnds z.fields c) s) := by
  have meets : (((updDecision l (DecisionRecord.countEnds z.fields c) s).line l).decision).bind (endCondition z.fields c) =
      some (cause, reason) := by
    rw [decision_counted decision]; exact ended
  unfold stageEndUnit
  rw [if_neg (by rw [fresh]; decide)]
  simp only [meets]

theorem stageEndUnit_going (fresh : c.stale = false) (decision : (s.line l).decision = some d)
    (going : endCondition z.fields c (d.countEnds z.fields c) = none) :
    stageEndUnit l .injecting z c s =
      fractureStep l z c (overpressureStep l c (updDecision l (DecisionRecord.countEnds z.fields c) s)) := by
  have meets : (((updDecision l (DecisionRecord.countEnds z.fields c) s).line l).decision).bind (endCondition z.fields c) =
      none := by
    rw [decision_counted decision]; exact going
  unfold stageEndUnit
  rw [if_neg (by rw [fresh]; decide)]
  simp only [meets]

theorem held_holding (holding : x.state = .holding) (q : HoldCause) : (x.held q).state = .holding := by
  unfold Line.held
  split
  · exact holding
  · simp [holding]

theorem pressed_holding (holding : x.state = .holding) (c : Computed) : (x.pressed c).state = .holding := by
  unfold Line.pressed
  cases x.decision with
  | none => exact holding
  | some d =>
    dsimp only
    split
    · by_cases enough : 4 ≤ (if c.pe ≤ c.ce then d.clear + 1 else 0)
      · rw [if_pos enough, freed_state]; exact holding
      · rw [if_neg enough]; exact holding
    · by_cases enough : 2 ≤ (if c.overpressureLimit < c.pe then d.raise + 1 else 0)
      · rw [if_pos enough]; exact held_holding (by exact holding) _
      · rw [if_neg enough]; exact holding

theorem line_closeLine_self (r : EndReason) (l : LineId) (s : State) :
    (closeLine r l s).line l = (s.line l).closed r s.settings.travelTime := by rw [line_closeLine, if_pos rfl]

section
variable (bound : s.boundStage l = some z)
include bound

theorem evaluate_eq :
    evaluate l s = if (s.evaluationOf (s.line l) z).stale then
      dropPendingVolume l (stageEndUnit l (s.line l).state z (s.evaluationOf (s.line l) z)
        (recordEvaluation l (s.evaluationOf (s.line l) z) s))
    else if ((stageEndUnit l (s.line l).state z (s.evaluationOf (s.line l) z)
        (recordEvaluation l (s.evaluationOf (s.line l) z) s)).line l).state = .injecting then
      thickenLine l z (s.evaluationOf (s.line l) z).pe (stageEndUnit l (s.line l).state z (s.evaluationOf (s.line l) z)
        (recordEvaluation l (s.evaluationOf (s.line l) z) s))
    else stageEndUnit l (s.line l).state z (s.evaluationOf (s.line l) z)
        (recordEvaluation l (s.evaluationOf (s.line l) z) s) := by
  simp only [evaluate, bound]

theorem evaluate_stale (stale : (s.evaluationOf (s.line l) z).stale = true) :
    evaluate l s = dropPendingVolume l (updDecision l (fun _ => ⟨0, 0, 0, 0⟩)
      (recordEvaluation l (s.evaluationOf (s.line l) z) s)) := by
  rw [evaluate_eq bound, if_pos stale, stageEndUnit_stale stale]

variable (fresh : (s.evaluationOf (s.line l) z).stale = false)
include fresh

theorem evaluate_fresh {v : State} (unit : stageEndUnit l (s.line l).state z (s.evaluationOf (s.line l) z)
      (recordEvaluation l (s.evaluationOf (s.line l) z) s) = v) :
    evaluate l s =
      if (v.line l).state = .injecting then thickenLine l z (s.evaluationOf (s.line l) z).pe v else v := by
  rw [evaluate_eq bound, if_neg (by rw [fresh]; decide), unit]

theorem evaluate_armed (armed : (s.line l).state = .armed) :
    evaluate l s = recordEvaluation l (s.evaluationOf (s.line l) z) s := by
  have unit : stageEndUnit l (s.line l).state z (s.evaluationOf (s.line l) z)
      (recordEvaluation l (s.evaluationOf (s.line l) z) s) = recordEvaluation l (s.evaluationOf (s.line l) z) s := by
    rw [armed, stageEndUnit_armed fresh]
  have state : ((recordEvaluation l (s.evaluationOf (s.line l) z) s).line l).state = .armed := by
    rw [line_recordEvaluation, if_pos rfl]; exact armed
  rw [evaluate_fresh bound fresh unit, if_neg (by rw [state]; decide)]

theorem evaluate_holding (holding : (s.line l).state = .holding) :
    evaluate l s =
      overpressureStep l (s.evaluationOf (s.line l) z) (recordEvaluation l (s.evaluationOf (s.line l) z) s) := by
  have unit : stageEndUnit l (s.line l).state z (s.evaluationOf (s.line l) z)
      (recordEvaluation l (s.evaluationOf (s.line l) z) s) =
      overpressureStep l (s.evaluationOf (s.line l) z) (recordEvaluation l (s.evaluationOf (s.line l) z) s) := by
    rw [holding, stageEndUnit_holding fresh]
  have state : ((overpressureStep l (s.evaluationOf (s.line l) z)
      (recordEvaluation l (s.evaluationOf (s.line l) z) s)).line l).state = .holding := by
    rw [line_overpressureStep, if_pos rfl, line_recordEvaluation, if_pos rfl]
    exact pressed_holding (x := (s.line l).valued _) holding _
  rw [evaluate_fresh bound fresh unit, if_neg (by rw [state]; decide)]

variable (injecting : (s.line l).state = .injecting) (decision : (s.line l).decision = some d) (some : 1 ≤ z.fields.tRef)
include injecting decision some

theorem evaluate_ended (ended : endDecided z.fields (s.evaluationOf (s.line l) z) d = .some (cause, reason)) :
    evaluate l s = endStage l z.key cause reason (endsCounted l z (s.evaluationOf (s.line l) z) s) := by
  have recorded : ((recordEvaluation l (s.evaluationOf (s.line l) z) s).line l).decision = .some d := by
    rw [line_recordEvaluation, if_pos rfl]; exact decision
  have unit : stageEndUnit l (s.line l).state z (s.evaluationOf (s.line l) z)
      (recordEvaluation l (s.evaluationOf (s.line l) z) s) =
      endStage l z.key cause reason (endsCounted l z (s.evaluationOf (s.line l) z) s) := by
    rw [injecting]
    exact stageEndUnit_ended fresh recorded ((endCondition_countEnds _ _ _ some).trans ended)
  have state : ((endStage l z.key cause reason (endsCounted l z (s.evaluationOf (s.line l) z) s)).line l).state =
      .closing := by
    rw [endStage, line_closeLine_self]; rfl
  rw [evaluate_fresh bound fresh unit, if_neg (by rw [state]; decide)]

theorem evaluate_going (going : endDecided z.fields (s.evaluationOf (s.line l) z) d = none) :
    evaluate l s =
      if ((hazardsTaken l z (s.evaluationOf (s.line l) z) s).line l).state = .injecting then
        thickenLine l z (s.evaluationOf (s.line l) z).pe (hazardsTaken l z (s.evaluationOf (s.line l) z) s)
      else hazardsTaken l z (s.evaluationOf (s.line l) z) s := by
  have recorded : ((recordEvaluation l (s.evaluationOf (s.line l) z) s).line l).decision = .some d := by
    rw [line_recordEvaluation, if_pos rfl]; exact decision
  have unit : stageEndUnit l (s.line l).state z (s.evaluationOf (s.line l) z)
      (recordEvaluation l (s.evaluationOf (s.line l) z) s) = hazardsTaken l z (s.evaluationOf (s.line l) z) s := by
    rw [injecting]
    exact stageEndUnit_going fresh recorded ((endCondition_countEnds _ _ _ some).trans going)
  exact evaluate_fresh bound fresh unit

end

/-! ### The line after an evaluation -/

/-- The line with the evaluation recorded and the ends counted. -/
def Line.counted (z : Stage) (c : Computed) (x : Line) : Line :=
  { x.valued c with decision := x.decision.map (DecisionRecord.countEnds z.fields c) }

/-- The line with the hazards of an evaluation that ends nothing taken up. -/
def Line.hazarded (z : Stage) (c : Computed) (x : Line) : Line :=
  if suspects z.fields c (x.valued c).ring then ((x.counted z c).pressed c).held .fracture else (x.counted z c).pressed c

theorem line_endsCounted (l : LineId) (z : Stage) (c : Computed) (s : State) (m : LineId) :
    (endsCounted l z c s).line m = if m = l then (s.line l).counted z c else s.line m := by
  rw [endsCounted, line_updDecision, line_recordEvaluation, line_recordEvaluation, if_pos rfl]
  by_cases same : m = l
  · rw [if_pos same, if_pos same]; rfl
  · rw [if_neg same, if_neg same, if_neg same]

theorem ring_pressed (c : Computed) (x : Line) : (x.pressed c).ring = x.ring := (congrArg Line.ring (steady_pressed c x) :)

theorem line_hazardsTaken (l : LineId) (z : Stage) (c : Computed) (s : State) (m : LineId) :
    (hazardsTaken l z c s).line m = if m = l then (s.line l).hazarded z c else s.line m := by
  have ring : (((s.line l).counted z c).pressed c).ring = ((s.line l).valued c).ring := ring_pressed c _
  have here : (overpressureStep l c (endsCounted l z c s)).line l = ((s.line l).counted z c).pressed c := by
    rw [line_overpressureStep, if_pos rfl, line_endsCounted, if_pos rfl]
  rw [hazardsTaken, line_fractureStep, here, ring, Line.hazarded]
  by_cases same : m = l
  · subst m
    rw [if_pos rfl]
    by_cases found : suspects z.fields c ((s.line l).valued c).ring = true
    · rw [if_pos ⟨rfl, found⟩, if_pos found]
    · rw [if_neg fun h => found h.2, if_neg found, here]
  · rw [if_neg fun h => same h.1, if_neg same, line_overpressureStep, if_neg same, line_endsCounted, if_neg same]

theorem steady_counted (z : Stage) (c : Computed) (x : Line) : (x.counted z c).steady = (x.valued c).steady := rfl

theorem steady_hazarded (z : Stage) (c : Computed) (x : Line) : (x.hazarded z c).steady = (x.valued c).steady := by
  unfold Line.hazarded
  split
  · rw [steady_held, steady_pressed, steady_counted]
  · rw [steady_pressed, steady_counted]

theorem stage_endsCounted (fresh : c.stale = false) (j : StageKey) :
    (endsCounted l z c s).stage? j =
      if (s.line l).carried = some j then (s.stage? j).map (Stage.addProgress (Progress.raisePe c.pe)) else s.stage? j :=
  stage_recordEvaluation fresh j

end

end Sys2Proof.Machine
end

section
/-! PROOFS. The sample that evaluates a line (R69, R87, R103). -/

namespace Sys2Proof.Machine

section
variable {s t u : State} {l n : LineId} {k : StageKey} {z : Stage} {x y : Line} {c : Computed} {d : DecisionRecord}
  {i : Nat} {m : Bool} {top loss : Nat} {band : Option Nat} {v : Option Int} {a : Channel}

/-! ### A channel that is valid after its sample (R73 to R75) -/

theorem good_of_valid (valid : (a.sample top loss band v).channel.validity = .valid) : ∃ n, v = some n := by
  cases v with
  | some n => exact ⟨n, rfl⟩
  | none =>
    exfalso
    have bad : (a.badSample top loss).channel.validity = .valid := valid
    cases before : a.validity with
    | valid => rw [(badSample_valid top loss before).1] at bad; nomatch bad
    | suspect =>
      rw [(badSample_suspect top loss before).1] at bad
      split at bad <;> nomatch bad
    | lost | regain1 | regain2 => rw [(badSample_lost top loss (by simp [before])).1] at bad; nomatch bad
    | off =>
      unfold Channel.badSample at bad
      dsimp only at bad
      rw [before] at bad
      nomatch bad

theorem regain_of_valid (valid : (a.sample top loss band v).channel.validity = .valid) :
    (a.sample top loss band v).regain = true ↔ a.validity = .regain2 := by
  obtain ⟨n, rfl⟩ := good_of_valid valid
  exact regain_goodSample band n a

theorem no_loss_of_valid (valid : (a.sample top loss band v).channel.validity = .valid) :
    (a.sample top loss band v).loss = false := by
  obtain ⟨n, rfl⟩ := good_of_valid valid
  obtain ⟨-, -, none, -⟩ := goodSample_facts band n a
  exact none

/-! ### The line that an evaluation finds -/

/-- The values that the sample's evaluation forms. -/
def State.evaluates (s : State) (l : LineId) (i : Nat) (m : Bool) (z : Stage) : Computed :=
  (sampleRead l i m .opened s).evaluationOf (s.readLine l i m .opened) z

theorem readLine_pressure (s : State) (l : LineId) (i : Nat) (m : Bool) (rb : Readback) :
    (s.readLine l i m rb).pressure = (s.sampling l i m).2.1.channel :=
  (congrArg Line.pressure (sampledLine_steady s l i m) :)

theorem readLine_flow (s : State) (l : LineId) (i : Nat) (m : Bool) (rb : Readback) :
    (s.readLine l i m rb).flow = (s.sampling l i m).2.2.channel :=
  (congrArg Line.flow (sampledLine_steady s l i m) :)

theorem readLine_inForce (s : State) (l : LineId) (i : Nat) (m : Bool) (rb : Readback) :
    (s.readLine l i m rb).inForce = (s.line l).settings := (congrArg Line.inForce (sampledLine_steady s l i m) :)

theorem readLine_classes (s : State) (l : LineId) (i : Nat) (m : Bool) (rb : Readback) :
    (s.readLine l i m rb).classes = (s.line l).classes := (congrArg Line.classes (sampledLine_steady s l i m) :)

theorem readLine_stage (s : State) (l : LineId) (i : Nat) (m : Bool) (rb : Readback) :
    (s.readLine l i m rb).stage = (s.line l).stage := (congrArg Line.stage (sampledLine_steady s l i m) :)

theorem readLine_grant (s : State) (l : LineId) (i : Nat) (m : Bool) (rb : Readback) :
    (s.readLine l i m rb).grant = (s.line l).grant := (congrArg Line.grant (sampledLine_steady s l i m) :)

theorem readLine_ring (s : State) (l : LineId) (i : Nat) (m : Bool) (rb : Readback) :
    (s.readLine l i m rb).ring =
      if (s.sampling l i m).2.1.regain || (s.sampling l i m).2.2.regain then [] else (s.line l).ring :=
  (congrArg Line.ring (sampledLine_steady s l i m) :)

theorem readLine_state (s : State) (l : LineId) (i : Nat) (m : Bool) (rb : Readback) :
    (s.readLine l i m rb).state = (s.sampledLine l i m).state := rfl

/-- The values are those of section 5, on the channels as sampled. -/
theorem evaluates_eq (s : State) (l : LineId) (i : Nat) (m : Bool) (z : Stage) :
    s.evaluates l i m z = envelope s.stop.warn s.settings.derate (s.line l).settings z
      (((s.line l).classes.map Classes.effective).getD 0) (s.sampling l i m).2.1.channel (s.sampling l i m).2.2.channel := by
  have kept := sampleRead_keeps l i m .opened s
  have settings : (sampleRead l i m .opened s).settings = s.settings := kept.2 .settings (by decide)
  rw [State.evaluates, evaluationOf_eq, kept.stop (by decide), settings, readLine_inForce, readLine_classes,
      readLine_pressure,
    readLine_flow]

theorem evaluates_stale (s : State) (l : LineId) (i : Nat) (m : Bool) (z : Stage) :
    (s.evaluates l i m z).stale = true ↔ (s.sampling l i m).2.1.channel.validity ≠ .valid ∨
      (s.sampling l i m).2.2.channel.validity ≠ .valid := by
  rw [evaluates_eq]
  exact decide_eq_true_iff

theorem affected_of_no_loss {r : Sampled} (none : r.loss = false) (x : Line) :
    x.affected r = x ∨ x.affected r = x.freed .sensor := by
  have same : x.lossed r = x := if_neg (by rw [none]; decide)
  rw [Line.affected, same]
  split
  · exact .inr rfl
  · exact .inl rfl

theorem freed_freed (q : HoldCause) (x : Line) : (x.freed q).freed q = x.freed q := by
  have again (xs : List HoldCause) : withoutCause q (withoutCause q xs) = withoutCause q xs := by
    simp [withoutCause]
  unfold Line.freed
  cases state : x.state <;> simp [again, state]

theorem freed_decision (q : HoldCause) (x : Line) : (x.freed q).decision = x.decision := by
  unfold Line.freed
  split <;> rfl

section
variable (fresh : (s.evaluates l i m z).stale = false)
include fresh

theorem valid_of_fresh : (s.sampling l i m).2.1.channel.validity = .valid ∧
    (s.sampling l i m).2.2.channel.validity = .valid := by
  have not : ¬ ((s.sampling l i m).2.1.channel.validity ≠ .valid ∨ (s.sampling l i m).2.2.channel.validity ≠ .valid) :=
    fun h => by rw [(evaluates_stale s l i m z).mpr h] at fresh; nomatch fresh
  exact ⟨not_not.mp fun h => not (.inl h), not_not.mp fun h => not (.inr h)⟩

/-- A fresh evaluation finds the line as its sample left it, SENSOR removed at a regain. -/
theorem sampledLine_of_fresh :
    s.sampledLine l i m = (s.sampling l i m).1 ∨ s.sampledLine l i m = (s.sampling l i m).1.freed .sensor := by
  obtain ⟨pressure, flow⟩ := valid_of_fresh fresh
  have first : (s.sampling l i m).2.1.loss = false := no_loss_of_valid pressure
  have second : (s.sampling l i m).2.2.loss = false := no_loss_of_valid flow
  unfold State.sampledLine
  rcases affected_of_no_loss first (s.sampling l i m).1 with h | h <;> rw [h]
  · exact affected_of_no_loss second _
  · rcases affected_of_no_loss second ((s.sampling l i m).1.freed .sensor) with h' | h' <;> rw [h']
    · exact .inr rfl
    · exact .inr (freed_freed _ _)

theorem sampledLine_state_of_fresh : (s.sampledLine l i m).state = (s.line l).state := by
  rcases sampledLine_of_fresh fresh with h | h <;> rw [h]
  · exact sampling_state s l i m
  · rw [freed_state]; exact sampling_state s l i m

theorem readLine_decision_of_fresh : (s.readLine l i m .opened).decision = (s.line l).decision := by
  have sampled : (s.sampledLine l i m).decision = (s.sampling l i m).1.decision := by
    rcases sampledLine_of_fresh fresh with h | h <;> rw [h]
    exact freed_decision _ _
  exact sampled

theorem causes_of_fresh {q : HoldCause} (other : q ≠ .sensor) :
    q ∈ (s.readLine l i m .opened).causes ↔ q ∈ (s.line l).causes := by
  have sampled : q ∈ (s.sampledLine l i m).causes ↔ q ∈ (s.sampling l i m).1.causes := by
    rcases sampledLine_of_fresh fresh with h | h <;> rw [h]
    unfold Line.freed
    split <;> simp [withoutCause, other]
  exact sampled

theorem ring_of_fresh (rb : Readback) : (s.readLine l i m rb).ring =
    if (s.line l).pressure.validity = .regain2 ∨ (s.line l).flow.validity = .regain2 then [] else (s.line l).ring := by
  obtain ⟨pressure, flow⟩ := valid_of_fresh fresh
  have first : (s.sampling l i m).2.1.regain = true ↔ (s.line l).pressure.validity = .regain2 := regain_of_valid pressure
  have second : (s.sampling l i m).2.2.regain = true ↔ (s.line l).flow.validity = .regain2 := regain_of_valid flow
  rw [readLine_ring]
  simp only [Bool.or_eq_true, first, second]

end

/-! ### The sample that evaluates (R87, R103) -/

section
variable (ev : evaluating s l k z d)
include ev

theorem evaluating_evaluated : (s.line l).state.evaluated = true := by
  obtain ⟨-, state, -⟩ := ev
  exact (evaluated_iff _).mpr state

theorem exec_evaluating (i : Nat) (m : Bool) :
    exec (.lineSampleEvent l i m true false) s =
      .next (settleStartCheck (evaluate l (sampleRead l i m .opened s))) := by
  have evaluated : (s.sampledLine l i m).state.evaluated = true := by
    rw [sampledLine_evaluated]; exact evaluating_evaluated ev
  obtain ⟨present, state, command, travel, -⟩ := ev
  have free : (s.line l).state ≠ .isolated := fun h => by rw [h] at state; simp at state
  have calm : s.readsCalm l .opened :=
    valveFaultOf_arrived command (fun w e => by rw [travel] at e; nomatch e) rfl (by decide : 0 ≠ 3)
  have here : (sampleRead l i m .opened s).line l = s.readLine l i m .opened := by rw [line_sampleRead, if_pos rfl]
  have opening : (s.sampledLine l i m).state ≠ .opening := fun h => by rw [h] at evaluated; nomatch evaluated
  have closing : (s.sampledLine l i m).state ≠ .closing := fun h => by rw [h] at evaluated; nomatch evaluated
  have confirm : confirmValve l (sampleRead l i m .opened s) = sampleRead l i m .opened s :=
    confirmValve_other (by rw [here]; exact opening) (by rw [here]; exact closing)
  have compare : valveCompare l (readbackOf true false) (channelsTaken l i m s) = sampleRead l i m .opened s :=
    (valveCompare_calm (rb := .opened) free calm i m).trans confirm
  have was : (((channelsTaken l i m s).line l).state == .opening) = false := by
    rw [line_channelsTaken, if_pos rfl]
    simpa using opening
  have used : sampleUsed l (s.sampling l i m).2.1.regain false (sampleRead l i m .opened s) =
      evaluate l (sampleRead l i m .opened s) := by
    have state : ((sampleRead l i m .opened s).line l).state.evaluated = true := by rw [here]; exact evaluated
    unfold sampleUsed
    cases h : ((sampleRead l i m .opened s).line l).state <;> rw [h] at state <;> first | rfl | exact Bool.noConfusion state
  rw [exec_lineSample present, compare, was, used]

theorem boundStage_evaluating (i : Nat) (m : Bool) : (sampleRead l i m .opened s).boundStage l = some z := by
  obtain ⟨-, -, -, -, bound, found, -⟩ := ev
  rw [State.boundStage, line_sampleRead, if_pos rfl, readLine_stage, bound]
  exact ((sampleRead_keeps l i m .opened s).stage (by decide) k).trans found

theorem carried_evaluating (i : Nat) (m : Bool) : (s.readLine l i m .opened).carried = some k := by
  have evaluated : (s.readLine l i m .opened).state.evaluated = true := by
    rw [readLine_state, sampledLine_evaluated]; exact evaluating_evaluated ev
  obtain ⟨-, -, -, -, bound, -⟩ := ev
  have live : (s.readLine l i m .opened).state.live = true := by
    cases h : (s.readLine l i m .opened).state <;> rw [h] at evaluated <;> first | rfl | exact Bool.noConfusion evaluated
  rw [Line.carried, if_pos live, readLine_stage, bound]

theorem key_evaluating : z.key = k := by
  obtain ⟨-, -, -, -, -, found, -⟩ := ev
  exact key_of_lookupStage found

end

/-- The part after a sample that evaluates the line. -/
def evaluatedSample (l : LineId) (i : Nat) (m : Bool) (s : State) : State :=
  settleStartCheck (evaluate l (sampleRead l i m .opened s))

theorem line_sampleRead_self (s : State) (l : LineId) (i : Nat) (m : Bool) (rb : Readback) :
    (sampleRead l i m rb s).line l = s.readLine l i m rb := by rw [line_sampleRead, if_pos rfl]

theorem line_evaluatedSample (l : LineId) (i : Nat) (m : Bool) (s : State) (n : LineId) :
    (evaluatedSample l i m s).line n = (evaluate l (sampleRead l i m .opened s)).line n := line_settleStartCheck _ n

theorem stage_evaluatedSample (l : LineId) (i : Nat) (m : Bool) (s : State) (j : StageKey) :
    (evaluatedSample l i m s).stage? j = (evaluate l (sampleRead l i m .opened s)).stage? j :=
  (settleStartCheck_keeps _).stage (by decide) j

theorem meters_evaluatedSample (l : LineId) (i : Nat) (m : Bool) (s : State) :
    ((evaluatedSample l i m s).line l).pressure = (s.sampling l i m).2.1.channel ∧
    ((evaluatedSample l i m s).line l).flow = (s.sampling l i m).2.2.channel := by
  have kept : ((evaluate l (sampleRead l i m .opened s)).line l).meterPart = (s.readLine l i m .opened).meterPart :=
    ((evaluate_keeps l _).2 .meters (by decide) l :).trans (by rw [line_sampleRead_self])
  rw [line_evaluatedSample, ← readLine_pressure s l i m .opened, ← readLine_flow s l i m .opened]
  exact ⟨congrArg Prod.fst kept, congrArg (fun p => p.2.1) kept⟩

/-- The values of the obligations are the evaluation's. -/
theorem envelope_evaluatedSample (l : LineId) (i : Nat) (m : Bool) (s : State) (z : Stage) :
    envelope s.stop.warn s.settings.derate (s.line l).settings z (((s.line l).classes.map Classes.effective).getD 0)
      ((evaluatedSample l i m s).line l).pressure ((evaluatedSample l i m s).line l).flow = s.evaluates l i m z := by
  obtain ⟨pressure, flow⟩ := meters_evaluatedSample l i m s
  rw [pressure, flow, evaluates_eq]

theorem evaluationOf_sampleRead (s : State) (l : LineId) (i : Nat) (m : Bool) (z : Stage) :
    (sampleRead l i m .opened s).evaluationOf ((sampleRead l i m .opened s).line l) z = s.evaluates l i m z := by
  rw [line_sampleRead_self, State.evaluates]

end

end Sys2Proof.Machine
end

section
/-! PROOFS. The line and its stage after a sample that evaluates it (R100 to R114). -/

namespace Sys2Proof.Machine

section
variable {s t u : State} {l n : LineId} {k : StageKey} {z : Stage} {x y : Line} {c : Computed} {d : DecisionRecord}
  {i : Nat} {m : Bool} {g : Progress} {cause : EndCause} {reason : EndReason}

/-! ### A stale evaluation (R76, R100, R105, R133) -/

/-- A line after a stale evaluation. -/
def Line.staled (c : Computed) (x : Line) : Line :=
  { x.valued c with decision := x.decision.map (fun _ => ⟨0, 0, 0, 0⟩)
                    classes := x.classes.map (fun a => { a with pendingVolume := 0 }) }

theorem counterTop_congr (h : t.settings = s.settings) : t.counterTop = s.counterTop := by
  rw [State.counterTop, State.counterTop, h]

theorem stage_sampleRead (l : LineId) (i : Nat) (m : Bool) (rb : Readback) (s : State) (j : StageKey) :
    (sampleRead l i m rb s).stage? j = s.stage? j := (sampleRead_keeps l i m rb s).stage (by decide) j

section
variable (ev : evaluating s l k z d)
include ev

theorem evaluate_sample_stale (stale : (s.evaluates l i m z).stale = true) :
    evaluate l (sampleRead l i m .opened s) = dropPendingVolume l (updDecision l (fun _ => ⟨0, 0, 0, 0⟩)
      (recordEvaluation l (s.evaluates l i m z) (sampleRead l i m .opened s))) := by
  have outcome := evaluate_stale (boundStage_evaluating ev i m)
  rw [evaluationOf_sampleRead] at outcome
  exact outcome stale

theorem line_sample_stale (stale : (s.evaluates l i m z).stale = true) :
    (evaluatedSample l i m s).line l = (s.readLine l i m .opened).staled (s.evaluates l i m z) := by
  rw [line_evaluatedSample, evaluate_sample_stale ev stale, dropPendingVolume, line_updLine_self, line_updDecision,
    line_recordEvaluation, line_sampleRead_self, if_pos rfl, if_pos rfl]
  rfl

theorem stage_sample_stale (stale : (s.evaluates l i m z).stale = true) (j : StageKey) :
    (evaluatedSample l i m s).stage? j = s.stage? j := by
  have dropped (v : State) : (dropPendingVolume l (updDecision l (fun _ => ⟨0, 0, 0, 0⟩) v)).stage? j = v.stage? j := rfl
  rw [stage_evaluatedSample, evaluate_sample_stale ev stale, dropped, stage_recordEvaluation_stale stale, stage_sampleRead]

section
variable (fresh : (s.evaluates l i m z).stale = false)
include fresh

/-- The stage after the values of a fresh evaluation are recorded (R22, R100). -/
def Stage.evaluatedBy (c : Computed) (z : Stage) : Stage := z.addProgress (Progress.raisePe c.pe)

omit ev fresh in
theorem key_addProgress (f : Progress → Progress) (z : Stage) : (z.addProgress f).key = z.key := by
  unfold Stage.addProgress
  split <;> rfl

theorem stage_recorded (j : StageKey) :
    (recordEvaluation l (s.evaluates l i m z) (sampleRead l i m .opened s)).stage? j =
      if j = k then some (z.evaluatedBy (s.evaluates l i m z)) else s.stage? j := by
  rw [stage_recordEvaluation fresh, line_sampleRead_self, carried_evaluating ev, stage_sampleRead]
  obtain ⟨-, -, -, -, -, found, -⟩ := ev
  by_cases same : j = k
  · subst j
    rw [if_pos rfl, if_pos rfl, found]
    rfl
  · rw [if_neg fun e => same (Option.some.inj e).symm, if_neg same]

/-! ### A fresh evaluation in ARMED -/

section
variable (armed : (s.line l).state = .armed)
include armed

theorem evaluate_sample_armed :
    evaluate l (sampleRead l i m .opened s) =
      recordEvaluation l (s.evaluates l i m z) (sampleRead l i m .opened s) := by
  have state : ((sampleRead l i m .opened s).line l).state = .armed := by
    rw [line_sampleRead_self, readLine_state, sampledLine_state_of_fresh fresh, armed]
  have outcome := evaluate_armed (boundStage_evaluating ev i m)
  rw [evaluationOf_sampleRead] at outcome
  exact outcome fresh state

theorem line_sample_armed :
    (evaluatedSample l i m s).line l = (s.readLine l i m .opened).valued (s.evaluates l i m z) := by
  rw [line_evaluatedSample, evaluate_sample_armed ev fresh armed, line_recordEvaluation, line_sampleRead_self, if_pos rfl]

theorem stage_sample_armed :
    (evaluatedSample l i m s).stage? k = some (z.evaluatedBy (s.evaluates l i m z)) := by
  rw [stage_evaluatedSample, evaluate_sample_armed ev fresh armed, stage_recorded ev fresh, if_pos rfl]

end

/-! ### A fresh evaluation in HOLDING -/

/-- A stage with an overpressure event counted. -/
def Stage.countOverpressure (top : Nat) (z : Stage) : Stage := z.addProgress (Progress.countOverpressure top)

section
variable (holding : (s.line l).state = .holding)
include holding

theorem evaluate_sample_holding :
    evaluate l (sampleRead l i m .opened s) = overpressureStep l (s.evaluates l i m z)
      (recordEvaluation l (s.evaluates l i m z) (sampleRead l i m .opened s)) := by
  have state : ((sampleRead l i m .opened s).line l).state = .holding := by
    rw [line_sampleRead_self, readLine_state, sampledLine_state_of_fresh fresh, holding]
  have outcome := evaluate_holding (boundStage_evaluating ev i m)
  rw [evaluationOf_sampleRead] at outcome
  exact outcome fresh state

theorem line_sample_holding :
    (evaluatedSample l i m s).line l =
      ((s.readLine l i m .opened).valued (s.evaluates l i m z)).pressed (s.evaluates l i m z) := by
  rw [line_evaluatedSample, evaluate_sample_holding ev fresh holding, line_overpressureStep, line_recordEvaluation,
    line_sampleRead_self, if_pos rfl, if_pos rfl]

open Classical in
theorem stage_sample_holding :
    (evaluatedSample l i m s).stage? k = some (
      if ((s.readLine l i m .opened).valued (s.evaluates l i m z)).overpressed (s.evaluates l i m z) then
        (z.evaluatedBy (s.evaluates l i m z)).countOverpressure s.counterTop
      else z.evaluatedBy (s.evaluates l i m z)) := by
  have top : (recordEvaluation l (s.evaluates l i m z) (sampleRead l i m .opened s)).counterTop = s.counterTop :=
    counterTop_congr (((recordEvaluation_keeps l _ _).2 .settings (by decide) :).trans
      ((sampleRead_keeps l i m .opened s).2 .settings (by decide) :))
  have carried : ((s.readLine l i m .opened).valued (s.evaluates l i m z)).carried = some k := carried_evaluating ev i m
  rw [stage_evaluatedSample, evaluate_sample_holding ev fresh holding, stage_overpressureStep, stage_recorded ev fresh,
    line_recordEvaluation, line_sampleRead_self, if_pos rfl, if_pos rfl, top]
  simp only [carried, and_true]
  split
  · rfl
  · rfl

end

/-! ### A fresh evaluation in INJECTING -/

section
variable (injecting : (s.line l).state = .injecting) (some' : 1 ≤ z.fields.tRef)
include injecting some'

theorem evaluate_sample_ended (ended : endDecided z.fields (s.evaluates l i m z) d = some (cause, reason)) :
    evaluate l (sampleRead l i m .opened s) =
      endStage l z.key cause reason (endsCounted l z (s.evaluates l i m z) (sampleRead l i m .opened s)) := by
  have state : ((sampleRead l i m .opened s).line l).state = .injecting := by
    rw [line_sampleRead_self, readLine_state, sampledLine_state_of_fresh fresh, injecting]
  have decision : ((sampleRead l i m .opened s).line l).decision = some d := by
    rw [line_sampleRead_self, readLine_decision_of_fresh fresh]
    obtain ⟨-, -, -, -, -, -, decision⟩ := ev
    exact decision
  have outcome := evaluate_ended (cause := cause) (reason := reason) (d := d) (boundStage_evaluating ev i m)
  rw [evaluationOf_sampleRead] at outcome
  exact outcome fresh state decision some' ended

theorem evaluate_sample_going (going : endDecided z.fields (s.evaluates l i m z) d = none) :
    evaluate l (sampleRead l i m .opened s) =
      if ((hazardsTaken l z (s.evaluates l i m z) (sampleRead l i m .opened s)).line l).state = .injecting then
        thickenLine l z (s.evaluates l i m z).pe (hazardsTaken l z (s.evaluates l i m z) (sampleRead l i m .opened s))
      else hazardsTaken l z (s.evaluates l i m z) (sampleRead l i m .opened s) := by
  have state : ((sampleRead l i m .opened s).line l).state = .injecting := by
    rw [line_sampleRead_self, readLine_state, sampledLine_state_of_fresh fresh, injecting]
  have decision : ((sampleRead l i m .opened s).line l).decision = some d := by
    rw [line_sampleRead_self, readLine_decision_of_fresh fresh]
    obtain ⟨-, -, -, -, -, -, decision⟩ := ev
    exact decision
  have outcome := evaluate_going (d := d) (boundStage_evaluating ev i m)
  rw [evaluationOf_sampleRead] at outcome
  exact outcome fresh state decision some' going

theorem line_sample_going (going : endDecided z.fields (s.evaluates l i m z) d = none) :
    (evaluatedSample l i m s).line l =
      if ((s.readLine l i m .opened).hazarded z (s.evaluates l i m z)).state = .injecting then
        ((s.readLine l i m .opened).hazarded z (s.evaluates l i m z)).thickened z (s.evaluates l i m z).pe
      else (s.readLine l i m .opened).hazarded z (s.evaluates l i m z) := by
  have hazards : (hazardsTaken l z (s.evaluates l i m z) (sampleRead l i m .opened s)).line l =
      (s.readLine l i m .opened).hazarded z (s.evaluates l i m z) := by
    rw [line_hazardsTaken, if_pos rfl, line_sampleRead_self]
  rw [line_evaluatedSample, evaluate_sample_going ev fresh injecting some' going, hazards]
  split
  · rw [line_thickenLine, if_pos rfl, hazards]
  · exact hazards

theorem stage_sample_hazards (going : endDecided z.fields (s.evaluates l i m z) d = none) (j : StageKey) :
    (evaluatedSample l i m s).stage? j =
      (hazardsTaken l z (s.evaluates l i m z) (sampleRead l i m .opened s)).stage? j := by
  rw [stage_evaluatedSample, evaluate_sample_going ev fresh injecting some' going]
  split
  · exact (thickenLine_keeps _ _ _ _).stage (by decide) j
  · rfl

open Classical in
/-- The stage after an evaluation that ends nothing: its overpressure counted, then its fracture pending. -/
theorem stage_sample_going (going : endDecided z.fields (s.evaluates l i m z) d = none) :
    ∃ z₁, z₁ = (if ((s.readLine l i m .opened).counted z (s.evaluates l i m z)).overpressed (s.evaluates l i m z) then
        (z.evaluatedBy (s.evaluates l i m z)).countOverpressure s.counterTop else z.evaluatedBy (s.evaluates l i m z)) ∧
    (evaluatedSample l i m s).stage? k = some (
      if suspects z.fields (s.evaluates l i m z) ((s.readLine l i m .opened).valued (s.evaluates l i m z)).ring = true then
        z₁.pend PendingDecision.addFracture else z₁) := by
  refine ⟨_, rfl, ?_⟩
  have counted : (endsCounted l z (s.evaluates l i m z) (sampleRead l i m .opened s)).line l =
      (s.readLine l i m .opened).counted z (s.evaluates l i m z) := by
    rw [line_endsCounted, if_pos rfl, line_sampleRead_self]
  have recorded (j : StageKey) : (endsCounted l z (s.evaluates l i m z) (sampleRead l i m .opened s)).stage? j =
      if j = k then some (z.evaluatedBy (s.evaluates l i m z)) else s.stage? j := stage_recorded ev fresh j
  have top : (endsCounted l z (s.evaluates l i m z) (sampleRead l i m .opened s)).counterTop = s.counterTop :=
    counterTop_congr ((((updDecision_keeps l _ _).2 .settings (by decide) :).trans
      ((recordEvaluation_keeps l _ _).2 .settings (by decide) :)).trans
      ((sampleRead_keeps l i m .opened s).2 .settings (by decide) :))
  have carried : ((s.readLine l i m .opened).counted z (s.evaluates l i m z)).carried = some k := carried_evaluating ev i m
  have ring : (((s.readLine l i m .opened).counted z (s.evaluates l i m z)).pressed (s.evaluates l i m z)).ring =
      ((s.readLine l i m .opened).valued (s.evaluates l i m z)).ring := ring_pressed _ _
  rw [stage_sample_hazards ev fresh injecting some' going, hazardsTaken, stage_fractureStep, stage_overpressureStep,
    line_overpressureStep, counted, if_pos rfl, ring, recorded, if_pos rfl, top, key_evaluating ev]
  simp only [carried, and_true, true_and]
  split <;> split <;> rfl

end

end

end

end

end Sys2Proof.Machine
end

section
/-! PROOFS. Evaluations that end a stage, and those that do not (R100 to R110). -/

namespace Sys2Proof.Machine

section
variable {s t u : State} {l n : LineId} {k : StageKey} {z : Stage} {x y : Line} {c : Computed} {d : DecisionRecord}
  {i : Nat} {m : Bool} {g : Progress} {cause : EndCause} {reason : EndReason} {values : Option Computed}

/-! ### What an evaluation leaves of its line -/

theorem evaluated_held (q : HoldCause) (x : Line) : (x.held q).state.evaluated = x.state.evaluated := by
  unfold Line.held
  split
  · rfl
  · cases state : x.state <;> simp [LineState.evaluated, state]

theorem evaluated_pressed (c : Computed) (x : Line) : (x.pressed c).state.evaluated = x.state.evaluated := by
  unfold Line.pressed
  cases x.decision with
  | none => rfl
  | some d =>
    dsimp only
    split
    · by_cases enough : 4 ≤ (if c.pe ≤ c.ce then d.clear + 1 else 0)
      · rw [if_pos enough, freed_state]
      · rw [if_neg enough]
    · by_cases enough : 2 ≤ (if c.overpressureLimit < c.pe then d.raise + 1 else 0)
      · rw [if_pos enough, evaluated_held]
      · rw [if_neg enough]

theorem evaluated_hazarded (z : Stage) (c : Computed) (x : Line) : (x.hazarded z c).state.evaluated = x.state.evaluated := by
  have counted : ((x.counted z c).pressed c).state.evaluated = x.state.evaluated := evaluated_pressed c _
  unfold Line.hazarded
  split
  · rw [evaluated_held, counted]
  · exact counted

/-- A line but for what thickening changes. -/
def Line.mixless (x : Line) : Line := { x with classes := none, mixLag := false }

theorem mixless_thickened (z : Stage) (pe : Nat) (x : Line) : (x.thickened z pe).mixless = x.mixless := by
  unfold Line.thickened
  cases x.classes with
  | none => rfl
  | some a =>
    dsimp only
    split <;> rfl

/-- The line after the hazards and the thickening of an evaluation that ends nothing. -/
def Line.gone (z : Stage) (c : Computed) (x : Line) : Line :=
  if (x.hazarded z c).state = .injecting then (x.hazarded z c).thickened z c.pe else x.hazarded z c

theorem mixless_gone (z : Stage) (c : Computed) (x : Line) : (x.gone z c).mixless = (x.hazarded z c).mixless := by
  unfold Line.gone
  split
  · exact mixless_thickened _ _ _
  · rfl

/-- A line that still stands with the values of its evaluation. -/
structure Line.Standing (c : Computed) (x y : Line) : Prop where
  evaluated : y.state.evaluated = x.state.evaluated
  values : y.values = some c
  stage : y.stage = x.stage
  grant : y.grant = x.grant
  ring : y.ring = if c.stale then [] else pushRing (c.pe, c.q) x.ring

theorem standing_of_steady (h : y.steady = (x.valued c).steady) (evaluated : y.state.evaluated = x.state.evaluated) :
    Line.Standing c x y where
  evaluated := evaluated
  values := (congrArg Line.values h :)
  stage := (congrArg Line.stage h :)
  grant := (congrArg Line.grant h :)
  ring := (congrArg Line.ring h :)

theorem standing_staled (c : Computed) (x : Line) : Line.Standing c x (x.staled c) := ⟨rfl, rfl, rfl, rfl, rfl⟩

theorem standing_pressed (c : Computed) (x : Line) : Line.Standing c x ((x.valued c).pressed c) :=
  standing_of_steady (steady_pressed c _) (evaluated_pressed c _)

theorem standing_gone (z : Stage) (c : Computed) (x : Line) : Line.Standing c x (x.gone z c) := by
  have hazarded : Line.Standing c x (x.hazarded z c) :=
    standing_of_steady (steady_hazarded z c x) (evaluated_hazarded z c x)
  have same := mixless_gone z c x
  have state : (x.gone z c).state = (x.hazarded z c).state := (congrArg Line.state same :)
  exact ⟨(congrArg LineState.evaluated state).trans hazarded.evaluated, (congrArg Line.values same :).trans hazarded.values,
    (congrArg Line.stage same :).trans hazarded.stage, (congrArg Line.grant same :).trans hazarded.grant,
    (congrArg Line.ring same :).trans hazarded.ring⟩

section
variable (ev : evaluating s l k z d)
include ev

theorem state_evaluating : (s.line l).state = .armed ∨ (s.line l).state = .injecting ∨ (s.line l).state = .holding := by
  obtain ⟨-, state, -⟩ := ev
  simpa using state

/-- An evaluation that ends nothing leaves its line standing. -/
theorem standing_sample (some' : 1 ≤ z.fields.tRef)
    (stands : (s.evaluates l i m z).stale = true ∨ (s.line l).state ≠ .injecting ∨
      endDecided z.fields (s.evaluates l i m z) d = none) :
    Line.Standing (s.evaluates l i m z) (s.readLine l i m .opened) ((evaluatedSample l i m s).line l) := by
  cases stale : (s.evaluates l i m z).stale with
  | true => rw [line_sample_stale ev stale]; exact standing_staled _ _
  | false =>
    rcases state_evaluating ev with armed | injecting | holding
    · rw [line_sample_armed ev stale armed]; exact ⟨rfl, rfl, rfl, rfl, rfl⟩
    · have going : endDecided z.fields (s.evaluates l i m z) d = none :=
        (stands.resolve_left (by rw [stale]; decide)).resolve_left (fun h => h injecting)
      rw [line_sample_going ev stale injecting some' going]; exact standing_gone _ _ _
    · rw [line_sample_holding ev stale holding]; exact standing_pressed _ _

end

/-! ### The end of a stage (R13, R110) -/

/-- A stage COMPLETE is not examined again. -/
theorem stage_completeStage_self (l : Option LineId) (found : s.stage? z.key = some z) (cause : EndCause)
    (values : Option Computed) :
    (completeStage l z.key cause values s).stage? z.key = some (z.endedBy .complete cause s.clock.site) := by
  obtain ⟨self, -⟩ := finishStage_finished l found .complete cause values
  have still (v : State) : examined v (z.endedBy .complete cause s.clock.site) = z.endedBy .complete cause s.clock.site :=
    examined_of_not fun h => nomatch (freeable_iff.mp h).1
  unfold completeStage
  rw [examineDependants_eq, stage_examineAll, self]
  split
  · rw [Option.map_some, still]
  · rfl

/-- The part as an ending evaluation finds it: the values recorded, the ends counted. -/
def sampleCounted (l : LineId) (i : Nat) (m : Bool) (z : Stage) (s : State) : State :=
  endsCounted l z (s.evaluates l i m z) (sampleRead l i m .opened s)

theorem sampleCounted_keeps (l : LineId) (i : Nat) (m : Bool) (z : Stage) (s : State) :
    keeps [.lines, .lineSettings, .meters, .queues, .faults, .writes, .stages] s (sampleCounted l i m z s) :=
  (updDecision_keeps l _ _).after (by decide) ((recordEvaluation_keeps l _ _).after (by decide)
    ((sampleRead_keeps l i m .opened s).mono (by decide)))

theorem site_sampleCounted (l : LineId) (i : Nat) (m : Bool) (z : Stage) (s : State) :
    (sampleCounted l i m z s).clock.site = s.clock.site :=
  congrArg Clock.site ((sampleCounted_keeps l i m z s).2 .clock (by decide) :)

theorem line_sampleCounted (l : LineId) (i : Nat) (m : Bool) (z : Stage) (s : State) (n : LineId) :
    (sampleCounted l i m z s).line n =
      if n = l then (s.readLine l i m .opened).counted z (s.evaluates l i m z) else s.line n := by
  rw [sampleCounted, line_endsCounted, line_sampleRead_self]
  split
  · rfl
  · rw [line_sampleRead, if_neg ‹_›]

theorem map_key_addProgress (l : LineId) (f : Progress → Progress) (s : State) :
    (addProgress l f s).store.stages.map Stage.key = s.store.stages.map Stage.key := by
  unfold addProgress
  split
  · exact map_key_mapStage _ _ (key_addProgress f) _
  · rfl

theorem inKeyOrder_sampleCounted (order : inKeyOrder s.store.stages) :
    inKeyOrder (sampleCounted l i m z s).store.stages := by
  have read : (sampleRead l i m .opened s).store.stages = s.store.stages :=
    (sampleRead_keeps l i m .opened s).2 .stages (by decide)
  have recorded (c : Computed) (u : State) :
      (recordEvaluation l c u).store.stages.map Stage.key = u.store.stages.map Stage.key := by
    rw [recordEvaluation_eq]
    split
    · rfl
    · exact map_key_addProgress _ _ _
  have keys : (sampleCounted l i m z s).store.stages.map Stage.key = s.store.stages.map Stage.key :=
    (recorded _ _).trans (congrArg _ read)
  rw [inKeyOrder_iff, keys, ← inKeyOrder_iff]
  exact order

/-- The part after a sample whose evaluation ends the stage. -/
def sampleEnded (l : LineId) (i : Nat) (m : Bool) (z : Stage) (cause : EndCause) (s : State) : State :=
  completeStage (some l) z.key cause (some (s.evaluates l i m z)) (sampleCounted l i m z s)

theorem line_sampleEnded (l : LineId) (i : Nat) (m : Bool) (z : Stage) (cause : EndCause) (s : State) (n : LineId) :
    (sampleEnded l i m z cause s).line n =
      if n = l then (s.readLine l i m .opened).counted z (s.evaluates l i m z) else s.line n :=
  ((completeStage_keeps _ _ _ _ _).line (by decide) (by decide) (by decide) n).trans (line_sampleCounted l i m z s n)

section
variable (ev : evaluating s l k z d) (fresh : (s.evaluates l i m z).stale = false)
include ev fresh

theorem stage_sampleCounted (j : StageKey) :
    (sampleCounted l i m z s).stage? j =
      if j = k then some (z.evaluatedBy (s.evaluates l i m z)) else s.stage? j := stage_recorded ev fresh j

theorem key_evaluatedBy : (z.evaluatedBy (s.evaluates l i m z)).key = k :=
  (key_addProgress _ z).trans (key_evaluating ev)

theorem found_sampleCounted :
    (sampleCounted l i m z s).stage? (z.evaluatedBy (s.evaluates l i m z)).key =
      some (z.evaluatedBy (s.evaluates l i m z)) := by
  rw [key_evaluatedBy ev fresh, stage_sampleCounted ev fresh, if_pos rfl]

variable (injecting : (s.line l).state = .injecting) (some' : 1 ≤ z.fields.tRef)
  (ended : endDecided z.fields (s.evaluates l i m z) d = some (cause, reason))
include injecting some' ended

theorem evaluatedSample_ended :
    evaluatedSample l i m s = settleStartCheck (closeLine reason l (sampleEnded l i m z cause s)) := by
  have values : ((sampleCounted l i m z s).line l).values = some (s.evaluates l i m z) := by
    rw [line_sampleCounted, if_pos rfl]; rfl
  rw [evaluatedSample, evaluate_sample_ended ev fresh injecting some' ended, sampleEnded, ← values]
  rfl

theorem line_sample_ended :
    (evaluatedSample l i m s).line l =
      ((s.readLine l i m .opened).counted z (s.evaluates l i m z)).closed reason s.settings.travelTime := by
  have settings : (sampleEnded l i m z cause s).settings = s.settings :=
    ((completeStage_keeps _ _ _ _ _).2 .settings (by decide) :).trans
      ((sampleCounted_keeps l i m z s).2 .settings (by decide) :)
  rw [evaluatedSample_ended ev fresh injecting some' ended, line_settleStartCheck, line_closeLine_self, line_sampleEnded,
    if_pos rfl, settings]

theorem stage_sample_ended_all (j : StageKey) :
    (evaluatedSample l i m s).stage? j = (sampleEnded l i m z cause s).stage? j := by
  rw [evaluatedSample_ended ev fresh injecting some' ended]
  exact ((settleStartCheck_keeps _).stage (by decide) j).trans (stage_closeLine _ _ _ _)

theorem stage_sample_ended :
    (evaluatedSample l i m s).stage? k =
      some ((z.evaluatedBy (s.evaluates l i m z)).endedBy .complete cause s.clock.site) := by
  have self := stage_completeStage_self (some l) (found_sampleCounted ev fresh) cause (some (s.evaluates l i m z))
  rw [key_evaluatedBy ev fresh, site_sampleCounted] at self
  rw [stage_sample_ended_all ev fresh injecting some' ended, sampleEnded, key_evaluating ev]
  exact self

end

/-! ### O45 -/

theorem evaluatedBy_progress (active : z.status = .active) (progress : z.progress = some g) (c : Computed) :
    z.evaluatedBy c = { z with progress := some (g.raisePe c.pe) } := addProgress_active _ active progress

theorem countOverpressure_progress (active : z.status = .active) (progress : z.progress = some g) (top : Nat) :
    z.countOverpressure top = { z with progress := some (g.countOverpressure top) } := addProgress_active _ active progress

theorem progress_pend (f : PendingDecision → PendingDecision) (z : Stage) : (z.pend f).progress = z.progress := by
  unfold Stage.pend
  split <;> rfl

/-- The progress of an ACTIVE stage whose evaluation counts an overpressure, or does not. -/
theorem progress_pressed (active : z.status = .active) (progress : z.progress = some g) (c : Computed) (top : Nat)
    (P : Prop) [Decidable P] :
    (if P then (z.evaluatedBy c).countOverpressure top else z.evaluatedBy c).progress =
      some (if P then (g.raisePe c.pe).countOverpressure top else g.raisePe c.pe) := by
  rw [evaluatedBy_progress active progress]
  split
  · rw [countOverpressure_progress (z := { z with progress := some (g.raisePe c.pe) }) active rfl]
  · rfl

/-- A progress with an evaluation's pressure, whatever overpressure it counts. -/
theorem raised_progress (g : Progress) (pe top : Nat) (P : Prop) [Decidable P] :
    (if P then (g.raisePe pe).countOverpressure top else g.raisePe pe).maxPe = max g.maxPe pe ∧
    (if P then (g.raisePe pe).countOverpressure top else g.raisePe pe).v = g.v ∧
    (if P then (g.raisePe pe).countOverpressure top else g.raisePe pe).injecting = g.injecting := by
  split <;> exact ⟨rfl, rfl, rfl⟩

/-- The progress of an ACTIVE stage after a fresh evaluation: its highest effective pressure raised. -/
theorem progress_sample (ev : evaluating s l k z d) (fresh : (s.evaluates l i m z).stale = false) (some' : 1 ≤ z.fields.tRef)
    (active : z.status = .active) (progress : z.progress = some g) :
    ∃ z' g', (evaluatedSample l i m s).stage? k = some z' ∧ z'.progress = some g' ∧
      g'.maxPe = max g.maxPe (s.evaluates l i m z).pe ∧ g'.v = g.v ∧ g'.injecting = g.injecting := by
  classical
  have raised := evaluatedBy_progress active progress (s.evaluates l i m z)
  rcases state_evaluating ev with armed | injecting | holding
  · refine ⟨_, g.raisePe (s.evaluates l i m z).pe, stage_sample_armed ev fresh armed, ?_, rfl, rfl, rfl⟩
    rw [raised]
  · cases decided : endDecided z.fields (s.evaluates l i m z) d with
    | some outcome =>
      obtain ⟨cause, reason⟩ := outcome
      refine ⟨_, g.raisePe (s.evaluates l i m z).pe, stage_sample_ended ev fresh injecting some' decided, ?_, rfl, rfl, rfl⟩
      rw [raised]
      rfl
    | none =>
      obtain ⟨z₁, hz, stage⟩ := stage_sample_going ev fresh injecting some' decided
      refine ⟨_, _, stage, ?_, raised_progress g _ s.counterTop
        (((s.readLine l i m .opened).counted z (s.evaluates l i m z)).overpressed (s.evaluates l i m z))⟩
      rw [← progress_pressed active progress, ← hz]
      split
      · exact progress_pend _ _
      · rfl
  · exact ⟨_, _, stage_sample_holding ev fresh holding, progress_pressed active progress _ _ _,
      raised_progress g _ s.counterTop _⟩

theorem ring_standing (fresh : (s.evaluates l i m z).stale = false)
    (standing : Line.Standing (s.evaluates l i m z) (s.readLine l i m .opened) y) :
    y.ring = pushRing ((s.evaluates l i m z).pe, (s.evaluates l i m z).q)
      (if (s.line l).pressure.validity = .regain2 ∨ (s.line l).flow.validity = .regain2 then [] else (s.line l).ring) := by
  rw [standing.ring, fresh, ring_of_fresh fresh]
  rfl

end

/-- Settles O45: the values of the evaluation on the line, its ring, and the stage's highest effective pressure. -/
theorem evaluationFormsTheEnvelope : Obligations.EvaluationFormsTheEnvelope := by
  intro s l i m k z d ev some'
  refine ⟨evaluatedSample l i m s, ?_⟩
  dsimp only
  rw [envelope_evaluatedSample]
  refine ⟨exec_evaluating ev i m, fun stands => ?_, fun fresh active g progress => progress_sample ev fresh some' active progress⟩
  have standing := standing_sample ev some' stands
  refine ⟨?_, standing.values, ?_, ?_, fun stale => ⟨?_, ?_⟩, fun fresh => ring_standing fresh standing⟩
  · rw [standing.evaluated, readLine_state, sampledLine_evaluated, evaluating_evaluated ev]
  · obtain ⟨-, -, -, -, bound, -⟩ := ev
    rw [standing.stage, readLine_stage, bound]
  · rw [standing.grant, readLine_grant]
  · rw [standing.ring, stale]; rfl
  · obtain ⟨-, -, -, -, -, found, -⟩ := id ev
    rw [stage_sample_stale ev stale, found]

end Sys2Proof.Machine
end

section
/-! PROOFS. An evaluation that ends its stage (R13, R104 to R110, R161). -/

namespace Sys2Proof.Machine

section
variable {s t u : State} {l n : LineId} {k : StageKey} {z w : Stage} {x y : Line} {c : Computed} {d : DecisionRecord}
  {i : Nat} {m : Bool} {g : Progress} {cause : EndCause} {reason : EndReason} {j : StageKey}

/-! ### The summary of a stage ended by an evaluation (R161) -/

theorem evaluates_volume (s : State) (l : LineId) (i : Nat) (m : Bool) (z : Stage) :
    (s.evaluates l i m z).vUsed = (z.progress.map Progress.v).getD 0 ∧
    (s.evaluates l i m z).v = (z.progress.map Progress.v).getD 0 / z.length := by
  rw [evaluates_eq]
  exact ⟨rfl, rfl⟩

theorem volume_evaluatedBy (c : Computed) (z : Stage) :
    ((z.evaluatedBy c).progress.map Progress.v).getD 0 = (z.progress.map Progress.v).getD 0 := by
  unfold Stage.evaluatedBy Stage.addProgress
  split
  · cases z.progress <;> rfl
  · rfl

theorem length_addProgress (f : Progress → Progress) (z : Stage) : (z.addProgress f).length = z.length := by
  unfold Stage.addProgress
  split <;> rfl

theorem fields_addProgress (f : Progress → Progress) (z : Stage) : (z.addProgress f).fields = z.fields := by
  unfold Stage.addProgress
  split <;> rfl

theorem summaryOf_facts (x : Stage) (cause : EndCause) (n : Nat) (c : Computed) :
    (summaryOf x cause n (some c)).key = x.key ∧ (summaryOf x cause n (some c)).endCause = cause ∧
    (summaryOf x cause n (some c)).endTime = n ∧ (summaryOf x cause n (some c)).finalCe = c.ce ∧
    (summaryOf x cause n (some c)).finalJ = c.j ∧
    (summaryOf x cause n (some c)).volume = (x.progress.map Progress.v).getD 0 ∧
    (summaryOf x cause n (some c)).v = (x.progress.map Progress.v).getD 0 / x.length := by
  unfold summaryOf
  cases x.progress with
  | none => exact ⟨rfl, rfl, rfl, rfl, rfl, rfl, (Nat.zero_div _).symm⟩
  | some g => exact ⟨rfl, rfl, rfl, rfl, rfl, rfl, rfl⟩

section
variable (ev : evaluating s l k z d) (fresh : (s.evaluates l i m z).stale = false)
  (injecting : (s.line l).state = .injecting) (some' : 1 ≤ z.fields.tRef)
  (ended : endDecided z.fields (s.evaluates l i m z) d = some (cause, reason)) (order : inKeyOrder s.store.stages)
include ev fresh

theorem frees_sampleCounted (other : j ≠ k) (found : s.stage? j = some w) :
    frees (sampleCounted l i m z s) k .complete j w ↔
      w.status = .blocked ∧ k ∈ w.fields.prereqs ∧
        ∀ q ∈ w.fields.prereqs, q = k ∨ ∃ v, s.stage? q = some v ∧ v.status = .complete := by
  have complete (q : StageKey) :
      (q = k ∨ ∃ v, (sampleCounted l i m z s).stage? q = some v ∧ v.status = .complete) ↔
        (q = k ∨ ∃ v, s.stage? q = some v ∧ v.status = .complete) := by
    by_cases same : q = k
    · simp [same]
    · rw [stage_sampleCounted ev fresh, if_neg same]
  have here : (sampleCounted l i m z s).stage? j = some w := by
    rw [stage_sampleCounted ev fresh, if_neg other]; exact found
  unfold frees
  simp only [complete, here, other, ne_eq, not_false_eq_true, true_and]

include injecting some' ended

theorem mixOrder_sample_ended :
    (evaluatedSample l i m s).grout.mixOrder = lowestClass (evaluatedSample l i m s).orderInputs := by
  rw [evaluatedSample_ended ev fresh injecting some' ended]
  exact mixOrder_settled (mixOrder_formMixOrder _)

theorem others_sample_ended : sameOtherLines l s (evaluatedSample l i m s) := by
  intro n other
  rw [evaluatedSample_ended ev fresh injecting some' ended, line_settleStartCheck, line_closeLine, if_neg other,
    line_sampleEnded, if_neg other]

theorem completions_sample_ended :
    (evaluatedSample l i m s).record.completions = (sampleEnded l i m z cause s).record.completions := by
  rw [evaluatedSample_ended ev fresh injecting some' ended]
  exact ((settleStartCheck_keeps _).2 .completions (by decide) :).trans
      ((closeLine_keeps _ _ _).2 .completions (by decide) :)

include order

theorem table_sample_ended :
    EndedTable (sampleCounted l i m z s) (z.evaluatedBy (s.evaluates l i m z)) .complete cause
      (some (s.evaluates l i m z)) (sampleEnded l i m z cause s) := by
  have table := completeStage_table (cause := cause) (values := some (s.evaluates l i m z)) (some l)
    (found_sampleCounted ev fresh) (inKeyOrder_sampleCounted order)
  rw [key_evaluatedBy ev fresh] at table
  rw [sampleEnded, key_evaluating ev]
  exact table

/-- The summary of the stage, and the stages that its end frees. -/
theorem sample_ended_rest :
    (∃ u, (evaluatedSample l i m s).record.completions = s.record.completions.filter (fun n => n.key ≠ k) ++ [u] ∧
      u.key = k ∧ u.endCause = cause ∧ u.endTime = s.clock.site ∧ u.finalCe = (s.evaluates l i m z).ce ∧
      u.finalJ = (s.evaluates l i m z).j ∧ u.volume = (s.evaluates l i m z).vUsed ∧ u.v = (s.evaluates l i m z).v) ∧
    ∀ j w, j ≠ k → s.stage? j = some w →
      let freed : Prop := w.status = .blocked ∧ k ∈ w.fields.prereqs ∧
        ∀ q ∈ w.fields.prereqs, q = k ∨ ∃ v, s.stage? q = some v ∧ v.status = .complete
      (freed → (evaluatedSample l i m s).stage? j = some { w with status := .ready }) ∧
      (¬ freed → (evaluatedSample l i m s).stage? j = some w) := by
  obtain ⟨-, freed, others, completions⟩ := table_sample_ended ev fresh injecting some' ended order
  rw [key_evaluatedBy ev fresh] at freed others completions
  have before : (sampleCounted l i m z s).record.completions = s.record.completions :=
    (sampleCounted_keeps l i m z s).2 .completions (by decide)
  rw [site_sampleCounted, before, ← completions_sample_ended ev fresh injecting some' ended] at completions
  obtain ⟨key, endCause, endTime, ce, j, volume, v⟩ :=
    summaryOf_facts (z.evaluatedBy (s.evaluates l i m z)) cause s.clock.site (s.evaluates l i m z)
  obtain ⟨used, perMetre⟩ := evaluates_volume s l i m z
  refine ⟨⟨_, completions, key.trans (key_evaluatedBy ev fresh), endCause, endTime, ce, j, ?_, ?_⟩,
    fun j w other found => ⟨fun frees => ?_, fun still => ?_⟩⟩
  · rw [volume, volume_evaluatedBy, used]
  · rw [v, volume_evaluatedBy, perMetre]
    exact congrArg _ (length_addProgress _ _)
  · rw [stage_sample_ended_all ev fresh injecting some' ended]
    exact freed j w ((frees_sampleCounted ev fresh other found).mpr frees)
  · rw [stage_sample_ended_all ev fresh injecting some' ended]
    refine others j w other ?_ ((frees_sampleCounted ev fresh other found).not.mpr still)
    rw [stage_sampleCounted ev fresh, if_neg other]
    exact found

end

end

/-- Settles O46: the stage COMPLETE with its summary, its line CLOSING under an ENDING grant. -/
theorem endConditionEndsTheStage : Obligations.EndConditionEndsTheStage := by
  intro s l i m k z d ev some' injecting order
  refine ⟨evaluatedSample l i m s, ?_⟩
  dsimp only
  rw [envelope_evaluatedSample]
  refine ⟨exec_evaluating ev i m, fun cause reason fresh ended => ?_⟩
  have line := line_sample_ended ev fresh injecting some' ended
  obtain ⟨summary, frees⟩ := sample_ended_rest ev fresh injecting some' ended order
  refine ⟨?_, ?_, ?_, ?_, ?_, ?_, ?_, ?_, ?_, ?_, ?_, ⟨_, stage_sample_ended ev fresh injecting some' ended,
    fields_addProgress _ _, rfl, rfl, rfl, rfl, rfl⟩, summary, frees,
    mixOrder_sample_ended ev fresh injecting some' ended, others_sample_ended ev fresh injecting some' ended⟩
  · rw [line]; rfl
  · rw [line]; rfl
  · rw [line]; rfl
  · rw [line]; rfl
  · rw [line]; rfl
  · rw [line]; rfl
  · rw [line]; rfl
  · rw [line]; rfl
  · obtain ⟨-, -, -, -, bound, -⟩ := ev
    exact (congrArg Line.stage line).trans ((readLine_stage s l i m .opened).trans bound)
  · exact (congrArg Line.classes line).trans (readLine_classes s l i m .opened)
  · rw [line, ← readLine_grant s l i m .opened]; rfl

end Sys2Proof.Machine
end

section
/-! PROOFS. The counts and hazards of a fresh evaluation (R107 to R114). -/

namespace Sys2Proof.Machine

section
variable {s t u : State} {l n : LineId} {k : StageKey} {z w : Stage} {x y : Line} {c : Computed} {d : DecisionRecord}
  {i : Nat} {m : Bool} {g : Progress} {q : HoldCause}

/-! ### The overpressure counts of a line (R111, R112) -/

section
variable (decision : x.decision = some d)
include decision

theorem pressed_raises (absent : .overpressure ∉ x.causes) (high : c.overpressureLimit < c.pe) (again : 1 ≤ d.raise) :
    x.pressed c = ({ x with decision := some { d with raise := 0, clear := 0 } } : Line).held .overpressure := by
  have enough : 2 ≤ (if c.overpressureLimit < c.pe then d.raise + 1 else 0) := by rw [if_pos high]; omega
  unfold Line.pressed
  rw [decision]
  dsimp only
  rw [if_neg (by simpa using absent), if_pos enough]

theorem pressed_counts (absent : .overpressure ∉ x.causes) (low : c.pe ≤ c.overpressureLimit ∨ d.raise = 0) :
    x.pressed c =
      { x with decision := some { d with raise := if c.overpressureLimit < c.pe then d.raise + 1 else 0 } } := by
  have few : ¬ 2 ≤ (if c.overpressureLimit < c.pe then d.raise + 1 else 0) := by
    split <;> omega
  unfold Line.pressed
  rw [decision]
  dsimp only
  rw [if_neg (by simpa using absent), if_neg few]

theorem pressed_clears (present : .overpressure ∈ x.causes) (low : c.pe ≤ c.ce) (again : 3 ≤ d.clear) :
    x.pressed c = ({ x with decision := some { d with clear := 0 } } : Line).freed .overpressure := by
  have enough : 4 ≤ (if c.pe ≤ c.ce then d.clear + 1 else 0) := by rw [if_pos low]; omega
  unfold Line.pressed
  rw [decision]
  dsimp only
  rw [if_pos (by simpa using present), if_pos enough]

theorem pressed_waits (present : .overpressure ∈ x.causes) (high : c.ce < c.pe ∨ d.clear < 3) :
    x.pressed c = { x with decision := some { d with clear := if c.pe ≤ c.ce then d.clear + 1 else 0 } } := by
  have few : ¬ 4 ≤ (if c.pe ≤ c.ce then d.clear + 1 else 0) := by
    split <;> omega
  unfold Line.pressed
  rw [decision]
  dsimp only
  rw [if_pos (by simpa using present), if_neg few]

theorem overpressed_iff (absent : .overpressure ∉ x.causes) :
    x.overpressed c ↔ c.overpressureLimit < c.pe ∧ 1 ≤ d.raise := by
  unfold Line.overpressed
  simp [decision, absent]

end

theorem held_of_injecting (still : (x.held q).state = .injecting) : x.held q = x := by
  unfold Line.held at still ⊢
  split at still
  · rw [if_pos ‹_›]
  · rw [if_neg ‹_›]
    split at still
    all_goals simp_all

theorem held_into (injecting : x.state = .injecting) (absent : q ∉ x.causes) :
    x.held q = { x with causes := withCause q x.causes, state := .holding, holdTimer := some 0,
                        decision := x.decision.map (fun d => { d with refusal := 0, intensity := 0 }) } := by
  unfold Line.held
  rw [if_neg (by simpa using absent), injecting]

theorem held_adds (holding : x.state = .holding) (q : HoldCause) :
    (x.held q).state = .holding ∧ (x.held q).holdTimer = x.holdTimer ∧ (x.held q).decision = x.decision := by
  unfold Line.held
  split
  · exact ⟨holding, rfl, rfl⟩
  · rw [holding]
    exact ⟨rfl, rfl, rfl⟩

theorem decision_held (q : HoldCause) (decision : x.decision = some d) :
    ∃ d', (x.held q).decision = some d' ∧ d'.raise = d.raise ∧ d'.clear = d.clear := by
  unfold Line.held
  split
  · exact ⟨d, decision, rfl, rfl⟩
  · split
    case h_3 => exact ⟨{ d with refusal := 0, intensity := 0 }, by rw [decision]; rfl, rfl, rfl⟩
    all_goals exact ⟨d, decision, rfl, rfl⟩

theorem pressed_injecting (decision : x.decision = some d) (still : (x.pressed c).state = .injecting) :
    ∃ d', (x.pressed c).decision = some d' ∧ d'.intensity = d.intensity ∧ d'.refusal = d.refusal := by
  by_cases present : .overpressure ∈ x.causes
  · by_cases clears : c.pe ≤ c.ce ∧ 3 ≤ d.clear
    · rw [pressed_clears decision present clears.1 clears.2, freed_decision]
      exact ⟨_, rfl, rfl, rfl⟩
    · rw [pressed_waits decision present (by omega)]
      exact ⟨_, rfl, rfl, rfl⟩
  · by_cases raises : c.overpressureLimit < c.pe ∧ 1 ≤ d.raise
    · rw [pressed_raises decision present raises.1 raises.2] at still ⊢
      rw [held_of_injecting still]
      exact ⟨_, rfl, rfl, rfl⟩
    · rw [pressed_counts decision present (by omega)]
      exact ⟨_, rfl, rfl, rfl⟩

/-! ### The hazards taken up by a line found in INJECTING -/

theorem hazarded_cases (z : Stage) (c : Computed) (x : Line) :
    x.hazarded z c = (x.counted z c).pressed c ∨ x.hazarded z c = ((x.counted z c).pressed c).held .fracture := by
  unfold Line.hazarded
  split
  · exact .inr rfl
  · exact .inl rfl

theorem hazarded_injecting (still : (x.hazarded z c).state = .injecting) :
    x.hazarded z c = (x.counted z c).pressed c := by
  rcases hazarded_cases z c x with same | held
  · exact same
  · rw [held] at still ⊢
    exact held_of_injecting still

theorem decision_counted_line (decision : x.decision = some d) :
    (x.counted z c).decision = some (d.countEnds z.fields c) := by
  rw [Line.counted, decision]
  rfl

theorem mem_causes_held (evaluated : x.state.evaluated = true) (q q' : HoldCause) :
    q' ∈ (x.held q).causes ↔ q' = q ∨ q' ∈ x.causes :=
  causes_held ((evaluated_iff _).mp evaluated) q'

theorem holding_of_held (evaluated : x.state.evaluated = true) (armed : x.state ≠ .armed) (absent : q ∉ x.causes) :
    (x.held q).state = .holding := by
  have state : x.state = .injecting ∨ x.state = .holding := by
    cases h : x.state <;> simp_all [LineState.evaluated]
  rcases state with injecting | holding
  · rw [held_into injecting absent]
  · exact (held_adds holding q).1

end

end Sys2Proof.Machine
end

section
/-! PROOFS. Overpressure and the counts towards an end (R107 to R112). -/

namespace Sys2Proof.Machine

section
variable {s t u : State} {l n : LineId} {k : StageKey} {z w : Stage} {x y : Line} {c : Computed} {d : DecisionRecord}
  {i : Nat} {m : Bool} {g : Progress} {q : HoldCause}

/-! ### SENSOR and the other causes (R40) -/

theorem mem_causes_held_other (other : q ≠ .sensor) (x : Line) : q ∈ (x.held .sensor).causes ↔ q ∈ x.causes := by
  cases evaluated : x.state.evaluated
  · rw [held_of_unevaluated evaluated]
  · rw [mem_causes_held evaluated]
    simp [other]

theorem mem_causes_freed_other {q' : HoldCause} (other : q ≠ q') (x : Line) :
    q ∈ (x.freed q').causes ↔ q ∈ x.causes := by
  unfold Line.freed
  split <;> simp [withoutCause, other]

theorem mem_causes_affected_other (other : q ≠ .sensor) (r : Sampled) (x : Line) :
    q ∈ (x.affected r).causes ↔ q ∈ x.causes := by
  have lossed : q ∈ (x.lossed r).causes ↔ q ∈ x.causes := by
    unfold Line.lossed
    split
    · exact mem_causes_held_other other x
    · rfl
  unfold Line.affected
  split
  · rw [mem_causes_freed_other other, lossed]
  · exact lossed

theorem mem_causes_readLine (other : q ≠ .sensor) (s : State) (l : LineId) (i : Nat) (m : Bool) (rb : Readback) :
    q ∈ (s.readLine l i m rb).causes ↔ q ∈ (s.line l).causes :=
  (mem_causes_affected_other other _ _).trans (mem_causes_affected_other other _ _)

theorem decision_affected (decision : x.decision = some d) (r : Sampled) : ∃ d', (x.affected r).decision = some d' := by
  have lossed : ∃ d', (x.lossed r).decision = some d' := by
    unfold Line.lossed
    split
    · obtain ⟨d', same, -⟩ := decision_held .sensor decision
      exact ⟨d', same⟩
    · exact ⟨d, decision⟩
  unfold Line.affected
  split
  · rw [freed_decision]; exact lossed
  · exact lossed

theorem decision_readLine (decision : (s.line l).decision = some d) (i : Nat) (m : Bool) (rb : Readback) :
    ∃ d', (s.readLine l i m rb).decision = some d' := by
  obtain ⟨d', first⟩ := decision_affected (x := (s.sampling l i m).1) decision (s.sampling l i m).2.1
  exact decision_affected first _

/-! ### The raising and the clearing of OVERPRESSURE (R111, R112) -/

/-- What the raising of OVERPRESSURE leaves of a line found in the state `st`. -/
def Line.Raised (st : LineState) (y : Line) : Prop :=
  y.state = .holding ∧ .overpressure ∈ y.causes ∧ (st = .injecting → y.holdTimer = some 0) ∧
  ∃ d', y.decision = some d' ∧ d'.raise = 0 ∧ d'.clear = 0

/-- What a count towards OVERPRESSURE leaves of it. -/
def Line.Counting (n : Nat) (y : Line) : Prop :=
  .overpressure ∉ y.causes ∧ ∃ d', y.decision = some d' ∧ d'.raise = n

theorem raised_pressed (decision : x.decision = some d) (evaluated : x.state.evaluated = true) (armed : x.state ≠ .armed)
    (absent : .overpressure ∉ x.causes) (high : c.overpressureLimit < c.pe) (again : 1 ≤ d.raise) :
    (x.pressed c).Raised x.state := by
  rw [pressed_raises decision absent high again]
  obtain ⟨d', changed, raise, clear⟩ := decision_held (x := { x with decision := some { d with raise := 0, clear := 0 } })
    .overpressure rfl
  refine ⟨holding_of_held (by exact evaluated) (by exact armed) (by exact absent),
    (mem_causes_held (by exact evaluated) _ _).mpr (.inl rfl), fun injecting => ?_, d', changed, raise, clear⟩
  rw [held_into (by exact injecting) (by exact absent)]

theorem raised_fracture {st : LineState} (raised : y.Raised st) : (y.held .fracture).Raised st := by
  obtain ⟨holding, cause, timer, d', decision, counts⟩ := raised
  obtain ⟨state, timer', decision'⟩ := held_adds holding .fracture
  have evaluated : y.state.evaluated = true := by rw [holding]; rfl
  exact ⟨state, (mem_causes_held evaluated _ _).mpr (.inr cause), fun h => timer'.trans (timer h), d',
    decision'.trans decision, counts⟩

theorem counting_pressed (decision : x.decision = some d) (absent : .overpressure ∉ x.causes)
    (low : c.pe ≤ c.overpressureLimit ∨ d.raise = 0) :
    (x.pressed c).Counting (if c.overpressureLimit < c.pe then d.raise + 1 else 0) := by
  rw [pressed_counts decision absent low]
  exact ⟨absent, _, rfl, rfl⟩

theorem counting_fracture {n : Nat} (counting : y.Counting n) : (y.held .fracture).Counting n := by
  obtain ⟨absent, d', decision, raise⟩ := counting
  obtain ⟨d'', decision', raise', -⟩ := decision_held .fracture decision
  refine ⟨?_, d'', decision', raise'.trans raise⟩
  cases evaluated : y.state.evaluated
  · rw [held_of_unevaluated evaluated]; exact absent
  · rw [mem_causes_held evaluated]
    simp [absent]

theorem raised_congr {st : LineState} (h : y.mixless = x.mixless) (raised : x.Raised st) : y.Raised st := by
  have state : y.state = x.state := (congrArg Line.state h :)
  have causes : y.causes = x.causes := (congrArg Line.causes h :)
  have timer : y.holdTimer = x.holdTimer := (congrArg Line.holdTimer h :)
  have decision : y.decision = x.decision := (congrArg Line.decision h :)
  unfold Line.Raised
  rw [state, causes, timer, decision]
  exact raised

theorem counting_congr {n : Nat} (h : y.mixless = x.mixless) (counting : x.Counting n) : y.Counting n := by
  have causes : y.causes = x.causes := (congrArg Line.causes h :)
  have decision : y.decision = x.decision := (congrArg Line.decision h :)
  unfold Line.Counting
  rw [causes, decision]
  exact counting

section
variable (ev : evaluating s l k z d) (fresh : (s.evaluates l i m z).stale = false) (some' : 1 ≤ z.fields.tRef)
include ev fresh

theorem decision_of_fresh : (s.readLine l i m .opened).decision = some d := by
  rw [readLine_decision_of_fresh fresh]
  obtain ⟨-, -, -, -, -, -, decision⟩ := ev
  exact decision

theorem state_of_fresh : (s.readLine l i m .opened).state = (s.line l).state := sampledLine_state_of_fresh fresh

include some'

/-- The line after a fresh evaluation in INJECTING that ends nothing, but for its thickening. -/
theorem mixless_sample_going (injecting : (s.line l).state = .injecting)
    (going : endDecided z.fields (s.evaluates l i m z) d = none) :
    ((evaluatedSample l i m s).line l).mixless =
      ((s.readLine l i m .opened).hazarded z (s.evaluates l i m z)).mixless := by
  rw [line_sample_going ev fresh injecting some' going]
  exact mixless_gone _ _ _

theorem sample_raises (state : (s.line l).state ∈ [LineState.injecting, .holding])
    (going : (s.line l).state = .injecting → endDecided z.fields (s.evaluates l i m z) d = none)
    (absent : .overpressure ∉ (s.line l).causes)
    (high : (s.evaluates l i m z).overpressureLimit < (s.evaluates l i m z).pe) (again : 1 ≤ d.raise) :
    ((evaluatedSample l i m s).line l).Raised (s.line l).state := by
  have absent' : .overpressure ∉ (s.readLine l i m .opened).causes :=
      (mem_causes_readLine (by decide) ..).not.mpr absent
  have decision := decision_of_fresh ev fresh
  have same := state_of_fresh ev fresh
  simp only [List.mem_cons, List.not_mem_nil, or_false] at state
  rcases state with injecting | holding
  · have pressed : (((s.readLine l i m .opened).counted z (s.evaluates l i m z)).pressed (s.evaluates l i m z)).Raised
        (s.line l).state := by
      rw [← same]
      exact raised_pressed (x := (s.readLine l i m .opened).counted z (s.evaluates l i m z))
        (decision_counted_line decision) (by rw [Line.counted]; exact (congrArg _ (same.trans injecting)).trans rfl)
        (by rw [Line.counted]; exact fun h => nomatch (same.trans injecting).symm.trans h) absent' high again
    refine raised_congr (mixless_sample_going ev fresh some' injecting (going injecting)) ?_
    rcases hazarded_cases z (s.evaluates l i m z) (s.readLine l i m .opened) with h | h <;> rw [h]
    · exact pressed
    · exact raised_fracture pressed
  · rw [line_sample_holding ev fresh holding, ← same]
    exact raised_pressed (x := (s.readLine l i m .opened).valued (s.evaluates l i m z)) decision
      ((congrArg _ (same.trans holding)).trans rfl) (fun h => nomatch (same.trans holding).symm.trans h) absent' high again

theorem sample_counts (state : (s.line l).state ∈ [LineState.injecting, .holding])
    (going : (s.line l).state = .injecting → endDecided z.fields (s.evaluates l i m z) d = none)
    (absent : .overpressure ∉ (s.line l).causes)
    (low : (s.evaluates l i m z).pe ≤ (s.evaluates l i m z).overpressureLimit ∨ d.raise = 0) :
    ((evaluatedSample l i m s).line l).Counting
      (if (s.evaluates l i m z).overpressureLimit < (s.evaluates l i m z).pe then d.raise + 1 else 0) := by
  have absent' : .overpressure ∉ (s.readLine l i m .opened).causes :=
      (mem_causes_readLine (by decide) ..).not.mpr absent
  have decision := decision_of_fresh ev fresh
  simp only [List.mem_cons, List.not_mem_nil, or_false] at state
  rcases state with injecting | holding
  · have pressed : (((s.readLine l i m .opened).counted z (s.evaluates l i m z)).pressed (s.evaluates l i m z)).Counting
        (if (s.evaluates l i m z).overpressureLimit < (s.evaluates l i m z).pe then d.raise + 1 else 0) :=
      (counting_pressed (x := (s.readLine l i m .opened).counted z (s.evaluates l i m z))
        (d := d.countEnds z.fields (s.evaluates l i m z)) (decision_counted_line decision) absent' low :)
    refine counting_congr (mixless_sample_going ev fresh some' injecting (going injecting)) ?_
    rcases hazarded_cases z (s.evaluates l i m z) (s.readLine l i m .opened) with h | h <;> rw [h]
    · exact pressed
    · exact counting_fracture pressed
  · rw [line_sample_holding ev fresh holding]
    exact counting_pressed (x := (s.readLine l i m .opened).valued (s.evaluates l i m z)) decision absent' low

/-- The overpressure that a sample raises is counted in its stage (R111). -/
theorem progress_sample_raises (state : (s.line l).state ∈ [LineState.injecting, .holding])
    (going : (s.line l).state = .injecting → endDecided z.fields (s.evaluates l i m z) d = none)
    (absent : .overpressure ∉ (s.line l).causes)
    (high : (s.evaluates l i m z).overpressureLimit < (s.evaluates l i m z).pe) (again : 1 ≤ d.raise)
    (active : z.status = .active) (progress : z.progress = some g) :
    ∃ z' g', (evaluatedSample l i m s).stage? k = some z' ∧ z'.progress = some g' ∧
      g'.overpressure = satSucc s.counterTop g.overpressure := by
  classical
  have absent' : .overpressure ∉ (s.readLine l i m .opened).causes :=
      (mem_causes_readLine (by decide) ..).not.mpr absent
  have decision := decision_of_fresh ev fresh
  simp only [List.mem_cons, List.not_mem_nil, or_false] at state
  rcases state with injecting | holding
  · have raises : ((s.readLine l i m .opened).counted z (s.evaluates l i m z)).overpressed (s.evaluates l i m z) :=
      (overpressed_iff (decision_counted_line decision) absent').mpr ⟨high, again⟩
    obtain ⟨z₁, hz, stage⟩ := stage_sample_going ev fresh injecting some' (going injecting)
    refine ⟨_, (g.raisePe (s.evaluates l i m z).pe).countOverpressure s.counterTop, stage, ?_, rfl⟩
    have counted : z₁.progress = some ((g.raisePe (s.evaluates l i m z).pe).countOverpressure s.counterTop) := by
      rw [hz, progress_pressed active progress, if_pos raises]
    rw [← counted]
    split
    · exact progress_pend _ _
    · rfl
  · have raises : ((s.readLine l i m .opened).valued (s.evaluates l i m z)).overpressed (s.evaluates l i m z) :=
      (overpressed_iff decision absent').mpr ⟨high, again⟩
    refine ⟨_, (g.raisePe (s.evaluates l i m z).pe).countOverpressure s.counterTop,
      stage_sample_holding ev fresh holding, ?_, rfl⟩
    rw [progress_pressed active progress, if_pos raises]

end

end

/-- Settles O47: the counts towards the ends and OVERPRESSURE, raised and cleared. -/
theorem evaluationCountsTowardsEndsAndOverpressure : Obligations.EvaluationCountsTowardsEndsAndOverpressure := by
  intro s l i m k z d ev some'
  refine ⟨evaluatedSample l i m s, ?_⟩
  dsimp only
  rw [envelope_evaluatedSample]
  refine ⟨exec_evaluating ev i m, fun stale => ⟨?_, ?_, ?_⟩, fun fresh armed => ⟨?_, ?_⟩,
    fun fresh injecting going still => ?_, fun fresh state going absent => ⟨fun high again => ?_, fun low => ?_⟩,
    fun fresh holding present => ⟨?_, fun low again => ?_, fun high => ?_⟩⟩
  · obtain ⟨-, -, -, -, -, -, decision⟩ := id ev
    obtain ⟨d', found⟩ := decision_readLine decision i m .opened
    rw [line_sample_stale ev stale, Line.staled, found]
    rfl
  · rw [line_sample_stale ev stale]
    exact mem_causes_readLine (by decide) s l i m .opened
  · rw [line_sample_stale ev stale]
    exact mem_causes_readLine (by decide) s l i m .opened
  · rw [line_sample_armed ev fresh armed]
    exact decision_of_fresh ev fresh
  · rw [line_sample_armed ev fresh armed]
    exact (state_of_fresh ev fresh).trans armed
  · have mixless := mixless_sample_going ev fresh some' injecting going
    have state : ((s.readLine l i m .opened).hazarded z (s.evaluates l i m z)).state = .injecting :=
      (congrArg Line.state mixless :).symm.trans still
    have pressed := hazarded_injecting state
    rw [pressed] at state
    obtain ⟨d', decision, intensity, refusal⟩ :=
      pressed_injecting (decision_counted_line (z := z) (c := s.evaluates l i m z) (decision_of_fresh ev fresh)) state
    rw [countEnds_of_going _ _ _ going] at intensity refusal
    exact ⟨d', (congrArg Line.decision mixless).trans ((congrArg Line.decision pressed).trans decision), intensity, refusal⟩
  · obtain ⟨holding, cause, timer, counts⟩ := sample_raises ev fresh some' state going absent high again
    exact ⟨holding, cause, timer, counts, fun g active progress =>
      progress_sample_raises ev fresh some' state going absent high again active progress⟩
  · exact sample_counts ev fresh some' state going absent low
  · rw [line_sample_holding ev fresh holding]
    exact pressed_holding (x := (s.readLine l i m .opened).valued (s.evaluates l i m z))
      ((state_of_fresh ev fresh).trans holding) _
  · have present' : .overpressure ∈ (s.readLine l i m .opened).causes :=
        (mem_causes_readLine (by decide) ..).mpr present
    have state : (s.readLine l i m .opened).state = .holding := (state_of_fresh ev fresh).trans holding
    rw [line_sample_holding ev fresh holding, pressed_clears (x := (s.readLine l i m .opened).valued (s.evaluates l i m z))
      (decision_of_fresh ev fresh) present' low again, freed_decision]
    refine ⟨?_, _, rfl, rfl⟩
    unfold Line.freed Line.valued
    simp [state, withoutCause]
  · have present' : .overpressure ∈ (s.readLine l i m .opened).causes :=
        (mem_causes_readLine (by decide) ..).mpr present
    rw [line_sample_holding ev fresh holding, pressed_waits (x := (s.readLine l i m .opened).valued (s.evaluates l i m z))
      (decision_of_fresh ev fresh) present' high]
    exact ⟨present', _, rfl, rfl⟩

end Sys2Proof.Machine
end

section
/-! PROOFS. Fracture (R113, R114). -/

namespace Sys2Proof.Machine

section
variable {s t u : State} {l n : LineId} {k : StageKey} {z w : Stage} {x y : Line} {c : Computed} {d : DecisionRecord}
  {i : Nat} {m : Bool} {g : Progress} {q : HoldCause}

/-! ### The ring of five (R81, R113) -/

theorem pushRing_eq (e : Nat × Nat) (ring : List (Nat × Nat)) :
    pushRing e ring = (ring ++ [e]).drop (ring.length + 1 - 5) := by
  rw [pushRing, lastN, List.length_append, List.length_singleton]

theorem getLast_pushRing (e : Nat × Nat) (ring : List (Nat × Nat)) : (pushRing e ring).getLast? = some e := by
  have short : ring.length + 1 - 5 ≤ ring.length := by omega
  rw [pushRing_eq, List.drop_append_of_le_length short, List.getLast?_append]
  rfl

/-- The four tests of a suspected fracture, as R113 states them. -/
theorem fractureSuspected_iff (f : StageFields) (ce : Nat) (old new : Nat × Nat) :
    fractureSuspected f ce old new = true ↔
      ce * 20 / 100 ≤ old.1 ∧ new.1 + old.1 * f.fractureDrop / 100 ≤ old.1 ∧
      old.2 + old.2 * f.fractureRise / 100 ≤ new.2 ∧ old.2 + 10 ≤ new.2 := by
  unfold fractureSuspected
  generalize old.1 * f.fractureDrop / 100 = drop
  generalize old.2 * f.fractureRise / 100 = rise
  generalize ce * 20 / 100 = floor
  simp only [Bool.and_eq_true, decide_eq_true_eq]
  omega

theorem suspects_iff {f : StageFields} {c : Computed} {ring : List (Nat × Nat)} {new : Nat × Nat}
    (last : ring.getLast? = some new) :
    suspects f c ring = true ↔ ring.length = 5 ∧ ∃ old, ring[0]? = some old ∧ c.ce * 20 / 100 ≤ old.1 ∧
      new.1 + old.1 * f.fractureDrop / 100 ≤ old.1 ∧ old.2 + old.2 * f.fractureRise / 100 ≤ new.2 ∧
      old.2 + 10 ≤ new.2 := by
  unfold suspects
  split
  case h_1 old a b e new' =>
    obtain rfl : new' = new := by simpa using last
    simp [fractureSuspected_iff]
  case h_2 short =>
    refine iff_of_false (by decide) fun ⟨five, _⟩ => ?_
    match ring, five with
    | [old, a, b, e, new], _ => exact short _ _ _ _ _ rfl

section
variable (ev : evaluating s l k z d) (fresh : (s.evaluates l i m z).stale = false)
  (injecting : (s.line l).state = .injecting)
include ev fresh injecting

/-- A fresh evaluation finds a line INJECTING with the causes it had. -/
theorem causes_of_injecting : (s.readLine l i m .opened).causes = (s.line l).causes := by
  have same : (s.sampledLine l i m).causes = (s.line l).causes := by
    have state : (s.sampling l i m).1.state = .injecting := (sampling_state s l i m).trans injecting
    rcases sampledLine_of_fresh fresh with h | h <;> rw [h]
    · rfl
    · unfold Line.freed
      rw [state]
      rfl
  exact same

end

/-! ### A suspected fracture (R114) -/

/-- What an evaluation leaves of a line found INJECTING without causes, up to the fracture check. -/
theorem pressed_clean (decision : x.decision = some d) (injecting : x.state = .injecting) (clean : x.causes = []) :
    (x.pressed c).state.evaluated = true ∧ (x.pressed c).state ≠ .armed ∧ .fracture ∉ (x.pressed c).causes ∧
    ((x.pressed c).state = .holding → (x.pressed c).holdTimer = some 0) := by
  have absent (q : HoldCause) : q ∉ x.causes := by rw [clean]; exact List.not_mem_nil
  by_cases raises : c.overpressureLimit < c.pe ∧ 1 ≤ d.raise
  · rw [pressed_raises decision (absent _) raises.1 raises.2, held_into (by exact injecting) (by exact absent _)]
    refine ⟨rfl, (nomatch ·), fun h => ?_, fun _ => rfl⟩
    dsimp only at h
    rw [clean] at h
    revert h
    decide
  · rw [pressed_counts decision (absent _) (by omega)]
    dsimp only
    rw [injecting]
    exact ⟨rfl, (nomatch ·), absent _, (nomatch ·)⟩

theorem fracture_holds (evaluated : y.state.evaluated = true) (armed : y.state ≠ .armed) (absent : .fracture ∉ y.causes)
    (timer : y.state = .holding → y.holdTimer = some 0) :
    (y.held .fracture).state = .holding ∧ (y.held .fracture).holdTimer = some 0 ∧ .fracture ∈ (y.held .fracture).causes := by
  refine ⟨holding_of_held evaluated armed absent, ?_, (mem_causes_held evaluated _ _).mpr (.inl rfl)⟩
  have state : y.state = .injecting ∨ y.state = .holding := by
    cases h : y.state <;> simp_all [LineState.evaluated]
  rcases state with injecting | holding
  · rw [held_into injecting absent]
  · obtain ⟨-, same, -⟩ := held_adds holding .fracture
    rw [same, timer holding]

theorem decision_addProgress (f : Progress → Progress) (z : Stage) :
    (z.addProgress f).decision = z.decision ∧ (z.addProgress f).status = z.status := by
  unfold Stage.addProgress
  split <;> exact ⟨rfl, rfl⟩

end

/-- Settles O48: a suspected fracture holds the line and stands pending in its stage. -/
theorem fractureHoldsTheLine : Obligations.FractureHoldsTheLine := by
  classical
  intro s l i m k z d ev some' injecting clean pressure flow
  refine ⟨evaluatedSample l i m s, ?_⟩
  dsimp only
  rw [envelope_evaluatedSample]
  refine ⟨exec_evaluating ev i m, fun fresh going => ?_⟩
  have mixless := mixless_sample_going ev fresh some' injecting going
  have kept : (s.readLine l i m .opened).ring = (s.line l).ring := by
    rw [ring_of_fresh fresh, if_neg (by simp [pressure, flow])]
  have ring : ((s.readLine l i m .opened).valued (s.evaluates l i m z)).ring =
      ((s.line l).ring ++ [((s.evaluates l i m z).pe, (s.evaluates l i m z).q)]).drop ((s.line l).ring.length + 1 - 5) := by
    rw [Line.valued, if_neg (by rw [fresh]; decide), kept, pushRing_eq]
  have last : ((s.readLine l i m .opened).valued (s.evaluates l i m z)).ring.getLast? =
      some ((s.evaluates l i m z).pe, (s.evaluates l i m z).q) := by
    rw [ring, ← pushRing_eq]; exact getLast_pushRing _ _
  have suspected := suspects_iff (f := z.fields) (c := s.evaluates l i m z) last
  obtain ⟨evaluated, armed, absent, timer⟩ := pressed_clean (c := s.evaluates l i m z)
    (x := (s.readLine l i m .opened).counted z (s.evaluates l i m z)) (decision_counted_line (decision_of_fresh ev fresh))
    ((state_of_fresh ev fresh).trans injecting) ((causes_of_injecting ev fresh injecting).trans clean)
  obtain ⟨z₁, hz, stage⟩ := stage_sample_going ev fresh injecting some' going
  have before : z₁.decision = z.decision ∧ z₁.status = z.status := by
    obtain ⟨decision, status⟩ := decision_addProgress (Progress.raisePe (s.evaluates l i m z).pe) z
    rw [hz]
    split
    · obtain ⟨decision', status'⟩ := decision_addProgress (Progress.countOverpressure s.counterTop)
        (z.evaluatedBy (s.evaluates l i m z))
      exact ⟨decision'.trans decision, status'.trans status⟩
    · exact ⟨decision, status⟩
  rw [← ring]
  refine ⟨fun found => ?_, fun clear => ?_⟩
  · have found := suspected.mpr found
    have hazarded : (s.readLine l i m .opened).hazarded z (s.evaluates l i m z) =
        (((s.readLine l i m .opened).counted z (s.evaluates l i m z)).pressed (s.evaluates l i m z)).held .fracture :=
      if_pos found
    obtain ⟨state, holdTimer, cause⟩ := fracture_holds evaluated armed absent timer
    rw [← hazarded] at state holdTimer cause
    refine ⟨(congrArg Line.state mixless :).trans state, (congrArg Line.holdTimer mixless :).trans holdTimer,
      (congrArg (fun x : Line => .fracture ∈ x.causes) mixless :).mpr cause, fun active => ⟨_, stage, ?_, ?_⟩⟩
    · rw [if_pos found, Stage.pend, if_pos (before.2.trans active)]
      exact before.2.trans active
    · rw [if_pos found, Stage.pend, if_pos (before.2.trans active), ← before.1]
      rfl
  · have clear := suspected.not.mpr clear
    have hazarded : (s.readLine l i m .opened).hazarded z (s.evaluates l i m z) =
        ((s.readLine l i m .opened).counted z (s.evaluates l i m z)).pressed (s.evaluates l i m z) := if_neg clear
    refine ⟨fun cause => absent ?_, _, stage, ?_⟩
    · rw [← hazarded]
      exact (congrArg (fun x : Line => .fracture ∈ x.causes) mixless :).mp cause
    · rw [if_neg clear]
      exact before.1

end Sys2Proof.Machine
end

section
/-! PROOFS. Thickening and the mix order (R130, R133). -/

namespace Sys2Proof.Machine

section
variable {s t u : State} {l n : LineId} {k : StageKey} {z : Stage} {x y : Line} {c : Computed} {d : DecisionRecord}
  {a : Classes} {f : StageFields} {pe p : Nat} {i : Nat} {m : Bool}

/-! ### The thickening record (R133) -/

theorem thicken_behind (behind : a.effective ≠ a.demanded) : a.thicken f pe = ({ a with pendingVolume := 0 }, false) :=
  if_pos behind

section
variable (level : a.effective = a.demanded)
include level

theorem thicken_first (none : a.pRef = none) : a.thicken f pe =
    ({ a with thickening := a.thickening + a.pendingVolume, pendingVolume := 0, pRef := some pe }, false) := by
  unfold Classes.thicken
  rw [if_neg (not_not.mpr level), none]

variable (ref : a.pRef = some p)
include ref

theorem thicken_answered (rise : p + f.riseThreshold ≤ pe) :
    a.thicken f pe = ({ a with thickening := 0, pendingVolume := 0, pRef := some pe }, false) := by
  unfold Classes.thicken
  rw [if_neg (not_not.mpr level), ref]
  exact if_pos rise

theorem thicken_thickens (flat : ¬ p + f.riseThreshold ≤ pe) (full : f.thickStep * 1000 ≤ a.thickening + a.pendingVolume) :
    a.thicken f pe =
      ({ a with demanded := min 6 (a.demanded + 1), thickening := 0, pendingVolume := 0, pRef := some pe },
        min 6 (a.demanded + 1) != a.demanded) := by
  unfold Classes.thicken
  rw [if_neg (not_not.mpr level), ref]
  exact (if_neg flat).trans (if_pos full)

theorem thicken_counts (flat : ¬ p + f.riseThreshold ≤ pe)
    (short : ¬ f.thickStep * 1000 ≤ a.thickening + a.pendingVolume) :
    a.thicken f pe = ({ a with thickening := a.thickening + a.pendingVolume, pendingVolume := 0 }, false) := by
  unfold Classes.thicken
  rw [if_neg (not_not.mpr level), ref]
  exact (if_neg flat).trans (if_neg short)

end

/-- The demanded class changed exactly when the unit says so. -/
theorem demanded_of_unchanged (same : (a.thicken f pe).2 = false) : (a.thicken f pe).1.demanded = a.demanded := by
  by_cases level : a.effective = a.demanded
  · cases ref : a.pRef with
    | none => rw [thicken_first level ref]
    | some p =>
      by_cases rise : p + f.riseThreshold ≤ pe
      · rw [thicken_answered level ref rise]
      · by_cases full : f.thickStep * 1000 ≤ a.thickening + a.pendingVolume
        · rw [thicken_thickens level ref rise full] at same ⊢
          simpa using same
        · rw [thicken_counts level ref rise full]
  · rw [thicken_behind level]

theorem classes_thickened (classes : x.classes = some a) (pe : Nat) :
    (x.thickened z pe).classes = some (a.thicken z.fields pe).1 := by
  unfold Line.thickened
  rw [classes]
  dsimp only
  split <;> rfl

/-! ### What forms the mix order (R130) -/

/-- The class that a line gives the mix order. -/
def Line.ordered (x : Line) : Option Nat := if x.state.evaluated then x.classes.map Classes.demanded else none

/-- The start class that a stage WAITING gives the mix order. -/
def Stage.ordered (x : Stage) : Option Nat := if x.waiting then some x.fields.startClass else none

theorem orderInputs_of_ordered (lines : ∀ n, (t.line n).ordered = (s.line n).ordered)
    (stages : t.store.stages.filterMap Stage.ordered = s.store.stages.filterMap Stage.ordered) :
    t.orderInputs = s.orderInputs := by
  have inputs (v : State) : v.orderInputs =
      lineIds.filterMap (fun n => (v.line n).ordered) ++ v.store.stages.filterMap Stage.ordered := rfl
  rw [inputs, inputs, stages, funext lines]

theorem ordered_mapStage (k : StageKey) {g : Stage → Stage} (same : ∀ z, (g z).ordered = z.ordered) (zs : List Stage) :
    (mapStage k g zs).filterMap Stage.ordered = zs.filterMap Stage.ordered := by
  rw [mapStage, List.filterMap_map]
  congr 1
  funext z
  by_cases hk : z.key = k <;> simp [hk, same]

theorem ordered_addProgress (g : Progress → Progress) (z : Stage) : (z.addProgress g).ordered = z.ordered := by
  unfold Stage.addProgress
  split <;> rfl

theorem ordered_pend (g : PendingDecision → PendingDecision) (z : Stage) : (z.pend g).ordered = z.ordered := by
  unfold Stage.pend
  split <;> rfl

theorem wanted_addProgress (l : LineId) (g : Progress → Progress) (s : State) :
    (addProgress l g s).store.stages.filterMap Stage.ordered = s.store.stages.filterMap Stage.ordered := by
  unfold addProgress
  split
  · exact ordered_mapStage _ (ordered_addProgress g) _
  · rfl

theorem wanted_recordEvaluation (l : LineId) (c : Computed) (s : State) :
    (recordEvaluation l c s).store.stages.filterMap Stage.ordered = s.store.stages.filterMap Stage.ordered := by
  rw [recordEvaluation_eq]
  split
  · rfl
  · exact wanted_addProgress _ _ _

theorem wanted_overpressureStep (l : LineId) (c : Computed) (s : State) :
    (overpressureStep l c s).store.stages.filterMap Stage.ordered = s.store.stages.filterMap Stage.ordered := by
  unfold overpressureStep
  dsimp only
  cases (s.line l).decision with
  | none => rfl
  | some d =>
    dsimp only
    by_cases raised : (s.line l).causes.contains .overpressure = true
    · rw [if_pos raised]
      by_cases enough : 4 ≤ (if c.pe ≤ c.ce then d.clear + 1 else 0)
      · rw [if_pos enough]
        exact congrArg _ ((removeCause_keeps _ _ _).2 .stages (by decide) :)
      · rw [if_neg enough]; rfl
    · rw [if_neg raised]
      by_cases enough : 2 ≤ (if c.overpressureLimit < c.pe then d.raise + 1 else 0)
      · rw [if_pos enough]
        refine (congrArg _ ((postLine_keeps _ _ _ _).2 .stages (by decide) :)).trans
            ((wanted_addProgress _ _ _).trans ?_)
        exact congrArg _ ((addCause_keeps _ _ _).2 .stages (by decide) :)
      · rw [if_neg enough]; rfl

theorem wanted_fractureStep (l : LineId) (z : Stage) (c : Computed) (s : State) :
    (fractureStep l z c s).store.stages.filterMap Stage.ordered = s.store.stages.filterMap Stage.ordered := by
  rcases fractureStep_eq l z c s with ⟨-, drop, taken⟩ | ⟨-, same⟩
  · rw [taken]
    refine (congrArg _ ((postLine_keeps _ _ _ _).2 .stages (by decide) :)).trans
      ((ordered_mapStage _ (ordered_pend PendingDecision.addFracture) _).trans ?_)
    exact congrArg _ ((addCause_keeps _ _ _).2 .stages (by decide) :)
  · rw [same]

theorem wanted_hazardsTaken (l : LineId) (z : Stage) (c : Computed) (s : State) :
    (hazardsTaken l z c s).store.stages.filterMap Stage.ordered = s.store.stages.filterMap Stage.ordered :=
  (wanted_fractureStep _ _ _ _).trans ((wanted_overpressureStep _ _ _).trans (wanted_recordEvaluation _ _ _))

theorem classes_hazarded (z : Stage) (c : Computed) (x : Line) : (x.hazarded z c).classes = x.classes :=
  (congrArg Line.classes (steady_hazarded z c x) :)

theorem ordered_congr (evaluated : y.state.evaluated = x.state.evaluated) (classes : y.classes = x.classes) :
    y.ordered = x.ordered := by
  rw [Line.ordered, Line.ordered, evaluated, classes]

/-- The mix order stands after thickening as it stood before. -/
theorem mixOrder_thickenLine (l : LineId) (z : Stage) (pe : Nat) (formed : s.grout.mixOrder = lowestClass s.orderInputs) :
    (thickenLine l z pe s).grout.mixOrder = lowestClass (thickenLine l z pe s).orderInputs := by
  unfold thickenLine
  cases classes : (s.line l).classes with
  | none => exact formed
  | some a =>
    dsimp only
    cases changed : (a.thicken z.fields pe).2 with
    | true =>
      rw [if_pos rfl]
      have kept (v : State) : (decideMixLag l v).grout.mixOrder = v.grout.mixOrder :=
        (decideMixLag_keeps l v).2 .mixOrder (by decide)
      have inputs (v : State) : (decideMixLag l v).orderInputs = v.orderInputs := by
        refine orderInputs_of_ordered (fun n => ?_) ?_
        · rw [line_decideMixLag]
          split
          · subst n; rfl
          · rfl
        · exact congrArg _ ((decideMixLag_keeps l v).2 .stages (by decide) :)
      rw [kept, inputs]
      exact mixOrder_formMixOrder _
    | false =>
      rw [if_neg (by decide)]
      have inputs : (s.updLine l (fun x => { x with classes := some (a.thicken z.fields pe).1 })).orderInputs =
          s.orderInputs := by
        refine orderInputs_of_ordered (fun n => ?_) rfl
        rw [line_updLine]
        split
        · subst n
          simp only [Line.ordered, classes, Option.map_some, demanded_of_unchanged changed]
        · rfl
      rw [inputs]
      exact formed

section
variable (ev : evaluating s l k z d)
include ev

/-- The hazards of an evaluation give the mix order no other class. -/
theorem orderInputs_hazards :
    (hazardsTaken l z (s.evaluates l i m z) (sampleRead l i m .opened s)).orderInputs = s.orderInputs := by
  refine orderInputs_of_ordered (fun n => ?_) ((wanted_hazardsTaken _ _ _ _).trans ?_)
  · rw [line_hazardsTaken, line_sampleRead_self, line_sampleRead]
    split
    · subst n
      refine ordered_congr ((evaluated_hazarded _ _ _).trans ?_) ((classes_hazarded _ _ _).trans (readLine_classes ..))
      rw [readLine_state, sampledLine_evaluated]
    · rfl
  · exact congrArg _ ((sampleRead_keeps l i m .opened s).2 .stages (by decide) :)

variable (fresh : (s.evaluates l i m z).stale = false) (injecting : (s.line l).state = .injecting)
  (some' : 1 ≤ z.fields.tRef)
include fresh injecting some'

theorem mixOrder_sample_going (going : endDecided z.fields (s.evaluates l i m z) d = none)
    (formed : s.grout.mixOrder = lowestClass s.orderInputs) :
    (evaluatedSample l i m s).grout.mixOrder = lowestClass (evaluatedSample l i m s).orderInputs := by
  have kept : (hazardsTaken l z (s.evaluates l i m z) (sampleRead l i m .opened s)).grout.mixOrder = s.grout.mixOrder :=
    ((fractureStep_keeps ..).2 .mixOrder (by decide) :).trans
        (((overpressureStep_keeps ..).2 .mixOrder (by decide) :).trans
      ((sampleCounted_keeps l i m z s).2 .mixOrder (by decide) :))
  have hazards : (hazardsTaken l z (s.evaluates l i m z) (sampleRead l i m .opened s)).grout.mixOrder =
      lowestClass (hazardsTaken l z (s.evaluates l i m z) (sampleRead l i m .opened s)).orderInputs := by
    rw [kept, orderInputs_hazards ev, formed]
  refine mixOrder_settled ?_
  rw [evaluate_sample_going ev fresh injecting some' going]
  split
  · exact mixOrder_thickenLine l z _ hazards
  · exact hazards

/-- A line still INJECTING has not ended its stage. -/
theorem going_of_injecting (still : ((evaluatedSample l i m s).line l).state = .injecting) :
    endDecided z.fields (s.evaluates l i m z) d = none := by
  cases decided : endDecided z.fields (s.evaluates l i m z) d with
  | none => rfl
  | some e =>
    obtain ⟨cause, reason⟩ := e
    rw [line_sample_ended ev fresh injecting some' decided] at still
    nomatch still

theorem classes_sample_thickened (still : ((evaluatedSample l i m s).line l).state = .injecting)
    (classes : (s.line l).classes = some a) :
    ((evaluatedSample l i m s).line l).classes = some (a.thicken z.fields (s.evaluates l i m z).pe).1 := by
  have going := going_of_injecting ev fresh injecting some' still
  have state : ((s.readLine l i m .opened).hazarded z (s.evaluates l i m z)).state = .injecting :=
    (congrArg Line.state (mixless_sample_going ev fresh some' injecting going) :).symm.trans still
  rw [line_sample_going ev fresh injecting some' going, if_pos state]
  exact classes_thickened ((classes_hazarded ..).trans ((readLine_classes ..).trans classes)) _

theorem classes_sample_left (left : ((evaluatedSample l i m s).line l).state ≠ .injecting) :
    ((evaluatedSample l i m s).line l).classes = (s.line l).classes := by
  cases decided : endDecided z.fields (s.evaluates l i m z) d with
  | some e =>
    obtain ⟨cause, reason⟩ := e
    rw [line_sample_ended ev fresh injecting some' decided]
    exact readLine_classes s l i m .opened
  | none =>
    have state : ((s.readLine l i m .opened).hazarded z (s.evaluates l i m z)).state ≠ .injecting := fun h =>
      left ((congrArg Line.state (mixless_sample_going ev fresh some' injecting decided) :).trans h)
    rw [line_sample_going ev fresh injecting some' decided, if_neg state]
    exact (classes_hazarded ..).trans (readLine_classes ..)

end

end

/-- Settles O50: the thickening record after the evaluation, and the mix order formed from it. -/
theorem thickeningFollowsTheEvaluation : Obligations.ThickeningFollowsTheEvaluation := by
  intro s l i m k z d c ev some' injecting classes
  have values := envelope_evaluatedSample l i m s z
  simp only [classes, Option.map_some, Option.getD_some] at values
  refine ⟨evaluatedSample l i m s, ?_⟩
  dsimp only
  rw [values]
  refine ⟨exec_evaluating ev i m, fun stale => ?_, fun fresh left => ?_, fun fresh still => ⟨fun behind => ?_,
    fun level ref => ?_, fun p level ref => ?_, fun formed => ?_⟩⟩
  · rw [line_sample_stale ev stale, Line.staled, readLine_classes, classes]
    rfl
  · rw [classes_sample_left ev fresh injecting some' left, classes]
  · rw [classes_sample_thickened ev fresh injecting some' still classes, thicken_behind behind]
  · rw [classes_sample_thickened ev fresh injecting some' still classes, thicken_first level ref]
  · rw [classes_sample_thickened ev fresh injecting some' still classes]
    split
    · rw [thicken_answered level ref ‹_›]
    · split
      · have risen : min 6 (c.demanded + 1) = if c.demanded < 6 then c.demanded + 1 else 6 := by
          split <;> omega
        rw [thicken_thickens level ref ‹_› ‹_›, risen]
      · rw [thicken_counts level ref ‹_› ‹_›]
  · exact mixOrder_sample_going ev fresh injecting some' (going_of_injecting ev fresh injecting some' still) formed

end Sys2Proof.Machine
end

section
/-! PROOFS. Connections and their candidates (R117 to R119). -/

namespace Sys2Proof.Machine

section
variable {s t u : State} {l n : LineId} {k j : StageKey} {z : Stage} {x y : Line} {c : LineId × Stage} {hole : Nat}
  {i : Nat} {m : Bool} {g : Progress} {q : HoldCause} {cs : List (LineId × Stage)}

/-! ### One candidate of a connection (R118) -/

/-- A stage's connection events counted. -/
def Progress.countConnection (top : Nat) (g : Progress) : Progress := { g with connection := satSucc top g.connection }

/-- A connection added to a pending decision (R15). -/
def PendingDecision.addConnection (d : PendingDecision) : PendingDecision := { d with connection := true }

/-- What a connection does to a candidate's line, by the policy of its stage. -/
def Line.connected (z : Stage) (x : Line) : Line := if z.fields.policy = .hold then x.held .connection else x

/-- What a connection does to a candidate's stage. -/
def Stage.connected (top : Nat) (z : Stage) : Stage :=
  if z.fields.policy = .hold then (z.addProgress (Progress.countConnection top)).pend PendingDecision.addConnection
  else z.addProgress (Progress.countConnection top)

theorem connectCandidate_hold (hold : c.2.fields.policy = .hold) (s : State) :
    connectCandidate hole c s = postLine c.1 .connectionHold (some (hole : Int)) (addPending c.2.key
      PendingDecision.addConnection (addCause .connection c.1 (addProgress c.1 (Progress.countConnection s.counterTop) s))) := by
  unfold connectCandidate
  rw [hold]
  rfl

theorem connectCandidate_note (note : c.2.fields.policy ≠ .hold) (s : State) :
    connectCandidate hole c s =
      postLine c.1 .connectionNote (some (hole : Int)) (addProgress c.1 (Progress.countConnection s.counterTop) s) := by
  unfold connectCandidate
  cases policy : c.2.fields.policy with
  | hold => exact absurd policy note
  | note => rfl

theorem line_connectCandidate (hole : Nat) (c : LineId × Stage) (s : State) (n : LineId) :
    (connectCandidate hole c s).line n = if n = c.1 then (s.line n).connected c.2 else s.line n := by
  unfold Line.connected
  by_cases hold : c.2.fields.policy = .hold
  · rw [connectCandidate_hold hold, line_postLine, line_addPending, line_addCause, line_addProgress, line_addProgress,
      if_pos hold]
    split
    · subst n; rfl
    · rfl
  · rw [connectCandidate_note hold, line_postLine, line_addProgress, if_neg hold, ite_self]

theorem stage_postLine (l : LineId) (a : AlertKind) (d : Option Int) (s : State) (j : StageKey) :
    (postLine l a d s).stage? j = s.stage? j := (postLine_keeps _ _ _ _).stage (by decide) j

/-- A connection changes the stage of its candidate, and no other. -/
theorem stage_connectCandidate (carried : (s.line c.1).carried = some c.2.key) (hole : Nat) (j : StageKey) :
    (connectCandidate hole c s).stage? j =
      if j = c.2.key then (s.stage? j).map (fun z =>
        if c.2.fields.policy = .hold then (z.addProgress (Progress.countConnection s.counterTop)).pend
          PendingDecision.addConnection else z.addProgress (Progress.countConnection s.counterTop))
      else s.stage? j := by
  have progress (j : StageKey) : (addProgress c.1 (Progress.countConnection s.counterTop) s).stage? j =
      if j = c.2.key then (s.stage? j).map (Stage.addProgress (Progress.countConnection s.counterTop)) else s.stage? j := by
    rw [stage_addProgress, carried]
    by_cases same : j = c.2.key
    · rw [if_pos same, if_pos (congrArg some same.symm)]
    · rw [if_neg same, if_neg fun e => same (Option.some.inj e).symm]
  have held (u : State) (j : StageKey) : (addCause .connection c.1 u).stage? j = u.stage? j :=
    (addCause_keeps _ _ _).stage (by decide) j
  by_cases hold : c.2.fields.policy = .hold
  · rw [connectCandidate_hold hold, stage_postLine, stage_addPending, held, held, progress, progress, if_pos rfl]
    by_cases same : j = c.2.key
    · subst j
      rw [if_pos rfl, if_pos rfl, Option.map_map]
      simp only [if_pos hold, Function.comp_def]
    · rw [if_neg same, if_neg same, if_neg same]
  · rw [connectCandidate_note hold, stage_postLine, progress]
    simp only [if_neg hold]

/-! ### All candidates of a connection -/

/-- The part once the candidates of a connection have been acted on. -/
def connectAll (hole : Nat) (cs : List (LineId × Stage)) (s : State) : State :=
  cs.foldl (fun s c => connectCandidate hole c s) s

theorem connectAll_cons (hole : Nat) (c : LineId × Stage) (cs : List (LineId × Stage)) (s : State) :
    connectAll hole (c :: cs) s = connectAll hole cs (connectCandidate hole c s) := rfl

theorem connectAll_keeps (hole : Nat) (cs : List (LineId × Stage)) (s : State) :
    keeps [.lines, .queues, .stages] s (connectAll hole cs s) :=
  foldl_keeps _ _ _ (fun s c => connectCandidate_keeps hole c s)

theorem carried_connected (z : Stage) (x : Line) : (x.connected z).carried = x.carried := by
  unfold Line.connected
  split
  · exact carried_held _ _
  · rfl

theorem carried_connectCandidate (hole : Nat) (c : LineId × Stage) (s : State) (n : LineId) :
    ((connectCandidate hole c s).line n).carried = (s.line n).carried := by
  rw [line_connectCandidate]
  split
  · exact carried_connected _ _
  · rfl

/-- A line is not changed by the candidates of other lines. -/
theorem line_connectAll_other (hole : Nat) {cs : List (LineId × Stage)} (others : ∀ c ∈ cs, c.1 ≠ n) (s : State) :
    (connectAll hole cs s).line n = s.line n := by
  induction cs generalizing s with
  | nil => rfl
  | cons c cs ih =>
    have other := others c (List.mem_cons_self ..)
    rw [connectAll_cons, ih fun c h => others c (List.mem_cons_of_mem _ h), line_connectCandidate, if_neg other.symm]

theorem line_connectAll (hole : Nat) {cs : List (LineId × Stage)} (apart : (cs.map Prod.fst).Nodup) (mem : (n, z) ∈ cs)
    (s : State) : (connectAll hole cs s).line n = (s.line n).connected z := by
  induction cs generalizing s with
  | nil => nomatch mem
  | cons c cs ih =>
    rw [List.map_cons, List.nodup_cons] at apart
    obtain ⟨fresh, apart⟩ := apart
    rw [connectAll_cons]
    rcases List.mem_cons.mp mem with same | later
    · subst c
      rw [line_connectAll_other hole (n := n) (fun c h e => fresh (List.mem_map.mpr ⟨c, h, e⟩)), line_connectCandidate,
        if_pos rfl]
    · have other : n ≠ c.1 := fun e => fresh (List.mem_map.mpr ⟨_, later, e⟩)
      rw [ih apart later, line_connectCandidate, if_neg other]

theorem stage_connectAll_other (hole : Nat) {cs : List (LineId × Stage)}
    (carried : ∀ c ∈ cs, (s.line c.1).carried = some c.2.key) (others : ∀ c ∈ cs, c.2.key ≠ j) :
    (connectAll hole cs s).stage? j = s.stage? j := by
  induction cs generalizing s with
  | nil => rfl
  | cons c cs ih =>
    rw [connectAll_cons, ih (fun c h => (carried_connectCandidate ..).trans (carried c (List.mem_cons_of_mem _ h)))
      (fun c h => others c (List.mem_cons_of_mem _ h)), stage_connectCandidate (carried c (List.mem_cons_self ..)),
      if_neg (others c (List.mem_cons_self ..)).symm]

/-- The stage of the one candidate that has it. -/
theorem stage_connectAll (hole : Nat) {cs : List (LineId × Stage)}
    (carried : ∀ c ∈ cs, (s.line c.1).carried = some c.2.key) (apart : (cs.map Prod.fst).Nodup) (mem : (n, z) ∈ cs)
    (others : ∀ c ∈ cs, c.1 ≠ n → c.2.key ≠ z.key) (found : s.stage? z.key = some z) :
    (connectAll hole cs s).stage? z.key = some (z.connected s.counterTop) := by
  induction cs generalizing s with
  | nil => nomatch mem
  | cons c cs ih =>
    have first := carried c (List.mem_cons_self ..)
    have rest : ∀ c' ∈ cs, ((connectCandidate hole c s).line c'.1).carried = some c'.2.key := fun c' h =>
      (carried_connectCandidate ..).trans (carried c' (List.mem_cons_of_mem _ h))
    rw [List.map_cons, List.nodup_cons] at apart
    obtain ⟨fresh, apart⟩ := apart
    rw [connectAll_cons]
    rcases List.mem_cons.mp mem with same | later
    · subst c
      have distinct : ∀ c ∈ cs, c.2.key ≠ z.key := fun c h =>
        others c (List.mem_cons_of_mem _ h) fun e => fresh (List.mem_map.mpr ⟨c, h, e⟩)
      rw [stage_connectAll_other hole rest distinct, stage_connectCandidate first, if_pos rfl, found]
      rfl
    · have other : c.1 ≠ n := fun e => fresh (List.mem_map.mpr ⟨_, later, e.symm⟩)
      have top : (connectCandidate hole c s).counterTop = s.counterTop :=
        counterTop_congr ((connectCandidate_keeps hole c s).2 .settings (by decide) :)
      rw [ih rest apart later (fun c h => others c (List.mem_cons_of_mem _ h)) ?_, top]
      rw [stage_connectCandidate first, if_neg (others c (List.mem_cons_self ..) other).symm, found]

/-! ### The candidates (R117) -/

/-- The line injects or holds, and its stage names the hole a neighbour. -/
def State.neighbour (s : State) (hole : Nat) (n : LineId) : Prop :=
  (s.line n).state ∈ [LineState.injecting, .holding] ∧ ∃ z, (s.line n).stage.bind s.stage? = some z ∧ hole ∈ z.fields.neighbours

/-- The line may have caused the connection, with its stage. -/
def State.suspected (s : State) (hole : Nat) (n : LineId) (z : Stage) : Prop :=
  (s.line n).stage.bind s.stage? = some z ∧
  (s.neighbour hole n ∨ (¬ ∃ n', s.neighbour hole n') ∧ (s.line n).state = .injecting)

/-- The lines with a stage, in their order, each with its stage. -/
def State.boundLines (s : State) : List (LineId × Stage) :=
  lineIds.filterMap (fun l => (s.boundStage l).map (fun z => (l, z)))

/-- Those of them that inject or hold next to the hole. -/
def State.besideHole (s : State) (hole : Nat) : List (LineId × Stage) :=
  s.boundLines.filter (fun c =>
    ((s.line c.1).state == .injecting || (s.line c.1).state == .holding) && c.2.fields.neighbours.contains hole)

theorem candidates_eq (s : State) (hole : Nat) : s.candidates hole =
    if (s.besideHole hole).isEmpty then (s.boundLines.filter (fun c => (s.line c.1).state == .injecting), false)
    else (s.besideHole hole, true) := rfl

theorem mem_boundLines (s : State) (n : LineId) (z : Stage) :
    (n, z) ∈ s.boundLines ↔ (s.line n).stage.bind s.stage? = some z := by
  unfold State.boundLines State.boundStage
  simp only [List.mem_filterMap, Option.map_eq_some_iff, Prod.mk.injEq]
  constructor
  · rintro ⟨l, -, z', bound, rfl, rfl⟩
    exact bound
  · exact fun bound => ⟨n, mem_lineIds n, z, bound, rfl, rfl⟩

theorem mem_besideHole (s : State) (hole : Nat) (n : LineId) (z : Stage) :
    (n, z) ∈ s.besideHole hole ↔ (s.line n).stage.bind s.stage? = some z ∧ s.neighbour hole n := by
  unfold State.besideHole State.neighbour
  simp only [List.mem_filter, mem_boundLines, Bool.and_eq_true, Bool.or_eq_true, beq_iff_eq, List.contains_iff_mem,
    List.mem_cons, List.not_mem_nil, or_false]
  refine and_congr_right fun bound => and_congr_right fun _ => ?_
  simp [bound]

theorem besideHole_isEmpty (s : State) (hole : Nat) :
    (s.besideHole hole).isEmpty = true ↔ ¬ ∃ n, s.neighbour hole n := by
  rw [List.isEmpty_iff, List.eq_nil_iff_forall_not_mem]
  constructor
  · rintro none ⟨n, state, z, bound, near⟩
    exact none (n, z) ((mem_besideHole ..).mpr ⟨bound, state, z, bound, near⟩)
  · intro none c mem
    obtain ⟨n, z⟩ := c
    exact none ⟨n, ((mem_besideHole ..).mp mem).2⟩

theorem mem_candidates (s : State) (hole : Nat) (n : LineId) (z : Stage) :
    (n, z) ∈ (s.candidates hole).1 ↔ s.suspected hole n z := by
  rw [candidates_eq]
  unfold State.suspected
  by_cases empty : (s.besideHole hole).isEmpty = true
  · have none := (besideHole_isEmpty s hole).mp empty
    have not : ¬ s.neighbour hole n := fun h => none ⟨n, h⟩
    rw [if_pos empty]
    simp [mem_boundLines, none, not]
  · have some := (besideHole_isEmpty s hole).not.mp empty
    rw [if_neg empty]
    simp [mem_besideHole, some]

theorem attributed_candidates (s : State) (hole : Nat) :
    (s.candidates hole).2 = true ↔ ∃ n, s.neighbour hole n := by
  rw [candidates_eq]
  split
  case isTrue empty => exact iff_of_false Bool.false_ne_true ((besideHole_isEmpty s hole).mp empty)
  case isFalse some => exact iff_of_true rfl (not_not.mp ((besideHole_isEmpty s hole).not.mp some))

/-- The candidates are in the order of their lines. -/
theorem sublist_candidates (s : State) (hole : Nat) : ((s.candidates hole).1.map Prod.fst).Sublist lineIds := by
  have bound : (s.boundLines.map Prod.fst).Sublist lineIds := by
    have each (ls : List LineId) :
        ((ls.filterMap (fun l => (s.boundStage l).map (fun z => (l, z)))).map Prod.fst).Sublist ls := by
      induction ls with
      | nil => exact .slnil
      | cons l ls ih =>
        cases h : s.boundStage l <;> simp [h, ih]
    exact each lineIds
  rw [candidates_eq]
  split
  · exact (List.filter_sublist.map _).trans bound
  · exact (List.filter_sublist.map _).trans bound

theorem lineIds_ascend : lineIds.Pairwise (· < ·) := by decide

theorem candidates_ascend (s : State) (hole : Nat) : ((s.candidates hole).1.map Prod.fst).Pairwise (· < ·) :=
  lineIds_ascend.sublist (sublist_candidates s hole)

theorem candidates_apart (s : State) (hole : Nat) : ((s.candidates hole).1.map Prod.fst).Nodup :=
  (candidates_ascend s hole).imp fun h => ne_of_lt h

theorem suspected_live {hole : Nat} (suspect : s.suspected hole n z) : (s.line n).state.live = true := by
  obtain ⟨-, ⟨state, -⟩ | ⟨-, state⟩⟩ := suspect
  · simp only [List.mem_cons, List.not_mem_nil, or_false] at state
    rcases state with h | h <;> rw [h] <;> rfl
  · rw [state]; rfl

theorem suspected_bound {hole : Nat} (suspect : s.suspected hole n z) :
    (s.line n).stage = some z.key ∧ s.stage? z.key = some z := by
  obtain ⟨bound, -⟩ := suspect
  obtain ⟨k, stage, found⟩ := Option.bind_eq_some_iff.mp bound
  have key : z.key = k := key_of_lookupStage found
  rw [key]
  exact ⟨stage, found⟩

theorem suspected_carried {hole : Nat} (suspect : s.suspected hole n z) : (s.line n).carried = some z.key := by
  rw [Line.carried, if_pos (suspected_live suspect), (suspected_bound suspect).1]

/-! ### The event (R117 to R119) -/

/-- The record of a connection. -/
def State.connectionRecord (s : State) (l : LineId) (w : Watch) (baseline : Nat) (rise : Int) : ConnectionRecord :=
  { number := s.connections.nextNumber, time := s.clock.site, line := l, hole := w.hole, stage := w.stage,
    baseline := baseline, rise := rise, candidates := (s.candidates w.hole).1.map (fun c => (c.1, c.2.key)),
    attributed := (s.candidates w.hole).2 }

section
variable {w : Watch} {b : Nat} {rise : Int}

/-- The log with the record of a connection (R119). -/
def State.connectionLog (s : State) (l : LineId) (w : Watch) (baseline : Nat) (rise : Int) (log : ConnectionLog) :
    ConnectionLog :=
  { records := lastN 32 (log.records ++ [s.connectionRecord l w baseline rise]), nextNumber := nextNumber log.nextNumber }

theorem connectionEvent_eq (l : LineId) (w : Watch) (b : Nat) (rise : Int) (s : State) :
    connectionEvent l w b rise s = { connectAll w.hole (s.candidates w.hole).1 s with
      connections := s.connectionLog l w b rise (connectAll w.hole (s.candidates w.hole).1 s).connections } := rfl

theorem line_connectionEvent (l : LineId) (w : Watch) (b : Nat) (rise : Int) (s : State) (n : LineId) :
    (connectionEvent l w b rise s).line n = (connectAll w.hole (s.candidates w.hole).1 s).line n := by
  rw [connectionEvent_eq]
  exact (setConnections_keeps _ _).line (by decide) (by decide) (by decide) n

theorem stage_connectionEvent (l : LineId) (w : Watch) (b : Nat) (rise : Int) (s : State) (j : StageKey) :
    (connectionEvent l w b rise s).stage? j = (connectAll w.hole (s.candidates w.hole).1 s).stage? j := by
  rw [connectionEvent_eq]
  exact (setConnections_keeps _ _).stage (by decide) j

theorem connections_connectionEvent (l : LineId) (w : Watch) (b : Nat) (rise : Int) (s : State) :
    (connectionEvent l w b rise s).connections = s.connectionLog l w b rise s.connections := by
  have kept : (connectAll w.hole (s.candidates w.hole).1 s).connections = s.connections :=
    (connectAll_keeps _ _ _).2 .connections (by decide)
  rw [connectionEvent_eq, kept]

theorem line_event_suspected (suspect : s.suspected w.hole n z) (l : LineId) (b : Nat) (rise : Int) :
    (connectionEvent l w b rise s).line n = (s.line n).connected z :=
  (line_connectionEvent ..).trans
    (line_connectAll w.hole (candidates_apart s w.hole) ((mem_candidates ..).mpr suspect) s)

theorem line_event_other (clear : ∀ z, ¬ s.suspected w.hole n z) (l : LineId) (b : Nat) (rise : Int) :
    (connectionEvent l w b rise s).line n = s.line n := by
  refine (line_connectionEvent ..).trans (line_connectAll_other w.hole (fun c mem e => ?_) s)
  subst e
  exact clear c.2 ((mem_candidates s w.hole c.1 c.2).mp mem)

theorem stage_event_suspected (suspect : s.suspected w.hole n z)
    (alone : ∀ n', (s.line n').stage = (s.line n).stage → n' = n) (l : LineId) (b : Nat) (rise : Int) :
    (connectionEvent l w b rise s).stage? z.key = some (z.connected s.counterTop) := by
  obtain ⟨stage, found⟩ := suspected_bound suspect
  refine (stage_connectionEvent ..).trans <| stage_connectAll w.hole (fun c mem => suspected_carried ((mem_candidates s w.hole c.1 c.2).mp mem))
    (candidates_apart s w.hole) ((mem_candidates ..).mpr suspect) (fun c mem other same => other (alone _ ?_)) found
  rw [(suspected_bound ((mem_candidates s w.hole c.1 c.2).mp mem)).1, same, stage]

end

theorem connected_active (active : z.status = .active) (progress : z.progress = some g) (top : Nat) :
    z.connected top = { z with
      progress := some { g with connection := satSucc top g.connection }
      decision := if z.fields.policy = .hold then { z.decision with connection := true } else z.decision } := by
  have counted := addProgress_active (Progress.countConnection top) active progress
  unfold Stage.connected
  rw [counted]
  split
  · rw [Stage.pend, if_pos (by exact active)]
    rfl
  · rfl

end

end Sys2Proof.Machine
end

section
/-! PROOFS. The connection watch (R115 to R119). -/

namespace Sys2Proof.Machine

section
variable {s t u : State} {l n : LineId} {k j : StageKey} {z : Stage} {x y : Line} {hole pg b thr : Nat}
  {i : Nat} {m r : Bool} {g : Progress} {w w' : Watch}

/-! ### The comparison of a settled watch (R116) -/

/-- The watch makes a connection event: armed, the rise reached at the fourth evaluation in a row. -/
def Watch.fires (thr b pg : Nat) (w : Watch) : Prop := w.armed = true ∧ b + thr ≤ pg ∧ 3 ≤ w.rise

theorem compare_armed (armed : w.armed = true) :
    w.compare thr ((pg : Int) - b) =
      if 4 ≤ (if (thr : Int) ≤ (pg : Int) - b then w.rise + 1 else 0) then
        ({ w with armed := false, rise := 0, rearm := 0 }, true)
      else ({ w with rise := if (thr : Int) ≤ (pg : Int) - b then w.rise + 1 else 0 }, false) := if_pos armed

theorem rise_iff : (thr : Int) ≤ (pg : Int) - b ↔ b + thr ≤ pg := by omega

theorem compare_fires (fires : w.fires thr b pg) :
    w.compare thr ((pg : Int) - b) = ({ w with armed := false, rise := 0, rearm := 0 }, true) := by
  obtain ⟨armed, high, again⟩ := fires
  rw [compare_armed armed, if_pos]
  rw [if_pos (rise_iff.mpr high)]
  omega

theorem compare_counts (armed : w.armed = true) (quiet : ¬ w.fires thr b pg) :
    w.compare thr ((pg : Int) - b) = ({ w with rise := if b + thr ≤ pg then w.rise + 1 else 0 }, false) := by
  rw [compare_armed armed, if_neg]
  · simp only [rise_iff]
  · intro enough
    split at enough
    · exact quiet ⟨armed, rise_iff.mp ‹_›, by omega⟩
    · omega

theorem compare_rearms (unarmed : w.armed = false) :
    w.compare thr ((pg : Int) - b) = (
      if pg < b + thr / 2 then
        (if 3 ≤ w.rearm then { w with armed := true, rearm := 0 } else { w with rearm := w.rearm + 1 })
      else { w with rearm := 0 }, false) := by
  have low : (pg : Int) - b < ((thr / 2 : Nat) : Int) ↔ pg < b + thr / 2 := by omega
  unfold Watch.compare
  rw [if_neg (by rw [unarmed]; decide)]
  simp only [low]
  by_cases below : pg < b + thr / 2
  · simp only [if_pos below]
    by_cases again : 3 ≤ w.rearm
    · rw [if_pos again, if_pos (by omega)]
    · rw [if_neg again, if_neg (by omega)]
  · simp only [if_neg below]
    rw [if_neg (by decide)]

/-! ### One evaluation of the watch (R115, R116) -/

/-- The part with the watch record of a line. -/
def watched (l : LineId) (w : Watch) (s : State) : State := s.setLine l { s.line l with watch := some w }

theorem line_watched (l : LineId) (w : Watch) (s : State) (n : LineId) :
    (watched l w s).line n = if n = l then { s.line l with watch := some w } else s.line n := line_setLine _ _ _ _

theorem watched_keeps (l : LineId) (w : Watch) (s : State) : keeps [.lines] s (watched l w s) :=
  setLine_keeps l _ s rfl rfl

theorem watchEvaluation_outcome (watch : (s.line l).watch = some w) (r : Bool) :
    ∃ w', watchEvaluation l r s = watched l w' s ∨
      ∃ v b rise, watchEvaluation l r s = connectionEvent l v b rise (watched l w' s) := by
  unfold watchEvaluation
  simp only [watch]
  by_cases invalid : (!(s.line l).pressure.isValid) = true
  · rw [if_pos invalid]
    exact ⟨_, .inl rfl⟩
  · rw [if_neg invalid]
    generalize (if r then _ else _ : Watch) = v
    cases v.baseline with
    | none => exact ⟨_, .inl rfl⟩
    | some b =>
      dsimp only
      split
      · exact ⟨_, .inr ⟨_, _, _, rfl⟩⟩
      · exact ⟨_, .inl rfl⟩

section
variable (watch : (s.line l).watch = some w)
include watch

theorem watchEvaluation_invalid (invalid : (s.line l).pressure.validity ≠ .valid) (r : Bool) :
    watchEvaluation l r s = watched l { w with rise := 0, rearm := 0 } s := by
  unfold watchEvaluation
  simp only [watch]
  rw [if_pos (by simpa [Channel.isValid] using invalid)]
  rfl

variable (valid : (s.line l).pressure.validity = .valid)
include valid

theorem watchEvaluation_regained :
    watchEvaluation l true s =
      watched l { w with baseline := none, settle := 1, armed := true, rise := 0, rearm := 0 } s := by
  unfold watchEvaluation
  simp only [watch]
  rw [if_neg (by simp [Channel.isValid, valid])]
  rfl

theorem watchEvaluation_settles (settling : w.baseline = none) :
    watchEvaluation l false s = watched l { w with
      settle := w.settle + 1, baseline := if w.settle = 7 then some (s.line l).pressure.value.toNat else none } s := by
  have eighth : w.settle + 1 = 8 ↔ w.settle = 7 := by omega
  unfold watchEvaluation
  simp only [watch]
  rw [if_neg (by simp [Channel.isValid, valid]), if_neg Bool.false_ne_true]
  simp only [settling, Watch.settleOn, eighth]
  rfl

variable (settled : w.baseline = some b)
include settled

theorem watchEvaluation_compares
    (compared : w.compare (s.line l).inForce.watch (((s.line l).pressure.value.toNat : Int) - b) = (w', r)) :
    watchEvaluation l false s =
      if r then connectionEvent l w b (((s.line l).pressure.value.toNat : Int) - b) (watched l w' s)
      else watched l w' s := by
  unfold watchEvaluation
  simp only [watch]
  rw [if_neg (by simp [Channel.isValid, valid]), if_neg Bool.false_ne_true]
  simp only [settled, compared]
  rfl

end

/-! ### The sample of a line in WATCH -/

theorem exec_watching (present : (s.line l).settings.present = true) (state : (s.line l).state = .watch)
    (command : (s.line l).command = .closed) (travel : (s.line l).travel = none) (i : Nat) (m : Bool) :
    exec (.lineSampleEvent l i m false true) s =
      .next (settleStartCheck (watchEvaluation l (s.sampling l i m).2.1.regain (sampleRead l i m .closed s))) := by
  have calm : s.readsCalm l .closed :=
    valveFaultOf_arrived command (fun w e => by rw [travel] at e; nomatch e) rfl (by decide : 0 ≠ 3)
  have here : ((sampleRead l i m .closed s).line l).state = .watch := by
    rw [line_sampleRead_self, readLine_state, sampledLine_state_of_unevaluated (by rw [state]; rfl)]
    exact state
  have confirm : confirmValve l (sampleRead l i m .closed s) = sampleRead l i m .closed s :=
    confirmValve_other (by rw [here]; decide) (by rw [here]; decide)
  have compare : valveCompare l (readbackOf false true) (channelsTaken l i m s) = sampleRead l i m .closed s :=
    (valveCompare_calm (rb := .closed) (by rw [state]; decide) calm i m).trans confirm
  have used (b : Bool) : sampleUsed l (s.sampling l i m).2.1.regain b (sampleRead l i m .closed s) =
      watchEvaluation l (s.sampling l i m).2.1.regain (sampleRead l i m .closed s) := by
    unfold sampleUsed
    rw [here]
  rw [exec_lineSample present, compare, used]

theorem neighbour_congr (others : ∀ n, n ≠ l → t.line n = s.line n) (state : (s.line l).state = .watch)
    (still : (t.line l).state = .watch) (stages : t.stage? = s.stage?) (hole : Nat) (n : LineId) :
    t.neighbour hole n ↔ s.neighbour hole n := by
  unfold State.neighbour
  by_cases same : n = l
  · subst n
    simp [state, still]
  · rw [others n same, stages]

/-- The candidates of a connection are the same for a part that differs in a line in WATCH alone. -/
theorem suspected_congr (others : ∀ n, n ≠ l → t.line n = s.line n) (state : (s.line l).state = .watch)
    (still : (t.line l).state = .watch) (stages : t.stage? = s.stage?) (hole : Nat) (n : LineId) (z : Stage) :
    t.suspected hole n z ↔ s.suspected hole n z := by
  unfold State.suspected
  simp only [neighbour_congr others state still stages, stages]
  by_cases same : n = l
  · subst n
    simp [state, still, State.neighbour]
  · rw [others n same]

/-- The part after the sample of a line in WATCH. -/
def watchedSample (l : LineId) (i : Nat) (m : Bool) (s : State) : State :=
  settleStartCheck (watchEvaluation l (s.sampling l i m).2.1.regain (sampleRead l i m .closed s))

/-- The part once the sample of a line in WATCH has changed its watch record. -/
def watchTaken (l : LineId) (i : Nat) (m : Bool) (w : Watch) (s : State) : State :=
  watched l w (sampleRead l i m .closed s)

theorem watchTaken_keeps (l : LineId) (i : Nat) (m : Bool) (w : Watch) (s : State) :
    keeps [.lines, .lineSettings, .meters, .queues, .faults, .writes] s (watchTaken l i m w s) :=
  (watched_keeps l w _).after (by decide) (sampleRead_keeps l i m .closed s)

theorem line_watchTaken (l : LineId) (i : Nat) (m : Bool) (w : Watch) (s : State) (n : LineId) :
    (watchTaken l i m w s).line n = if n = l then { s.readLine l i m .closed with watch := some w } else s.line n := by
  rw [watchTaken, line_watched, line_sampleRead_self]
  split
  · rfl
  · rw [line_sampleRead, if_neg ‹_›]

theorem stage_watchTaken (l : LineId) (i : Nat) (m : Bool) (w : Watch) (s : State) :
    (watchTaken l i m w s).stage? = s.stage? := funext fun j => (watchTaken_keeps l i m w s).stage (by decide) j

theorem connections_watchTaken (l : LineId) (i : Nat) (m : Bool) (w : Watch) (s : State) :
    (watchTaken l i m w s).connections = s.connections := (watchTaken_keeps l i m w s).2 .connections (by decide)

theorem connections_settled (s : State) : (settleStartCheck s).connections = s.connections :=
  (settleStartCheck_keeps s).2 .connections (by decide)

theorem stage_settled (s : State) (j : StageKey) : (settleStartCheck s).stage? j = s.stage? j :=
  (settleStartCheck_keeps s).stage (by decide) j

/-- What a sample leaves that changes the watch record of its line alone. -/
structure Watches (l : LineId) (w : Watch) (s t : State) : Prop where
  watch : (t.line l).watch = some w
  connections : t.connections = s.connections
  others : sameOtherLines l s t
  stages : t.store.stages = s.store.stages

section
variable (state : (s.line l).state = .watch)
include state

theorem readLine_watching (i : Nat) (m : Bool) : s.readLine l i m .closed = (s.sampling l i m).1.readValve .closed :=
  readLine_of_unevaluated (by rw [state]; rfl)

theorem state_watchTaken (i : Nat) (m : Bool) (w : Watch) : ((watchTaken l i m w s).line l).state = .watch := by
  rw [line_watchTaken, if_pos rfl, readLine_watching state]
  exact state

omit state in
theorem watches_taken (i : Nat) (m : Bool) (w : Watch)
    (eq : watchEvaluation l (s.sampling l i m).2.1.regain (sampleRead l i m .closed s) = watchTaken l i m w s) :
    Watches l w s (watchedSample l i m s) := by
  rw [watchedSample, eq]
  refine ⟨?_, ?_, fun n other => ?_, ?_⟩
  · rw [line_settleStartCheck, line_watchTaken, if_pos rfl]
  · rw [connections_settled, connections_watchTaken]
  · rw [line_settleStartCheck, line_watchTaken, if_neg other]
  · rw [stages_settled]
    exact (watchTaken_keeps l i m w s).2 .stages (by decide)

end

theorem pressure_watchedSample (l : LineId) (i : Nat) (m : Bool) (s : State) :
    ((watchedSample l i m s).line l).pressure = ((sampleRead l i m .closed s).line l).pressure := by
  rw [watchedSample, line_settleStartCheck]
  exact congrArg Prod.fst ((watchEvaluation_keeps l _ _).2 .meters (by decide) l :)

/-! ### The event at a sample -/

section
variable (state : (s.line l).state = .watch) {rise : Int}
  (eq : watchEvaluation l (s.sampling l i m).2.1.regain (sampleRead l i m .closed s) =
    connectionEvent l w b rise (watchTaken l i m w' s))
include state

theorem suspected_watchTaken (hole : Nat) (n : LineId) (z : Stage) :
    (watchTaken l i m w' s).suspected hole n z ↔ s.suspected hole n z :=
  suspected_congr (l := l) (fun n other => by rw [line_watchTaken, if_neg other]) state (state_watchTaken state i m w')
    (stage_watchTaken l i m w' s) hole n z

theorem neighbour_watchTaken (hole : Nat) (n : LineId) :
    (watchTaken l i m w' s).neighbour hole n ↔ s.neighbour hole n :=
  neighbour_congr (l := l) (fun n other => by rw [line_watchTaken, if_neg other]) state (state_watchTaken state i m w')
    (stage_watchTaken l i m w' s) hole n

theorem not_suspected_watching (hole : Nat) (z : Stage) : ¬ s.suspected hole l z := fun suspect => by
  have live := suspected_live suspect
  rw [state] at live
  nomatch live

theorem line_ne_of_suspected (suspect : s.suspected hole n z) : n ≠ l := fun same =>
  not_suspected_watching state hole z (same ▸ suspect)

omit state in
theorem stages_watchTaken (n : LineId) : ((watchTaken l i m w' s).line n).stage = (s.line n).stage := by
  rw [line_watchTaken]
  split
  · subst n
    exact readLine_stage s l i m .closed
  · rfl

include eq

omit state in
theorem line_watchedSample (n : LineId) : (watchedSample l i m s).line n =
    (connectionEvent l w b rise (watchTaken l i m w' s)).line n := by
  rw [watchedSample, eq, line_settleStartCheck]

theorem line_watch_self : (watchedSample l i m s).line l = (watchTaken l i m w' s).line l := by
  rw [line_watchedSample eq]
  exact line_event_other (fun z suspect => not_suspected_watching (state_watchTaken state i m w') _ z suspect) _ _ _

theorem line_watch_suspected (suspect : s.suspected w.hole n z) :
    (watchedSample l i m s).line n = (s.line n).connected z := by
  rw [line_watchedSample eq, line_event_suspected ((suspected_watchTaken state ..).mpr suspect), line_watchTaken,
    if_neg (line_ne_of_suspected state suspect)]

theorem line_watch_other (other : n ≠ l) (clear : ∀ z, ¬ s.suspected w.hole n z) :
    (watchedSample l i m s).line n = s.line n := by
  rw [line_watchedSample eq,
    line_event_other (fun z suspect => clear z ((suspected_watchTaken state ..).mp suspect)), line_watchTaken,
    if_neg other]

theorem stage_watch_suspected (suspect : s.suspected w.hole n z)
    (alone : ∀ n', (s.line n').stage = (s.line n).stage → n' = n) :
    (watchedSample l i m s).stage? z.key = some (z.connected s.counterTop) := by
  have top : (watchTaken l i m w' s).counterTop = s.counterTop :=
    counterTop_congr ((watchTaken_keeps l i m w' s).2 .settings (by decide) :)
  rw [watchedSample, eq, stage_settled,
    stage_event_suspected ((suspected_watchTaken state ..).mpr suspect) fun n' same => alone n' ?_, top]
  rwa [stages_watchTaken, stages_watchTaken] at same

omit state in
theorem connections_watch : (watchedSample l i m s).connections =
    (watchTaken l i m w' s).connectionLog l w b rise s.connections := by
  rw [watchedSample, eq, connections_settled, connections_connectionEvent, connections_watchTaken]

end

theorem state_watchedSample (state : (s.line l).state = .watch) (watch : (s.line l).watch = some w) (i : Nat) (m : Bool) :
    ((watchedSample l i m s).line l).state = .watch := by
  have watch' : ((sampleRead l i m .closed s).line l).watch = some w := by
    rw [line_sampleRead_self, readLine_watching state]
    exact watch
  obtain ⟨w', taken | ⟨v, b, rise, fired⟩⟩ := watchEvaluation_outcome watch' (s.sampling l i m).2.1.regain
  · rw [watchedSample, line_settleStartCheck, taken]
    exact state_watchTaken state i m w'
  · rw [watchedSample, line_settleStartCheck, fired]
    refine (congrArg Line.state (line_event_other (fun z suspect => ?_) l b rise)).trans (state_watchTaken state i m w')
    exact not_suspected_watching (state_watchTaken state i m w') _ z suspect

end

/-- Settles O49: the watch settles, counts, fires and rearms; a connection's candidates, their lines and stages. -/
theorem watchFindsConnections : Obligations.WatchFindsConnections := by
  intro s l i m w x present state command travel watch
  have here : (sampleRead l i m .closed s).line l = (s.sampling l i m).1.readValve .closed := by
    rw [line_sampleRead_self, readLine_watching state]
  have watch' : ((sampleRead l i m .closed s).line l).watch = some w := by rw [here]; exact watch
  have pressure : ((sampleRead l i m .closed s).line l).pressure = (s.sampling l i m).2.1.channel := by rw [here]; rfl
  have threshold : ((sampleRead l i m .closed s).line l).inForce.watch = (s.line l).settings.watch := by rw [here]; rfl
  have regain : (s.sampling l i m).2.1.channel.validity = .valid →
      ((s.sampling l i m).2.1.regain = true ↔ (s.line l).pressure.validity = .regain2) := regain_of_valid
  have meter : ((watchedSample l i m s).line l).pressure = ((sampleRead l i m .closed s).line l).pressure :=
    pressure_watchedSample l i m s
  refine ⟨watchedSample l i m s, exec_watching present state command travel i m, state_watchedSample state watch i m, ?_⟩
  dsimp only
  rw [meter, ← threshold]
  refine ⟨fun invalid => ?_, fun valid again => ?_, fun valid first settling => ?_, fun b valid first settled => ?_⟩
  · have left := watches_taken i m _ (watchEvaluation_invalid watch' invalid _)
    exact ⟨left.watch, left.connections⟩
  · have left := watches_taken i m { w with baseline := none, settle := 1, armed := true, rise := 0, rearm := 0 } (by
      rw [(regain (pressure ▸ valid)).mpr again]
      exact watchEvaluation_regained watch' valid)
    exact ⟨left.connections, left.watch⟩
  · have not : (s.sampling l i m).2.1.regain = false :=
      Bool.eq_false_iff.mpr ((regain (pressure ▸ valid)).not.mpr first)
    have left := watches_taken i m _ (by rw [not]; exact watchEvaluation_settles watch' valid settling)
    exact ⟨left.connections, left.watch⟩
  · have not : (s.sampling l i m).2.1.regain = false :=
      Bool.eq_false_iff.mpr ((regain (pressure ▸ valid)).not.mpr first)
    generalize hpg : ((sampleRead l i m .closed s).line l).pressure.value.toNat = pg
    generalize hthr : ((sampleRead l i m .closed s).line l).inForce.watch = thr
    have compares {w' : Watch} {r : Bool} (compared : w.compare thr ((pg : Int) - b) = (w', r)) :
        watchEvaluation l (s.sampling l i m).2.1.regain (sampleRead l i m .closed s) =
          if r then connectionEvent l w b ((pg : Int) - b) (watchTaken l i m w' s) else watchTaken l i m w' s := by
      subst hpg hthr
      rw [not]
      exact watchEvaluation_compares watch' valid settled compared
    have counts (armed : w.armed = true) (quiet : ¬ w.fires thr b pg) :=
      watches_taken i m _ (compares (compare_counts armed quiet))
    have rearms (unarmed : w.armed = false) := watches_taken i m _ (compares (compare_rearms unarmed))
    refine ⟨fun armed quiet => (counts armed quiet).watch, fun unarmed => (rearms unarmed).watch, fun quiet => ?_,
      fun fires => ?_⟩
    · cases armed : w.armed with
      | true => exact ⟨(counts armed quiet).connections, (counts armed quiet).others, (counts armed quiet).stages⟩
      | false => exact ⟨(rearms armed).connections, (rearms armed).others, (rearms armed).stages⟩
    · have eq := compares (compare_fires fires)
      have self := line_watch_self state eq
      have log := connections_watch eq
      refine ⟨?_, ⟨(watchTaken l i m { w with armed := false, rise := 0, rearm := 0 } s).connectionRecord l w b
        ((pg : Int) - b), ?_, ?_, ?_, rfl, rfl, rfl, rfl, rfl, ?_, ?_, fun n j => ?_⟩, ?_, fun n z suspect hold => ?_,
        fun n z suspect note => ?_, fun n other clear => line_watch_other state eq other clear,
        fun n z g suspect alone active progress => ?_⟩
      · rw [self, line_watchTaken, if_pos rfl]
      · rw [log]
        simp only [State.connectionLog, lastN, List.length_append, List.length_singleton]
      · exact congrArg ConnectionLog.nextNumber (connections_watchTaken ..)
      · exact congrArg Clock.site ((watchTaken_keeps l i m _ s).2 .clock (by decide) :)
      · refine (attributed_candidates ..).trans (exists_congr fun n => ?_)
        exact neighbour_watchTaken state w.hole n
      · have ascend := candidates_ascend (watchTaken l i m { w with armed := false, rise := 0, rearm := 0 } s) w.hole
        simpa only [State.connectionRecord, List.map_map, Function.comp_def] using ascend
      · have member (z : Stage) := (mem_candidates (watchTaken l i m { w with armed := false, rise := 0, rearm := 0 } s)
          w.hole n z).trans (suspected_watchTaken state w.hole n z)
        simp only [State.connectionRecord, List.mem_map, Prod.mk.injEq]
        constructor
        · rintro ⟨⟨n', z⟩, mem, rfl, key⟩
          exact ⟨z, (member z).mp mem, key⟩
        · rintro ⟨z, suspect, key⟩
          exact ⟨(n, z), (member z).mpr suspect, rfl, key⟩
      · rw [log]
        rfl
      · rw [line_watch_suspected state eq suspect, Line.connected, if_pos hold]
      · rw [line_watch_suspected state eq suspect, Line.connected, if_neg (by rw [note]; decide)]
      · rw [← connected_active active progress]
        exact stage_watch_suspected state eq suspect alone

end Sys2Proof.Machine
end

section
/-! PROOFS. The measurements of a line sample (R32, R68 to R77). -/

namespace Sys2Proof.Machine

section
variable {s t u : State} {l n : LineId} {z : Stage} {x y : Line} {c : Computed} {r : Records} {e : FaultEntry}
  {i : Nat} {m o p : Bool} {rb : Readback} {code : FaultCode} {detail : Nat}

/-! ### What leaves every readback (R32) -/

/-- Every line keeps its readback. -/
def sameReadbacks (s t : State) : Prop := ∀ n, (t.line n).readback = (s.line n).readback

theorem sameReadbacks_refl (s : State) : sameReadbacks s s := fun _ => rfl

theorem sameReadbacks.trans (h : sameReadbacks s t) (h' : sameReadbacks t u) : sameReadbacks s u :=
  fun n => (h' n).trans (h n)

theorem sameReadbacks_of_line {f : Line → Line} (line : ∀ n, t.line n = if n = l then f (s.line l) else s.line n)
    (read : ∀ x, (f x).readback = x.readback) : sameReadbacks s t := fun n => by
  rw [line n]
  split
  · subst n; exact read _
  · rfl

theorem readbacks_updLine (s : State) (l : LineId) {f : Line → Line} (read : ∀ x, (f x).readback = x.readback) :
    sameReadbacks s (s.updLine l f) := sameReadbacks_of_line (fun n => line_updLine s l n f) read

theorem readback_held (q : HoldCause) (x : Line) : (x.held q).readback = x.readback :=
  (congrArg Line.readback (steady_held q x) :)

theorem readbacks_recordEvaluation (l : LineId) (c : Computed) (s : State) : sameReadbacks s (recordEvaluation l c s) :=
  sameReadbacks_of_line (line_recordEvaluation l c s) fun _ => rfl

theorem readbacks_updDecision (l : LineId) (f : DecisionRecord → DecisionRecord) (s : State) :
    sameReadbacks s (updDecision l f s) :=
  sameReadbacks_of_line (f := fun x => { x with decision := x.decision.map f }) (line_updDecision l f s) fun _ => rfl

theorem readbacks_overpressureStep (l : LineId) (c : Computed) (s : State) : sameReadbacks s (overpressureStep l c s) :=
  sameReadbacks_of_line (line_overpressureStep l c s) fun x => (congrArg Line.readback (steady_pressed c x) :)

theorem readbacks_fractureStep (l : LineId) (z : Stage) (c : Computed) (s : State) :
    sameReadbacks s (fractureStep l z c s) := fun n => by
  rw [line_fractureStep]
  split
  case isTrue h => rw [h.1, readback_held]
  case isFalse => rfl

theorem readbacks_endStage (l : LineId) (k : StageKey) (cause : EndCause) (reason : EndReason) (s : State) :
    sameReadbacks s (endStage l k cause reason s) := fun n => by
  have kept (n : LineId) : (completeStage (some l) k cause (s.line l).values s).line n = s.line n :=
    (completeStage_keeps _ _ _ _ _).line (by decide) (by decide) (by decide) n
  rw [endStage, line_closeLine, kept, kept]
  split
  · subst n; rfl
  · rfl

theorem readbacks_stageEndUnit (l : LineId) (st : LineState) (z : Stage) (c : Computed) (s : State) :
    sameReadbacks s (stageEndUnit l st z c s) := by
  unfold stageEndUnit
  split
  · exact readbacks_updDecision _ _ _
  split
  · dsimp only
    split
    · exact (readbacks_updDecision _ _ _).trans (readbacks_endStage _ _ _ _ _)
    · exact (readbacks_updDecision _ _ _).trans
        ((readbacks_overpressureStep _ _ _).trans (readbacks_fractureStep _ _ _ _))
  · exact readbacks_overpressureStep _ _ _
  all_goals exact sameReadbacks_refl _

theorem readbacks_thickenLine (l : LineId) (z : Stage) (pe : Nat) (s : State) : sameReadbacks s (thickenLine l z pe s) :=
  sameReadbacks_of_line (line_thickenLine l z pe s) fun x => (congrArg Line.readback (mixless_thickened z pe x) :)

theorem readbacks_dropPendingVolume (l : LineId) (s : State) : sameReadbacks s (dropPendingVolume l s) :=
  readbacks_updLine s l fun _ => rfl

theorem readbacks_evaluate (l : LineId) (s : State) : sameReadbacks s (evaluate l s) := by
  cases bound : s.boundStage l with
  | none =>
    unfold evaluate
    rw [bound]
    exact sameReadbacks_refl s
  | some z =>
    have unit := (readbacks_recordEvaluation l (s.evaluationOf (s.line l) z) s).trans
      (readbacks_stageEndUnit l (s.line l).state z (s.evaluationOf (s.line l) z) _)
    rw [evaluate_eq bound]
    split
    · exact unit.trans (readbacks_dropPendingVolume _ _)
    split
    · exact unit.trans (readbacks_thickenLine _ _ _ _)
    · exact unit

theorem readbacks_connectAll (hole : Nat) (cs : List (LineId × Stage)) (s : State) :
    sameReadbacks s (connectAll hole cs s) := by
  induction cs generalizing s with
  | nil => exact sameReadbacks_refl s
  | cons c cs ih =>
    refine sameReadbacks.trans (fun n => ?_) (ih (connectCandidate hole c s))
    rw [line_connectCandidate]
    unfold Line.connected
    split
    · split
      · exact readback_held _ _
      · rfl
    · rfl

theorem readbacks_watched (l : LineId) (w : Watch) (s : State) : sameReadbacks s (watched l w s) :=
  sameReadbacks_of_line (f := fun x => { x with watch := some w }) (line_watched l w s) fun _ => rfl

theorem readbacks_watchEvaluation (l : LineId) (b : Bool) (s : State) : sameReadbacks s (watchEvaluation l b s) := by
  cases watch : (s.line l).watch with
  | none =>
    unfold watchEvaluation
    simp only [watch]
    exact sameReadbacks_refl s
  | some w =>
    obtain ⟨w', taken | ⟨v, b, rise, fired⟩⟩ := watchEvaluation_outcome watch b
    · rw [taken]
      exact readbacks_watched l w' s
    · rw [fired]
      refine (readbacks_watched l w' s).trans fun n => ?_
      rw [line_connectionEvent]
      exact readbacks_connectAll _ _ _ n

theorem readbacks_sampleUsed (l : LineId) (a b : Bool) (s : State) : sameReadbacks s (sampleUsed l a b s) := by
  have evaluated : sameReadbacks s (if b then s else evaluate l s) := by
    split
    · exact sameReadbacks_refl s
    · exact readbacks_evaluate l s
  unfold sampleUsed
  cases (s.line l).state with
  | armed | injecting | holding => exact evaluated
  | watch => exact readbacks_watchEvaluation _ _ _
  | idle | opening | closing | isolated => exact sameReadbacks_refl s

/-! ### The valve compare takes the readback -/

theorem readbacks_confirmValve (l : LineId) (s : State) : sameReadbacks s (confirmValve l s) := by
  have idle : sameReadbacks s (s.updLine l Line.toIdle) := readbacks_updLine s l fun _ => rfl
  have armed : sameReadbacks s (enterArmed l s) :=
    sameReadbacks_of_line
      (f := fun x => { x with state := .armed, causes := s.standingCauses x, recordTimer := some 0 })
      (line_enterArmed l s) fun _ => rfl
  unfold confirmValve
  dsimp only
  split
  · split
    · exact armed
    · exact sameReadbacks_refl s
  · split
    · exact idle
    · exact sameReadbacks_refl s
  all_goals exact sameReadbacks_refl s

theorem readback_isolateFor (f : ValveFault) (n : Nat) (x : Line) : (x.isolateFor f n).readback = x.readback := by
  unfold Line.isolateFor Line.drive
  by_cases closed : x.command = .closed <;> simp [closed]

theorem readback_valveFault (f : ValveFault) (rb : Readback) (l : LineId) (s : State) :
    ((valveFault f rb l s).line l).readback = (s.line l).readback := by
  rw [line_valveFault, if_pos rfl, readback_isolateFor]

theorem readback_valveCompare (l : LineId) (rb : Readback) (s : State) : ((valveCompare l rb s).line l).readback = rb := by
  unfold valveCompare
  dsimp only
  split
  · rw [line_setLine_self]; rfl
  · split
    · rw [readback_valveFault, line_setLine_self]; rfl
    · rw [readback_valveFault, line_setLine_self]; rfl
    · rw [readbacks_confirmValve, line_setLine_self]; rfl

/-! ### What the valve compare leaves of the fault history (R162) -/

theorem entry_valveFault (within : s.record.entryWithin 1 e) (f : ValveFault) (rb : Readback) (l : LineId) :
    e ∈ (valveFault f rb l s).record.faults := by
  rw [record_valveFault]
  split
  · exact (entryWithin_entered (entryWithin_entered within (by decide) ..) (by decide) ..).mem
  · exact (entryWithin_entered within (by decide) ..).mem

theorem latched_valveFault (latched : code ∈ s.record.latched) (f : ValveFault) (rb : Readback) (l : LineId) :
    code ∈ (valveFault f rb l s).record.latched := by
  rw [record_valveFault]
  split <;> simp [mem_latched_entered, latched]

/-- The valve compare keeps every latched flag, and the newest two entries of the fault history. -/
theorem record_valveCompare (l : LineId) (rb : Readback) (s : State) :
    (∀ code, code ∈ s.record.latched → code ∈ (valveCompare l rb s).record.latched) ∧
    (∀ e, s.record.entryWithin 1 e → e ∈ (valveCompare l rb s).record.faults) := by
  unfold valveCompare
  dsimp only
  split
  · exact ⟨fun _ h => h, fun _ h => h.mem⟩
  · split
    · exact ⟨fun _ h => latched_valveFault (by exact h) _ _ _, fun _ h => entry_valveFault (by exact h) _ _ _⟩
    · exact ⟨fun _ h => latched_valveFault (by exact h) _ _ _, fun _ h => entry_valveFault (by exact h) _ _ _⟩
    · rw [(confirmValve_keeps _ _).record (by decide)]
      exact ⟨fun _ h => h, fun _ h => h.mem⟩

theorem sampleUsed_keeps (l : LineId) (a b : Bool) (s : State) :
    keeps [.lines, .mixOrder, .queues, .stages, .writes, .completions, .connections] s (sampleUsed l a b s) := by
  have evaluated : keeps [.lines, .mixOrder, .queues, .stages, .writes, .completions, .connections] s
      (if b then s else evaluate l s) := by
    split
    · exact keeps_refl _ s
    · exact (evaluate_keeps l s).mono (by decide)
  unfold sampleUsed
  cases (s.line l).state with
  | armed | injecting | holding => exact evaluated
  | watch => exact (watchEvaluation_keeps _ _ _).mono (by decide)
  | idle | opening | closing | isolated => exact keeps_refl _ s

/-! ### The part after a sample (R68 to R77) -/

/-- The part after a sample of a line present. -/
def sampled (l : LineId) (i : Nat) (m : Bool) (rb : Readback) (s : State) : State :=
  settleStartCheck (sampleUsed l (s.sampling l i m).2.1.regain (((channelsTaken l i m s).line l).state == .opening)
    (valveCompare l rb (channelsTaken l i m s)))

theorem sampled_after (l : LineId) (i : Nat) (m : Bool) (rb : Readback) (s : State) :
    keeps [.lines, .mixOrder, .queues, .stages, .writes, .completions, .connections, .startCheck]
      (valveCompare l rb (channelsTaken l i m s)) (sampled l i m rb s) :=
  (settleStartCheck_keeps _).after (by decide) ((sampleUsed_keeps _ _ _ _).mono (by decide))

theorem readback_sampled (l : LineId) (i : Nat) (m : Bool) (rb : Readback) (s : State) :
    ((sampled l i m rb s).line l).readback = rb := by
  rw [sampled, line_settleStartCheck, readbacks_sampleUsed, readback_valveCompare]

theorem parts_sampled (l : LineId) (i : Nat) (m : Bool) (rb : Readback) (s : State) (n : LineId) :
    ((sampled l i m rb s).line n).meterPart = ((channelsTaken l i m s).line n).meterPart ∧
    ((sampled l i m rb s).line n).settingsPart = ((channelsTaken l i m s).line n).settingsPart := by
  have kept : keeps _ (channelsTaken l i m s) (sampled l i m rb s) :=
    (sampled_after l i m rb s).after (A := [.lines, .mixOrder, .queues, .stages, .writes, .completions, .connections,
      .startCheck, .lockdown, .faults, .exercise, .cuts]) (by decide) ((valveCompare_keeps _ _ _).mono (by decide))
  exact ⟨(kept.2 .meters (by decide) n :), (kept.2 .lineSettings (by decide) n :)⟩

theorem parts_sampled_self (l : LineId) (i : Nat) (m : Bool) (rb : Readback) (s : State) :
    ((sampled l i m rb s).line l).meterPart = (s.sampling l i m).1.meterPart ∧
    ((sampled l i m rb s).line l).settingsPart = (s.sampling l i m).1.settingsPart := by
  obtain ⟨meters, settings⟩ := parts_sampled l i m rb s l
  have same := sampledLine_steady s l i m
  rw [line_channelsTaken, if_pos rfl] at meters settings
  exact ⟨meters.trans (congrArg Line.meterPart same :), settings.trans (congrArg Line.settingsPart same :)⟩

theorem faults_sampled (l : LineId) (i : Nat) (m : Bool) (rb : Readback) (s : State) :
    (∀ code, code ∈ (s.sampledRecord l i m).latched → code ∈ (sampled l i m rb s).record.latched) ∧
    (∀ e, (s.sampledRecord l i m).entryWithin 1 e → e ∈ (sampled l i m rb s).record.faults) := by
  obtain ⟨latched, entries⟩ := record_valveCompare l rb (channelsTaken l i m s)
  obtain ⟨faults, -, flags⟩ := (sampled_after l i m rb s).2 .faults (by decide)
  rw [record_channelsTaken] at latched entries
  rw [faults, flags]
  exact ⟨latched, entries⟩

/-! ### The entry of a loss (R77) -/

/-- The entry that a loss of one of the line's channels makes. -/
def FaultEntry.isLoss (s : State) (l : LineId) (code : FaultCode) (detail : Nat) (e : FaultEntry) : Prop :=
  e.code = code ∧ e.detail = .value detail ∧ e.location = some (.line l) ∧ e.time = s.clock.site ∧
  e.consequence = if (s.line l).state ∈ [LineState.armed, .injecting, .holding] then .hold else .record

theorem lossClass_eq (st : LineState) :
    st.lossClass = if st ∈ [LineState.armed, .injecting, .holding] then .hold else .record := by
  unfold LineState.lossClass
  simp only [evaluated_iff]

theorem isLoss_entered (s : State) (l : LineId) (code : FaultCode) (detail n : Nat) :
    FaultEntry.isLoss s l code detail ⟨n, code, .value detail, s.clock.site, some (.line l), (s.line l).state.lossClass⟩ :=
  ⟨rfl, rfl, rfl, rfl, lossClass_eq _⟩

theorem pressureLost_sampledRecord (loss : (s.sampling l i m).2.1.loss = true) :
    .pressureLost ∈ (s.sampledRecord l i m).latched ∧
    ∃ e, (s.sampledRecord l i m).entryWithin 1 e ∧ e.isLoss s l .pressureLost i := by
  unfold State.sampledRecord
  simp only [if_pos loss]
  have first := entryWithin_entered_self .pressureLost (.value i) s.clock.site (some (.line l)) (s.line l).state.lossClass
    s.record
  split
  · refine ⟨?_, _, entryWithin_entered first (by decide) .., isLoss_entered ..⟩
    rw [mem_latched_entered, mem_latched_entered]
    exact .inr (.inl rfl)
  · refine ⟨?_, _, first.mono (by decide), isLoss_entered ..⟩
    rw [mem_latched_entered]
    exact .inl rfl

theorem flowLost_sampledRecord (loss : (s.sampling l i m).2.2.loss = true) :
    .flowLost ∈ (s.sampledRecord l i m).latched ∧
    ∃ e, (s.sampledRecord l i m).entryWithin 1 e ∧ e.isLoss s l .flowLost 0 := by
  unfold State.sampledRecord
  simp only [if_pos loss]
  refine ⟨?_, _, (entryWithin_entered_self ..).mono (by decide), isLoss_entered ..⟩
  rw [mem_latched_entered]
  exact .inl rfl

end

end Sys2Proof.Machine
end

section
/-! PROOFS. Sensor loss (R77, R78). -/

namespace Sys2Proof.Machine

section
variable {s t u : State} {l n : LineId} {k : StageKey} {z : Stage} {x y : Line} {c : Computed} {d : DecisionRecord}
  {r : Sampled} {i : Nat} {m : Bool} {q q' : HoldCause}

/-! ### A cause added or removed (R39, R40) -/

theorem held_held (q : HoldCause) (x : Line) : (x.held q).held q = x.held q := by
  cases evaluated : x.state.evaluated with
  | false => rw [held_of_unevaluated evaluated, held_of_unevaluated evaluated]
  | true =>
    have present : (x.held q).causes.contains q = true := by
      simpa using (mem_causes_held evaluated q q).mpr (.inl rfl)
    exact if_pos present

theorem held_state (other : x.state ≠ .injecting) (q : HoldCause) : (x.held q).state = x.state := by
  unfold Line.held
  split
  · rfl
  · split <;> simp_all

theorem not_mem_freed (state : x.state = .armed ∨ x.state = .holding) (q : HoldCause) : q ∉ (x.freed q).causes := by
  unfold Line.freed
  rcases state with h | h <;> rw [h] <;> simp [withoutCause]

theorem mem_causes_held_of_ne (other : q ≠ q') (x : Line) : q ∈ (x.held q').causes ↔ q ∈ x.causes := by
  cases evaluated : x.state.evaluated
  · rw [held_of_unevaluated evaluated]
  · rw [mem_causes_held evaluated]
    simp [other]

/-- The overpressure counts change no cause but OVERPRESSURE. -/
theorem mem_causes_pressed_other (other : q ≠ .overpressure) (decision : x.decision = some d) (c : Computed) :
    q ∈ (x.pressed c).causes ↔ q ∈ x.causes := by
  by_cases present : .overpressure ∈ x.causes
  · by_cases clears : c.pe ≤ c.ce ∧ 3 ≤ d.clear
    · rw [pressed_clears decision present clears.1 clears.2, mem_causes_freed_other other]
    · rw [pressed_waits decision present (by omega)]
  · by_cases raises : c.overpressureLimit < c.pe ∧ 1 ≤ d.raise
    · rw [pressed_raises decision present raises.1 raises.2, mem_causes_held_of_ne other]
    · rw [pressed_counts decision present (by omega)]

/-! ### SENSOR after both samples (R78) -/

theorem affected_of_sensorLoss (loss : x.sensorLoss = true) (r : Sampled) : x.affected r = x.lossed r := by
  have still : (x.lossed r).sensorLoss = true := (sensorLoss_congr (steady_lossed r x)).trans loss
  exact if_neg (by simp [still])

theorem affected_of_sound (sound : x.sensorLoss = false) (none : r.loss = false) :
    x.affected r = if r.regain then x.freed .sensor else x := by
  have same : x.lossed r = x := if_neg (by rw [none]; decide)
  rw [Line.affected, same, sound]
  simp

/-- A line with a channel in a loss takes SENSOR exactly when a channel was lost at this sample. -/
theorem sampledLine_of_sensorLoss (loss : (s.sampling l i m).1.sensorLoss = true) :
    s.sampledLine l i m =
      if (s.sampling l i m).2.1.loss = true ∨ (s.sampling l i m).2.2.loss = true then (s.sampling l i m).1.held .sensor
      else (s.sampling l i m).1 := by
  have still : ((s.sampling l i m).1.lossed (s.sampling l i m).2.1).sensorLoss = true :=
    (sensorLoss_congr (steady_lossed _ _)).trans loss
  rw [State.sampledLine, affected_of_sensorLoss loss, affected_of_sensorLoss still]
  unfold Line.lossed
  by_cases first : (s.sampling l i m).2.1.loss = true
  · simp only [if_pos first, held_held, ite_self]
    exact (if_pos (.inl first)).symm
  · simp only [if_neg first]
    exact if_congr (or_iff_right first).symm rfl rfl

/-- A line with no channel in a loss is freed of SENSOR when a channel regained at this sample. -/
theorem sampledLine_of_sound (sound : (s.sampling l i m).1.sensorLoss = false)
    (first : (s.sampling l i m).2.1.loss = false) (second : (s.sampling l i m).2.2.loss = false) :
    s.sampledLine l i m =
      if (s.sampling l i m).2.1.regain = true ∨ (s.sampling l i m).2.2.regain = true then
        (s.sampling l i m).1.freed .sensor
      else (s.sampling l i m).1 := by
  have still : ((s.sampling l i m).1.freed .sensor).sensorLoss = false :=
    (sensorLoss_congr (steady_freed _ _)).trans sound
  rw [State.sampledLine, affected_of_sound sound first]
  by_cases regain : (s.sampling l i m).2.1.regain = true
  · rw [if_pos regain, affected_of_sound still second, freed_freed, ite_self]
    exact (if_pos (.inl regain)).symm
  · rw [if_neg regain, affected_of_sound sound second]
    exact if_congr (or_iff_right regain).symm rfl rfl

/-! ### The channels of the sample -/

/-- The channel is in a loss (R78). -/
def Channel.lossy (a : Channel) : Prop := a.validity ∈ [Validity.lost, .regain1, .regain2]

theorem sensorLoss_sampling (s : State) (l : LineId) (i : Nat) (m : Bool) :
    (s.sampling l i m).1.sensorLoss = true ↔
      (s.sampling l i m).2.1.channel.lossy ∨ (s.sampling l i m).2.2.channel.lossy := by
  have eq : (s.sampling l i m).1.sensorLoss =
      ((s.sampling l i m).2.1.channel.inLoss || (s.sampling l i m).2.2.channel.inLoss) := rfl
  rw [eq, Bool.or_eq_true, inLoss_iff, inLoss_iff]
  rfl

theorem loss_pressure (s : State) (l : LineId) (i : Nat) (m : Bool) :
    (s.sampling l i m).2.1.loss = true ↔
      (s.line l).pressure.validity = .suspect ∧ (s.sampling l i m).2.1.channel.validity = .lost := loss_sample ..

theorem loss_flow (s : State) (l : LineId) (i : Nat) (m : Bool) :
    (s.sampling l i m).2.2.loss = true ↔
      (s.line l).flow.validity = .suspect ∧ (s.sampling l i m).2.2.channel.validity = .lost := loss_sample ..

theorem lossy_of_lost {a : Channel} (lost : a.validity = .lost) : a.lossy := by
  rw [Channel.lossy, lost]
  decide

theorem stale_of_sensorLoss (loss : (s.sampling l i m).1.sensorLoss = true) (z : Stage) :
    (s.evaluates l i m z).stale = true := by
  have invalid {a : Channel} (lossy : a.lossy) : a.validity ≠ .valid := fun valid => by
    rw [Channel.lossy, valid] at lossy
    revert lossy
    decide
  rw [evaluates_stale]
  exact ((sensorLoss_sampling s l i m).mp loss).imp invalid invalid

theorem not_loss_of_sound (sound : (s.sampling l i m).1.sensorLoss ≠ true) :
    (s.sampling l i m).2.1.loss = false ∧ (s.sampling l i m).2.2.loss = false := by
  rw [Ne, sensorLoss_sampling, not_or] at sound
  exact ⟨Bool.eq_false_iff.mpr fun h => sound.1 (lossy_of_lost ((loss_pressure ..).mp h).2),
    Bool.eq_false_iff.mpr fun h => sound.2 (lossy_of_lost ((loss_flow ..).mp h).2)⟩

/-! ### SENSOR after the evaluation (R39, R78) -/

section
variable (ev : evaluating s l k z d)
include ev

/-- A stale evaluation leaves the state, the causes and the hold timer of its line. -/
theorem line_of_stale (stale : (s.evaluates l i m z).stale = true) :
    ((evaluatedSample l i m s).line l).causes = (s.sampledLine l i m).causes ∧
    ((evaluatedSample l i m s).line l).state = (s.sampledLine l i m).state ∧
    ((evaluatedSample l i m s).line l).holdTimer = (s.sampledLine l i m).holdTimer := by
  rw [line_sample_stale ev stale]
  exact ⟨rfl, rfl, rfl⟩

theorem sensor_of_loss (lost : (s.sampling l i m).2.1.loss = true ∨ (s.sampling l i m).2.2.loss = true) :
    .sensor ∈ ((evaluatedSample l i m s).line l).causes ∧
    ((s.line l).state = .injecting → .sensor ∉ (s.line l).causes →
      ((evaluatedSample l i m s).line l).state = .holding ∧ ((evaluatedSample l i m s).line l).holdTimer = some 0) ∧
    ((s.line l).state ≠ .injecting → ((evaluatedSample l i m s).line l).state = (s.line l).state) := by
  have loss : (s.sampling l i m).1.sensorLoss = true := by
    rw [sensorLoss_sampling]
    exact lost.imp (fun h => lossy_of_lost ((loss_pressure ..).mp h).2) fun h => lossy_of_lost ((loss_flow ..).mp h).2
  obtain ⟨causes, state, timer⟩ := line_of_stale ev (stale_of_sensorLoss loss z)
  rw [causes, state, timer, sampledLine_of_sensorLoss loss, if_pos lost]
  refine ⟨?_, fun injecting absent => ?_, fun other => ?_⟩
  · exact (mem_causes_held (x := (s.sampling l i m).1) (evaluating_evaluated ev) _ _).mpr (.inl rfl)
  · rw [held_into (by exact injecting) (by exact absent)]
    exact ⟨rfl, rfl⟩
  · exact held_state (x := (s.sampling l i m).1) other _

theorem sensor_stays (loss : (s.sampling l i m).1.sensorLoss = true) (present : .sensor ∈ (s.line l).causes) :
    .sensor ∈ ((evaluatedSample l i m s).line l).causes := by
  obtain ⟨causes, -, -⟩ := line_of_stale ev (stale_of_sensorLoss loss z)
  rw [causes, sampledLine_of_sensorLoss loss]
  split
  · exact (mem_causes_held (x := (s.sampling l i m).1) (evaluating_evaluated ev) _ _).mpr (.inl rfl)
  · exact present

theorem sensor_of_regain (sound : (s.sampling l i m).1.sensorLoss ≠ true)
    (back : (s.sampling l i m).2.1.regain = true ∨ (s.sampling l i m).2.2.regain = true)
    (state : (s.line l).state = .armed ∨ (s.line l).state = .holding) :
    .sensor ∉ ((evaluatedSample l i m s).line l).causes ∧
    ((evaluatedSample l i m s).line l).state = (s.line l).state := by
  obtain ⟨first, second⟩ := not_loss_of_sound sound
  have line : s.sampledLine l i m = (s.sampling l i m).1.freed .sensor := by
    rw [sampledLine_of_sound (Bool.eq_false_iff.mpr sound) first second, if_pos back]
  have absent : .sensor ∉ (s.sampledLine l i m).causes := by
    rw [line]
    exact not_mem_freed (x := (s.sampling l i m).1) state _
  have same : (s.sampledLine l i m).state = (s.line l).state := by
    rw [line, freed_state]
    exact sampling_state s l i m
  cases stale : (s.evaluates l i m z).stale with
  | true =>
    obtain ⟨causes, left, -⟩ := line_of_stale ev stale
    rw [causes, left]
    exact ⟨absent, same⟩
  | false =>
    rcases state with armed | holding
    · rw [line_sample_armed ev stale armed]
      exact ⟨absent, same⟩
    · rw [line_sample_holding ev stale holding,
        mem_causes_pressed_other (x := (s.readLine l i m .opened).valued (s.evaluates l i m z)) (by decide)
          (decision_of_fresh ev stale),
        pressed_holding (x := (s.readLine l i m .opened).valued (s.evaluates l i m z)) (same.trans holding), holding]
      exact ⟨absent, rfl⟩

end

end

/-- Settles O42: what a sample measures and enters, and SENSOR after a loss and a regain. -/
theorem lineSampleMeasuresAndHoldsBySensor : Obligations.LineSampleMeasuresAndHoldsBySensor := by
  refine ⟨fun s l i m o c absent => exec_lineSample_absent absent i m o c, fun s l i m o c present => ?_,
    fun s l i m k z d ev => ?_⟩
  · obtain ⟨meters, settings⟩ := parts_sampled_self l i m (readbackOf o c) s
    obtain ⟨latched, entries⟩ := faults_sampled l i m (readbackOf o c) s
    have window : pushWindow (s.line l).pulses (s.line l).window =
        ((s.line l).window ++ [(s.line l).pulses]).drop ((s.line l).window.length + 1 - 16) := by
      rw [pushWindow, lastN, List.length_append, List.length_singleton]
    have pressure : ((sampled l i m (readbackOf o c) s).line l).pressure = (s.sampling l i m).2.1.channel :=
      congrArg Prod.fst meters
    have flow : ((sampled l i m (readbackOf o c) s).line l).flow = (s.sampling l i m).2.2.channel :=
      congrArg (fun p => p.2.1) meters
    refine ⟨sampled l i m (readbackOf o c) s, ?_⟩
    dsimp only
    rw [← window]
    refine ⟨exec_lineSample present i m o c, ?_, congrArg Prod.fst settings, congrArg Prod.snd settings,
      congrArg (fun p => p.2.2.1) meters, congrArg (fun p => p.2.2.2.1) meters, congrArg (fun p => p.2.2.2.2) meters,
      pressure, flow, fun was now => ?_, fun was now => ?_, fun n other => ?_⟩
    · rw [readback_sampled, readbackOf_eq]
    · obtain ⟨flag, e, entry, loss⟩ := pressureLost_sampledRecord ((loss_pressure s l i m).mpr ⟨was, pressure ▸ now⟩)
      exact ⟨latched _ flag, e, entries e entry, loss⟩
    · obtain ⟨flag, e, entry, loss⟩ := flowLost_sampledRecord ((loss_flow s l i m).mpr ⟨was, flow ▸ now⟩)
      exact ⟨latched _ flag, e, entries e entry, loss⟩
    · have parts := parts_sampled l i m (readbackOf o c) s n
      rwa [line_channelsTaken, if_neg other] at parts
  · obtain ⟨pressure, flow⟩ := meters_evaluatedSample l i m s
    refine ⟨evaluatedSample l i m s, ?_⟩
    dsimp only
    rw [pressure, flow]
    refine ⟨exec_evaluating ev i m, fun lost => ?_, fun back soundPressure soundFlow state => ?_, fun loss present => ?_⟩
    · exact sensor_of_loss ev (lost.imp (loss_pressure s l i m).mpr (loss_flow s l i m).mpr)
    · refine sensor_of_regain ev (fun loss => ?_) (back.imp (fun h => (regain_of_valid h.2).mpr h.1)
        fun h => (regain_of_valid h.2).mpr h.1) (by simpa using state)
      exact ((sensorLoss_sampling s l i m).mp loss).elim soundPressure soundFlow
    · exact sensor_stays ev ((sensorLoss_sampling s l i m).mpr loss) present

end Sys2Proof.Machine
end

section
/-! PROOFS. Metering, consumption and transit (R72, R125 to R127, R136). -/

namespace Sys2Proof.Machine

section
variable {s t u : State} {l n : LineId} {k : StageKey} {z : Stage} {x y : Line} {g : Progress} {w v : Nat}
  {b b' : Batch} {bs : List Batch} {e f : Transit} {es fs : List Transit} {c : Classes}

/-! ### Drawing from the batches (R125, R126) -/

theorem sum_drawBatches (w : Nat) (bs : List Batch) :
    ((drawBatches w bs).1.map Batch.remaining).sum = (bs.map Batch.remaining).sum - w ∧
    (drawBatches w bs).2 = w - (bs.map Batch.remaining).sum := by
  induction bs generalizing w with
  | nil => exact ⟨(Nat.zero_sub w).symm, rfl⟩
  | cons b bs ih =>
    unfold drawBatches
    rw [List.map_cons, List.sum_cons]
    by_cases enough : w < b.remaining
    · rw [if_pos enough, List.map_cons, List.sum_cons]
      dsimp only
      omega
    · obtain ⟨left, short⟩ := ih (w - b.remaining)
      rw [if_neg enough, left, short]
      omega

theorem drawBatches_first (enough : w < b.remaining) :
    (drawBatches w (b :: bs)).1 = { b with remaining := b.remaining - w } :: bs := by
  rw [drawBatches, if_pos enough]

theorem drawBatches_second (spent : b.remaining ≤ w) (enough : w < b.remaining + b'.remaining) :
    (drawBatches w (b :: b' :: bs)).1 = { b' with remaining := b.remaining + b'.remaining - w } :: bs := by
  have rest : b'.remaining - (w - b.remaining) = b.remaining + b'.remaining - w := by omega
  rw [drawBatches, if_neg (by omega), drawBatches_first (by omega), rest]

/-- The tank account after a consumption pulse, before the aged condition is decided. -/
def Grout.drawn (w : Nat) (g : Grout) : Grout :=
  { g with
    batches := (drawBatches w g.batches).1
    unaccounted := if (drawBatches w g.batches).2 = 0 then g.unaccounted
      else min volumeTop (g.unaccounted + (drawBatches w g.batches).2)
    noGrout := if (drawBatches w g.batches).2 = 0 then g.noGrout else true }

/-- The part once the grout has been drawn. -/
def drawnFrom (l : LineId) (w : Nat) (s : State) : State :=
  drawUnaccounted l (drawBatches w s.grout.batches).2
    (s.updGrout (fun g => { g with batches := (drawBatches w s.grout.batches).1 }))

theorem drawnFrom_keeps (l : LineId) (w : Nat) (s : State) : keeps [.batches, .account, .queues] s (drawnFrom l w s) :=
  (drawUnaccounted_keeps _ _ _).after (by decide) ((setBatches_keeps _ s (by intro; rfl)).mono (by decide))

theorem grout_drawnFrom (l : LineId) (w : Nat) (s : State) : (drawnFrom l w s).grout = s.grout.drawn w := by
  have posted (d : Option Int) (u : State) : (postPart .noGroutAccount d u).grout = u.grout :=
      (postPart_keeps _ _ _).grout (by decide)
  unfold drawnFrom drawUnaccounted Grout.drawn
  dsimp only
  by_cases none : (drawBatches w s.grout.batches).2 = 0
  · rw [if_pos none, if_pos none, if_pos none]
    rfl
  · rw [if_neg none, if_neg none, if_neg none]
    split
    · rfl
    · rw [posted]; rfl

/-- The part once the lines have taken up a change of the tank class. -/
def classTaken (l : LineId) (w : Nat) (s : State) : State := tankClassFrom s.grout.tankClass (drawnFrom l w s)

theorem consume_eq (l : LineId) (w : Nat) (s : State) :
    consume l w s = if (drawBatches w s.grout.batches).1.length < s.grout.batches.length then
      decideAged (classTaken l w s) else classTaken l w s := rfl

theorem grout_consume (l : LineId) (w : Nat) (s : State) :
    ∃ a, (consume l w s).grout = { s.grout.drawn w with aged := a } := by
  have taken : (classTaken l w s).grout = s.grout.drawn w := by
    rw [classTaken, grout_tankClassFrom, grout_drawnFrom]
  rw [consume_eq]
  split
  · exact ⟨_, by rw [grout_decideAged, taken]⟩
  · exact ⟨_, taken⟩

theorem tankClass_consume (l : LineId) (w : Nat) (s : State) :
    (consume l w s).grout.tankClass = (s.grout.drawn w).tankClass := by
  obtain ⟨a, grout⟩ := grout_consume l w s
  rw [grout]
  rfl

/-! ### The lines after a pulse (R127, R136) -/

theorem steady_decideAged (s : State) (n : LineId) : ((decideAged s).line n).steady = (s.line n).steady := by
  rw [line_decideAged]
  split
  · rfl
  · split
    · exact steady_held _ _
    · exact steady_freed _ _

theorem steady_consume (l : LineId) (w : Nat) (s : State) (n : LineId) :
    ((consume l w s).line n).steady =
      if (s.grout.drawn w).tankClass = s.grout.tankClass ∨ (s.grout.drawn w).tankClass = 0 ∨
        (s.line n).state.live = false then (s.line n).steady
      else ((s.line n).transited (s.grout.drawn w).tankClass).steady := by
  have drawn : (drawnFrom l w s).line n = s.line n :=
    (drawnFrom_keeps l w s).line (by decide) (by decide) (by decide) n
  have taken : ((consume l w s).line n).steady = ((classTaken l w s).line n).steady := by
    rw [consume_eq]
    split
    · exact steady_decideAged _ n
    · rfl
  rw [taken, classTaken, line_tankClassFrom, grout_drawnFrom, drawn]
  split
  · rfl
  · rfl

/-- A transit queue after a pulse of weight `w`: the oldest entry drawn, or done and the next drawn by the excess. -/
def drained (w : Nat) (q : List Transit) : List Transit :=
  match q with
  | [] => []
  | e :: es =>
    if w < e.remaining then { e with remaining := e.remaining - w } :: es
    else match es with
      | [] => []
      | f :: fs => { f with remaining := f.remaining - (w - e.remaining) } :: fs

/-- A line whose transit queue has advanced by a pulse (R136). -/
def Line.advanced (w : Nat) (x : Line) : Line :=
  match x.transit with
  | [] => x
  | e :: _ =>
    if w < e.remaining then { x with transit := drained w x.transit }
    else Line.reclassed e.cls { x with transit := drained w x.transit }

theorem drained_enough (enough : w < e.remaining) :
    drained w (e :: es) = { e with remaining := e.remaining - w } :: es := if_pos enough

theorem drained_next (spent : e.remaining ≤ w) :
    drained w (e :: f :: fs) = { f with remaining := f.remaining - (w - e.remaining) } :: fs :=
  if_neg (Nat.not_lt.mpr spent)

theorem drained_last (spent : e.remaining ≤ w) : drained w [e] = [] := if_neg (Nat.not_lt.mpr spent)

theorem cls_drained (spent : e.remaining ≤ w) : (drained w (e :: es)).map Transit.cls = es.map Transit.cls := by
  cases es with
  | nil => rw [drained_last spent]
  | cons f fs => rw [drained_next spent]; rfl

theorem advanced_empty (empty : x.transit = []) : x.advanced w = x := by
  unfold Line.advanced
  rw [empty]

theorem transit_advanced (w : Nat) (x : Line) : (x.advanced w).transit = drained w x.transit := by
  unfold Line.advanced
  cases transit : x.transit with
  | nil => exact transit
  | cons e es =>
    dsimp only
    split
    · rfl
    · rw [transit_reclassed]

theorem advanced_enough (transit : x.transit = e :: es) (enough : w < e.remaining) :
    x.advanced w = { x with transit := drained w x.transit } := by
  unfold Line.advanced
  simp only [transit, if_pos enough]

theorem advanced_spent (transit : x.transit = e :: es) (spent : e.remaining ≤ w) :
    x.advanced w = Line.reclassed e.cls { x with transit := drained w x.transit } := by
  unfold Line.advanced
  simp only [transit, if_neg (Nat.not_lt.mpr spent)]

theorem reclassed_state (cls : Nat) (x : Line) : (x.reclassed cls).state = x.state ∧ (x.reclassed cls).inForce = x.inForce := by
  unfold Line.reclassed
  split
  · split <;> exact ⟨rfl, rfl⟩
  · exact ⟨rfl, rfl⟩

theorem advanced_state (w : Nat) (x : Line) : (x.advanced w).state = x.state ∧ (x.advanced w).inForce = x.inForce := by
  unfold Line.advanced
  cases x.transit with
  | nil => exact ⟨rfl, rfl⟩
  | cons e es =>
    dsimp only
    split
    · exact ⟨rfl, rfl⟩
    · exact reclassed_state e.cls _

/-- What the end of a transit makes of a line's classes (R132). -/
theorem classes_reclassed (classes : x.classes = some c) (cls : Nat) :
    ∃ c', (x.reclassed cls).classes = some c' ∧ c'.demanded = c.demanded ∧ c'.effective = cls ∧
      (cls ≠ c.effective → c'.thickening = 0 ∧ c'.pendingVolume = 0 ∧ c'.pRef = none) := by
  unfold Line.reclassed
  rw [classes]
  by_cases same : c.effective = cls
  · simp only [if_pos same]
    exact ⟨c, classes, rfl, same, fun other => absurd same.symm other⟩
  · simp only [if_neg same]
    exact ⟨_, rfl, rfl, rfl, fun _ => ⟨rfl, rfl, rfl⟩⟩

theorem line_advanceTransit (w : Nat) (l : LineId) (s : State) (n : LineId) :
    (advanceTransit w l s).line n = if n = l then (s.line l).advanced w else s.line n := by
  unfold advanceTransit Line.advanced
  cases transit : (s.line l).transit with
  | nil =>
    dsimp only
    split
    · subst n; rfl
    · rfl
  | cons e es =>
    dsimp only
    by_cases enough : w < e.remaining
    · rw [if_pos enough, if_pos enough, line_updLine, drained_enough enough]
    · have spent : e.remaining ≤ w := Nat.not_lt.mp enough
      rw [if_neg enough, if_neg enough, line_setEffective, line_updLine, line_updLine, if_pos rfl]
      by_cases same : n = l
      · rw [if_pos same, if_pos same]
        cases es with
        | nil => rw [drained_last spent]
        | cons f fs => rw [drained_next spent]
      · rw [if_neg same, if_neg same, if_neg same]

/-! ### The pulse itself (R72, R133) -/

/-- A stage's volume with a metered pulse. -/
def Progress.addVolume (w : Nat) (g : Progress) : Progress := { g with v := min volumeTop (g.v + w) }

/-- The part with the pulse counted in its stage's volume and in its line's pending volume. -/
def pulseCounted (l : LineId) (w : Nat) (s : State) : State :=
  (addProgress l (Progress.addVolume w) s).updLine l (Line.addPending w)

theorem meteredPulse_eq (l : LineId) (w : Nat) (s : State) :
    meteredPulse l w s = if ((pulseCounted l w s).line l).command = .opened then
      consume l w (advanceTransit w l (pulseCounted l w s)) else pulseCounted l w s := rfl

theorem line_pulseCounted (l : LineId) (w : Nat) (s : State) (n : LineId) :
    (pulseCounted l w s).line n = if n = l then (s.line l).addPending w else s.line n := by
  rw [pulseCounted, line_updLine, line_addProgress, line_addProgress]

theorem addPending_rest (w : Nat) (x : Line) : (x.addPending w).command = x.command ∧ (x.addPending w).transit = x.transit ∧
    (x.addPending w).state = x.state ∧ (x.addPending w).inForce = x.inForce := by
  unfold Line.addPending
  split <;> exact ⟨rfl, rfl, rfl, rfl⟩

theorem classes_addPending (classes : x.classes = some c) (w : Nat) :
    (x.addPending w).classes = some (if x.state = .injecting ∧ c.effective = c.demanded then
      { c with pendingVolume := c.pendingVolume + w } else c) := by
  unfold Line.addPending
  by_cases injecting : x.state = .injecting
  · rw [if_pos injecting]
    simp [classes, injecting]
  · rw [if_neg injecting, if_neg fun h => injecting h.1, classes]

theorem grout_pulseCounted (l : LineId) (w : Nat) (s : State) : (pulseCounted l w s).grout = s.grout := by
  rw [pulseCounted, grout_updLine]
  exact (addProgress_keeps _ _ _).grout (by decide)

theorem stage_pulseCounted (l : LineId) (w : Nat) (s : State) (j : StageKey) :
    (pulseCounted l w s).stage? j =
      if (s.line l).carried = some j then (s.stage? j).map (Stage.addProgress (Progress.addVolume w)) else s.stage? j :=
  (stage_updLine _ _ _ _).trans (stage_addProgress _ _ _ _)

/-! ### What is metered of a stage (R22) -/

/-- The ACTIVE stage has this volume metered, and this many pulses unmetered. -/
def State.metered (s : State) (k : StageKey) (v n : Nat) : Prop :=
  ∃ z g, s.stage? k = some z ∧ z.progress = some g ∧ z.status = .active ∧ g.unmetered = n ∧ g.v = v

section
variable {m : Nat}

theorem metered_congr (same : t.stage? k = s.stage? k) (h : s.metered k v m) : t.metered k v m := by
  unfold State.metered
  rw [same]
  exact h

/-- A change of other counts of a stage leaves what is metered of it. -/
theorem metered_addProgress {f : Progress → Progress} (volume : ∀ g, (f g).v = g.v)
    (unmetered : ∀ g, (f g).unmetered = g.unmetered) (l : LineId) (h : s.metered k v m) :
    (addProgress l f s).metered k v m := by
  obtain ⟨z, g, found, progress, active, counts, total⟩ := h
  unfold State.metered
  rw [stage_addProgress, found]
  split
  · exact ⟨_, f g, rfl, by rw [addProgress_active f active progress], by rw [addProgress_active f active progress, active],
      (unmetered g).trans counts, (volume g).trans total⟩
  · exact ⟨z, g, rfl, progress, active, counts, total⟩

theorem metered_setEffective (l : LineId) (cls : Nat) (h : s.metered k v m) : (setEffective l cls s).metered k v m := by
  unfold setEffective
  cases (s.line l).classes with
  | none => exact h
  | some c =>
    dsimp only
    split
    · exact h
    · refine metered_congr ((decideMixLag_keeps l _).stage (by decide) k) ?_
      exact metered_addProgress (f := Progress.raiseClass cls) (fun _ => rfl) (fun _ => rfl) l
        (metered_congr (stage_updLine ..) h)

theorem metered_appendTransit (cls : Nat) (l : LineId) (h : s.metered k v m) : (appendTransit cls l s).metered k v m := by
  unfold appendTransit
  dsimp only
  split
  · split
    · exact metered_congr (stage_updLine ..) h
    · exact metered_congr (stage_updLine ..) (metered_setEffective l _ (metered_congr (stage_updLine ..) h))
  · exact metered_congr (stage_updLine ..) h

theorem metered_tankClassFrom (before : Nat) (h : s.metered k v m) : (tankClassFrom before s).metered k v m := by
  have each (ls : List LineId) (s : State) (h : s.metered k v m) :
      (ls.foldl (fun s l => if (s.line l).state.live then appendTransit s.grout.tankClass l s else s) s).metered k v m := by
    induction ls generalizing s with
    | nil => exact h
    | cons l ls ih =>
      refine ih _ ?_
      dsimp only
      split
      · exact metered_appendTransit _ l h
      · exact h
  unfold tankClassFrom
  split
  · exact h
  · exact each lineIds s h

theorem metered_advanceTransit (w : Nat) (l : LineId) (h : s.metered k v m) : (advanceTransit w l s).metered k v m := by
  unfold advanceTransit
  split
  · exact h
  · split
    · exact metered_congr (stage_updLine ..) h
    · exact metered_setEffective l _ (metered_congr (stage_updLine ..) h)

theorem metered_consume (l : LineId) (w : Nat) (h : s.metered k v m) : (consume l w s).metered k v m := by
  have taken : (classTaken l w s).metered k v m :=
    metered_tankClassFrom _ (metered_congr ((drawnFrom_keeps l w s).stage (by decide) k) h)
  rw [consume_eq]
  split
  · exact metered_congr ((decideAged_keeps _).stage (by decide) k) taken
  · exact taken

end

theorem metered_meteredPulse (carried : (s.line l).carried = some k) (found : s.stage? k = some z)
    (active : z.status = .active) (progress : z.progress = some g) (w : Nat) :
    (meteredPulse l w s).metered k (min volumeTop (g.v + w)) g.unmetered := by
  have counted : (pulseCounted l w s).metered k (min volumeTop (g.v + w)) g.unmetered := by
    unfold State.metered
    rw [stage_pulseCounted, if_pos carried, found]
    exact ⟨_, g.addVolume w, rfl, by rw [addProgress_active _ active progress], by
      rw [addProgress_active _ active progress, active], rfl, rfl⟩
  rw [meteredPulse_eq]
  split
  · exact metered_consume l w (metered_advanceTransit w l counted)
  · exact counted

end

end Sys2Proof.Machine
end

section
/-! PROOFS. A flow pulse (R72, R125 to R136). -/

namespace Sys2Proof.Machine

section
variable {s t u : State} {l n : LineId} {k : StageKey} {z : Stage} {x y : Line} {g : Progress} {w : Nat}
  {e f : Transit} {es fs : List Transit} {c : Classes}

/-- The part with the pulse counted on its line (R72). -/
def pulsed (l : LineId) (s : State) : State := s.setLine l { s.line l with pulses := (s.line l).pulses + 1 }

theorem line_pulsed (l : LineId) (s : State) (n : LineId) :
    (pulsed l s).line n = if n = l then { s.line l with pulses := (s.line l).pulses + 1 } else s.line n :=
  line_setLine _ _ _ _

theorem line_pulsed_self (l : LineId) (s : State) :
    (pulsed l s).line l = { s.line l with pulses := (s.line l).pulses + 1 } := line_setLine_self _ _ _

theorem stage_pulsed (l : LineId) (s : State) (j : StageKey) : (pulsed l s).stage? j = s.stage? j := rfl

theorem carried_pulsed (l : LineId) (s : State) : ((pulsed l s).line l).carried = (s.line l).carried := by
  rw [line_pulsed_self]
  rfl

theorem exec_flowPulse_absent (absent : (s.line l).settings.present = false) : exec (.flowPulse l) s = .next s :=
  congrArg Host.Outcome.next (if_neg (by rw [absent]; decide))

theorem exec_flowPulse_unmetered (present : (s.line l).settings.present = true)
    (invalid : (s.line l).flow.validity ≠ .valid) : exec (.flowPulse l) s = .next (unmeteredPulse l (pulsed l s)) :=
  congrArg Host.Outcome.next ((if_pos present).trans (if_neg (by simpa [Channel.isValid] using invalid)))

theorem exec_flowPulse_metered (present : (s.line l).settings.present = true)
    (valid : (s.line l).flow.validity = .valid) :
    exec (.flowPulse l) s = .next (meteredPulse l (s.line l).inForce.weight (pulsed l s)) :=
  congrArg Host.Outcome.next ((if_pos present).trans (if_pos (by simp [Channel.isValid, valid])))

/-! ### A metered pulse with the valve OPEN -/

/-- The part once the pulse has been counted and has moved the transit queue of its line. -/
def pulseMoved (l : LineId) (w : Nat) (s : State) : State := advanceTransit w l (pulseCounted l w (pulsed l s))

/-- The part after a metered pulse with the valve OPEN. -/
def pulseTaken (l : LineId) (w : Nat) (s : State) : State := consume l w (pulseMoved l w s)

theorem command_pulseCounted (l : LineId) (w : Nat) (s : State) :
    ((pulseCounted l w (pulsed l s)).line l).command = (s.line l).command := by
  obtain ⟨command, -⟩ := addPending_rest w ((pulsed l s).line l)
  rw [line_pulseCounted, if_pos rfl, command, line_pulsed_self]

theorem meteredPulse_opened (opened : (s.line l).command = .opened) (w : Nat) :
    meteredPulse l w (pulsed l s) = pulseTaken l w s := by
  rw [meteredPulse_eq, command_pulseCounted, if_pos opened]
  rfl

theorem meteredPulse_closed (closed : (s.line l).command = .closed) (w : Nat) :
    meteredPulse l w (pulsed l s) = pulseCounted l w (pulsed l s) := by
  rw [meteredPulse_eq, command_pulseCounted, if_neg (by rw [closed]; decide)]

theorem grout_pulseMoved (l : LineId) (w : Nat) (s : State) : (pulseMoved l w s).grout = s.grout :=
  ((advanceTransit_keeps w l _).grout (by decide)).trans (grout_pulseCounted l w _)

theorem line_pulseMoved_other (other : n ≠ l) (w : Nat) (s : State) : (pulseMoved l w s).line n = s.line n := by
  rw [pulseMoved, line_advanceTransit, if_neg other, line_pulseCounted, if_neg other, line_pulsed, if_neg other]

/-- The line of the pulse, counted. -/
def Line.pulseCounted (w : Nat) (x : Line) : Line := ({ x with pulses := x.pulses + 1 } : Line).addPending w

theorem line_pulseMoved (l : LineId) (w : Nat) (s : State) :
    (pulseMoved l w s).line l = ((s.line l).pulseCounted w).advanced w := by
  rw [pulseMoved, line_advanceTransit, if_pos rfl, line_pulseCounted, if_pos rfl, line_pulsed_self]
  rfl

theorem pulseCounted_rest (w : Nat) (x : Line) : (x.pulseCounted w).transit = x.transit ∧
    (x.pulseCounted w).state = x.state ∧ (x.pulseCounted w).inForce = x.inForce := by
  obtain ⟨-, transit, state, inForce⟩ := addPending_rest w { x with pulses := x.pulses + 1 }
  exact ⟨transit, state, inForce⟩

theorem line_pulseMoved_rest (l : LineId) (w : Nat) (s : State) :
    ((pulseMoved l w s).line l).transit = drained w (s.line l).transit ∧
    ((pulseMoved l w s).line l).state = (s.line l).state ∧
    ((pulseMoved l w s).line l).inForce = (s.line l).inForce := by
  obtain ⟨transit, state, inForce⟩ := pulseCounted_rest w (s.line l)
  obtain ⟨state', inForce'⟩ := advanced_state w ((s.line l).pulseCounted w)
  rw [line_pulseMoved, transit_advanced, transit, state', state, inForce', inForce]
  exact ⟨rfl, rfl, rfl⟩

/-- The tank class changes to none of the classes from 1 to 6 (R127). -/
def State.sameClass (s t : State) : Prop := t.grout.tankClass = s.grout.tankClass ∨ t.grout.tankClass = 0

theorem tankClass_pulseTaken (l : LineId) (w : Nat) (s : State) :
    (pulseTaken l w s).grout.tankClass = (s.grout.drawn w).tankClass := by
  rw [pulseTaken, tankClass_consume, grout_pulseMoved]

theorem steady_pulseTaken_same (same : s.sameClass (pulseTaken l w s)) (n : LineId) :
    ((pulseTaken l w s).line n).steady = ((pulseMoved l w s).line n).steady := by
  unfold State.sameClass at same
  rw [tankClass_pulseTaken] at same
  rw [pulseTaken, steady_consume, grout_pulseMoved]
  exact if_pos (same.imp_right .inl)

theorem steady_pulseTaken_dead (dead : ((pulseMoved l w s).line n).state.live ≠ true) :
    ((pulseTaken l w s).line n).steady = ((pulseMoved l w s).line n).steady := by
  rw [pulseTaken, steady_consume, grout_pulseMoved]
  exact if_pos (.inr (.inr (Bool.eq_false_iff.mpr dead)))

/-- A line in use when the tank class changes has a transit entry for it appended (R127). -/
theorem transit_pulseTaken (changed : ¬ s.sameClass (pulseTaken l w s)) (live : ((pulseMoved l w s).line n).state.live = true) :
    ((pulseTaken l w s).line n).transit =
      queued ⟨(pulseTaken l w s).grout.tankClass, ((pulseMoved l w s).line n).inForce.hose * 1000⟩
        ((pulseMoved l w s).line n).transit := by
  unfold State.sameClass at changed
  rw [tankClass_pulseTaken] at changed ⊢
  push Not at changed
  have steady := steady_consume l w (pulseMoved l w s) n
  rw [grout_pulseMoved, if_neg (by simp [changed, live])] at steady
  exact (congrArg Line.transit steady :).trans (transit_transited ..)

theorem transit_pulseTaken_same (same : s.sameClass (pulseTaken l w s)) (n : LineId) :
    ((pulseTaken l w s).line n).transit = ((pulseMoved l w s).line n).transit :=
  (congrArg Line.transit (steady_pulseTaken_same same n) :)

theorem classes_pulseTaken_same (same : s.sameClass (pulseTaken l w s)) (n : LineId) :
    ((pulseTaken l w s).line n).classes = ((pulseMoved l w s).line n).classes :=
  (congrArg Line.classes (steady_pulseTaken_same same n) :)

/-- The classes of the line once a transit entry has been drawn upon (R132, R133, R136). -/
theorem classes_pulseMoved (transit : (s.line l).transit = e :: es) (classes : (s.line l).classes = some c) (w : Nat) :
    ∃ c', ((pulseMoved l w s).line l).classes = some c' ∧ c'.demanded = c.demanded ∧
      (w < e.remaining → c'.effective = c.effective) ∧
      (e.remaining ≤ w → c'.effective = e.cls ∧
        (e.cls ≠ c.effective → c'.thickening = 0 ∧ c'.pendingVolume = 0 ∧ c'.pRef = none)) := by
  have counted : ∃ c₁, ((s.line l).pulseCounted w).classes = some c₁ ∧ c₁.demanded = c.demanded ∧
      c₁.effective = c.effective := by
    refine ⟨_, classes_addPending (x := { s.line l with pulses := (s.line l).pulses + 1 }) classes w, ?_, ?_⟩
    · split <;> rfl
    · split <;> rfl
  obtain ⟨c₁, classes₁, demanded₁, effective₁⟩ := counted
  have transit₁ := (pulseCounted_rest w (s.line l)).1.trans transit
  rw [line_pulseMoved]
  by_cases enough : w < e.remaining
  · rw [advanced_enough transit₁ enough]
    exact ⟨c₁, classes₁, demanded₁, fun _ => effective₁, fun spent => absurd enough (Nat.not_lt.mpr spent)⟩
  · have spent : e.remaining ≤ w := Nat.not_lt.mp enough
    rw [advanced_spent transit₁ spent]
    obtain ⟨c', classes', demanded', effective', begun⟩ := classes_reclassed
      (x := { (s.line l).pulseCounted w with transit := drained w ((s.line l).pulseCounted w).transit }) classes₁ e.cls
    exact ⟨c', classes', demanded'.trans demanded₁, fun h => absurd h enough,
      fun _ => ⟨effective', fun other => begun (by rwa [effective₁])⟩⟩

/-! ### The account after the pulse (R125, R126) -/

theorem grout_pulseTaken (l : LineId) (w : Nat) (s : State) :
    ∃ a, (pulseTaken l w s).grout = { s.grout.drawn w with aged := a } := by
  obtain ⟨a, grout⟩ := grout_consume l w (pulseMoved l w s)
  rw [grout_pulseMoved] at grout
  exact ⟨a, grout⟩

theorem unaccounted_drawn (w : Nat) (g : Grout) : (g.drawn w).unaccounted =
    if (g.batches.map Batch.remaining).sum < w then
      min 4000000000 (g.unaccounted + (w - (g.batches.map Batch.remaining).sum)) else g.unaccounted := by
  unfold Grout.drawn
  dsimp only
  rw [(sum_drawBatches w g.batches).2]
  by_cases short : (g.batches.map Batch.remaining).sum < w
  · rw [if_pos short, if_neg (by omega)]
    rfl
  · rw [if_neg short, if_pos (by omega)]

theorem noGrout_drawn (w : Nat) (g : Grout) : (g.drawn w).noGrout = true ↔
    g.noGrout = true ∨ (g.batches.map Batch.remaining).sum < w := by
  unfold Grout.drawn
  dsimp only
  rw [(sum_drawBatches w g.batches).2]
  by_cases short : (g.batches.map Batch.remaining).sum < w
  · rw [if_neg (by omega)]
    simp [short]
  · rw [if_pos (by omega)]
    simp [short]

theorem pulses_meteredPulse (l : LineId) (w : Nat) (s : State) :
    ((meteredPulse l w (pulsed l s)).line l).pulses = (s.line l).pulses + 1 := by
  have meters : ((meteredPulse l w (pulsed l s)).line l).meterPart = ((pulsed l s).line l).meterPart :=
    (meteredPulse_keeps l w _).2 .meters (by decide) l
  refine (congrArg (fun p => p.2.2.2.1) meters).trans ?_
  rw [line_pulsed_self]
  rfl

theorem volume_eq_top (n : Nat) : min volumeTop n = if n ≤ 4000000000 then n else 4000000000 := by
  unfold volumeTop
  split <;> omega

end

/-- Settles O51: what a pulse counts, what it draws from the account, and how it moves the mix in transit. -/
theorem flowPulseMetersTheGrout : Obligations.FlowPulseMetersTheGrout := by
  refine ⟨fun s l absent => exec_flowPulse_absent absent, fun s l present invalid => ?_, fun s l present valid => ?_⟩
  · refine ⟨_, exec_flowPulse_unmetered present invalid, ?_, fun n other => ?_, ?_,
      fun k z g carried found active progress => ?_⟩
    · rw [unmeteredPulse, line_addProgress, line_pulsed_self]
    · rw [unmeteredPulse, line_addProgress, line_pulsed, if_neg other]
    · exact (addProgress_keeps _ _ _).grout (by decide)
    · rw [unmeteredPulse, stage_addProgress, carried_pulsed, if_pos carried, stage_pulsed, found, Option.map_some,
        addProgress_active _ active progress]
      rfl
  · refine ⟨meteredPulse l (s.line l).inForce.weight (pulsed l s), ?_⟩
    dsimp only
    generalize hw : (s.line l).inForce.weight = w
    refine ⟨hw ▸ exec_flowPulse_metered present valid, pulses_meteredPulse l w s,
      fun k z g carried found active progress => ?_, fun closed => ?_, fun opened => ?_⟩
    · obtain ⟨z', g', found', progress', active', counts, total⟩ :=
        metered_meteredPulse ((carried_pulsed l s).trans carried) found active progress w
      exact ⟨z', g', found', progress', active', counts, total.trans (volume_eq_top _)⟩
    · rw [meteredPulse_closed closed]
      refine ⟨grout_pulseCounted l w _, ?_, fun n other => ?_⟩
      · rw [line_pulseCounted, if_pos rfl, line_pulsed_self]
        exact (pulseCounted_rest w (s.line l)).1
      · rw [line_pulseCounted, if_neg other, line_pulsed, if_neg other]
    · rw [meteredPulse_opened opened]
      obtain ⟨a, grout⟩ := grout_pulseTaken l w s
      obtain ⟨drains, state, inForce⟩ := line_pulseMoved_rest l w s
      have batches : (pulseTaken l w s).grout.batches = (drawBatches w s.grout.batches).1 := by rw [grout]; rfl
      refine ⟨?_, ?_, ?_, fun b bs list enough => ?_, fun b b' bs list spent enough => ?_, ?_, fun n other => ?_,
        fun same empty => ⟨?_, fun c classes => ?_⟩, fun e es c same transit classes => ?_, fun live changed => ?_⟩
      · rw [batches, (sum_drawBatches w s.grout.batches).1]
      · rw [grout]
        exact unaccounted_drawn w s.grout
      · rw [grout]
        exact noGrout_drawn w s.grout
      · rw [batches, list, drawBatches_first enough]
      · rw [batches, list, drawBatches_second spent enough]
      · rw [grout]; rfl
      · by_cases taken : (s.line n).state.live = true ∧ ¬ s.sameClass (pulseTaken l w s)
        · refine (transit_pulseTaken taken.2 (by rw [line_pulseMoved_other other]; exact taken.1)).trans ?_
          rw [line_pulseMoved_other other]
          exact (if_pos taken).symm
        · refine Eq.trans ?_ (if_neg taken).symm
          have still : ((pulseTaken l w s).line n).transit = ((pulseMoved l w s).line n).transit := by
            by_cases live : (s.line n).state.live = true
            · exact transit_pulseTaken_same (not_not.mp fun changed => taken ⟨live, changed⟩) n
            · have dead : ((pulseMoved l w s).line n).state.live ≠ true := by
                rw [line_pulseMoved_other other]; exact live
              exact (congrArg Line.transit (steady_pulseTaken_dead dead) :)
          rw [still, line_pulseMoved_other other]
      · rw [transit_pulseTaken_same same, drains, empty]
        rfl
      · rw [classes_pulseTaken_same same, line_pulseMoved,
          advanced_empty ((pulseCounted_rest w (s.line l)).1.trans empty)]
        exact classes_addPending (x := { s.line l with pulses := (s.line l).pulses + 1 }) classes w
      · obtain ⟨c', classes', demanded, enough, spent⟩ := classes_pulseMoved (w := w) transit classes
        rw [classes_pulseTaken_same same, transit_pulseTaken_same same, drains, transit]
        refine ⟨c', classes', demanded, fun h => ⟨drained_enough h, enough h⟩, fun h => ?_⟩
        obtain ⟨effective, begun⟩ := spent h
        refine ⟨effective, begun, cls_drained h, fun f fs list => ?_⟩
        rw [list, drained_next h]
      · rw [transit_pulseTaken changed (by rw [state]; exact live), drains, inForce]
        cases transit : (s.line l).transit with
        | nil => rfl
        | cons e es => cases es <;> rfl

end Sys2Proof.Machine
end
